-- ==== Sys2Proof/Word.lean ====
section
/-!
DEFINITION. The word types of the control aperture and the sparse table that holds every large array of the state:
registers, DRAM bytes, per-object hidden state.
-/
namespace Sys2Proof

/-- A register of the control aperture: 32 bits (R522). -/
abbrev Word := BitVec 32

/-- A byte of hearth memory, of a frame on a port or of a structure image. -/
abbrev Byte := BitVec 8

/-- A sparse table: pairs of key and value with strictly rising keys. A key that is not listed holds the table's
default, and no listed entry equals the default, so that equal tables are equal lists. -/
abbrev Tab (α : Type) := List (Nat × α)

/-- A field of a register: bits [hi:lo] of the word at aperture offset `addr`. -/
structure Fld where
  addr : Nat
  hi : Nat
  lo : Nat
  deriving DecidableEq, Repr

end Sys2Proof
end

