-- ==== Sys2Proof/Syntax.lean ====
section
/-!
DEFINITION. The commands of the block: one constructor of `Instr` for each row of the spec's table of operations and
events, with the operands that the world outside the block decides: which object, what value was written, what arrived on
a pin or a port, what a sensor or a line of memory delivered. The table gives its rows no bits and no operands, so the
operands are this model's (log 1).
-/
namespace Sys2Proof

/-- An access of a matrix source (R354): `bytes` are what a write stores from `addr` on, `len` how many bytes a read asks for. -/
structure Access where
  src : Nat
  write : Bool
  addr : Nat
  bytes : List Byte
  len : Nat := 64
  deriving DecidableEq, Repr

/-- What arrives at an audio source endpoint (R457, R463): `frames` sample frames of channel values, `rtp` the timestamp of
the first on an AES67 stream, the channel-status and InfoFrame indications of R468, and for an IEC input its measured rate
code, a completed channel-status block and the errors counted (R469); on AES67 `errors` are packets lost before this. -/
structure AudioInput where
  kind : Nat
  index : Nat
  frames : List (List Nat)
  rtp : Nat
  nonAudio : Bool
  lpcm : Bool
  rate : Nat
  csBlock : Option (List Byte)
  errors : Nat
  deriving DecidableEq, Repr

/-- What a parameter set, or a JPEG header, says of its pictures (R276 to R278): the profile as REEL_STATUS.PROFILE codes it (0 for
any other), High tier, the level indicator, field pictures or MBAFF, arbitrary slice order or FMO, the chroma sampling (0 none,
1 4:2:0, 2 4:2:2, 3 any other), the bits of a sample, the decoded-picture-buffer size, the picture size. -/
structure AuInfo where
  profile : Nat
  highTier : Bool
  levelIdc : Nat
  interlaced : Bool
  flexible : Bool
  sampling : Nat
  depth : Nat
  dpb : Nat
  w : Nat
  h : Nat
  deriving DecidableEq, Repr

/-- An RTP packet delivered by an Ethernet port (R284): port, destination address and UDP port, payload type, SSRC, sequence
number, timestamp, marker, payload, and what the parser reads in the whole NAL units that it completes: the parameter sets by id,
none for one that is damaged (R289), and the id of the set that the picture's slices name. -/
structure RtpPacket where
  port : Nat
  dst : Nat
  udp : Nat
  pt : Nat
  ssrc : Nat
  seq : Nat
  ts : Nat
  marker : Bool
  payload : List Byte
  sets : List (Nat × Option AuInfo)
  uses : Nat
  deriving DecidableEq, Repr

/-- A slice, or the run of blocks up to a JPEG restart marker, as the entropy decoder finds it (R289): the NAL unit that holds it
(by its place in the access unit), the 16 × 16 blocks it covers in decode order, the number decoded before the error if the unit is
damaged, and whether its header is damaged. -/
structure Slice where
  nal : Nat
  blocks : List Nat
  good : Nat
  badHeader : Bool
  deriving DecidableEq, Repr

/-- What a block is predicted from (R292): blocks of reference pictures, by the picture's name, with the interpolation support;
neighbouring blocks of its own slice; and whether a read of a reference sample returned an uncorrectable error (R296). -/
structure BlockSource where
  block : Nat
  inter : List (Nat × List Nat)
  intra : List Nat
  poisoned : Bool
  deriving DecidableEq, Repr

/-- What the standard's decoding of an access unit gives (R277, R289 to R297): the name by which later pictures refer to this one,
its place in output order, the reference pictures it refers to, those kept as references after it (itself among them when it is
one), its slices, the whole NAL units that break the standard's syntax, the sources of its blocks, the samples of its decoded
blocks by plane, the reads that returned an uncorrectable error, and how many pictures the output process gives out after it. -/
structure Picture where
  name : Nat
  order : Nat
  refs : List Nat
  keep : List Nat
  slices : List Slice
  bad : List Nat
  sources : List BlockSource
  planes : List (List Nat)
  dramUe : Nat
  bump : Nat
  deriving DecidableEq, Repr

/-- What the standard gives the encoder for a 16 × 16 block (R308): the vector of skip in quarter-pel and the bits of skip, the SAD and
the bits of intra. -/
structure BlockCost where
  skipVec : Int × Int
  skipBits : Nat
  intraSad : Nat
  intraBits : Nat
  deriving DecidableEq, Repr

/-- What the encoder's rows give for a frame (R302, R308, R314 to R316): the Annex B bytes, the bits before the first row, for each
row the bits it codes to and the bits of its fill, for each 16 × 16 block in raster order what skip and intra cost, and the
reconstruction (the luma plane, then the chroma plane). -/
structure Coded where
  data : List Byte
  headerBits : Nat
  rows : List (Nat × Nat)
  blocks : List BlockCost
  recon : List Byte
  deriving DecidableEq, Repr

/-- What the initial adaptation of a lane measures (R376): E with PEAK at 0 to 15, E with the partner's Crinus preset P0 to P7
or with the DisplayPort level or preset requested of the source (R398), E with PEAK two and one below and one and two above the
code chosen first, the DC gain code, the five DFE taps in mV, and on PCIe lanes the post-cursor of the partner's preset. -/
structure Adapt where
  peakEyes : List Nat
  presetEyes : List Nat
  sweepEyes : List Nat
  dcGain : Nat
  dfe : List Int
  rpost : Nat
  deriving DecidableEq, Repr

/-- A stream's raster as a sink measures it (R399): totals and active size, the capture ring's format code, the colorimetry
code, limited range, audio channels, the frame period in ns, and whether the rest of the stream, such as SST, is what R396 lists. -/
structure Raster where
  hTotal : Nat := 0
  vTotal : Nat := 0
  hActive : Nat := 0
  vActive : Nat := 0
  fmt : Nat := 0
  colorimetry : Nat := 0
  limited : Bool := false
  audioCh : Nat := 0
  periodNs : Nat := 0
  supported : Bool := false
  deriving DecidableEq, Repr

/-- An AUX transaction at a sink (R397): I2C-over-AUX or native, write or read, the I2C or DPCD address, the bytes written, the
number of bytes to read, and whether the I2C transaction ends with it. -/
structure AuxRequest where
  i2c : Bool
  write : Bool
  addr : Nat
  data : List Byte
  len : Nat
  stop : Bool
  deriving DecidableEq, Repr

/-- What a source reads from a monitor (R400): the DPCD revision, the highest rate code, the lane count, the EDID blocks. -/
structure MonitorCaps where
  dpcdRev : Nat
  maxRate : Nat
  maxLanes : Nat
  blocks : List (List Byte)
  deriving DecidableEq, Repr

/-- The commands: one for each row of the table, in the table's order. -/
inductive Instr where
  /-- TICK_EDGE (R12). A tick edge is generated and the edge's actions run in the order of R220. -/
  | tickEdge (energyUj : Nat)
  /-- CUE_SHEET_COMPLETE (R26). The cue processors mark the sheet for the next tick complete and its pointers and checksum are checked. -/
  | cueSheetComplete (ok : Bool)
  /-- DAMPER_RELAX (R270). After RELAX_TICKS consecutive edges below the relaxation threshold the most recent action is undone. -/
  | damperRelax
  /-- RESYNC (R16). A write of 1 to TICK_CTRL.RESYNC leaves holdover at the next edge if the source is locked. -/
  | resync
  /-- TICK_SOURCE_EDGE (R14). An edge of a non-timebase tick source arrives and is tested toward lock and slewing. -/
  | tickSourceEdge
  /-- TICK_SRC_LOST (R15). An expected edge is missing for a quarter period, or a new source fails to lock in 16 periods, and the tick enters holdover. -/
  | tickSrcLost
  /-- CUT_OFF (R219). At the cut-off 50 µs before an edge with an arm waiting, a seal of every shadow is taken. -/
  | cutOff
  /-- CLAP_ARM (R218). A write of 1 to CLAP_ARM.ARM arms a commit for the next or following edge. -/
  | clapArm
  /-- CLAP_DISCARD (R225). A write of 1 to CLAP_CTRL.DISCARD withdraws the waiting arm and returns shadows to live values. -/
  | clapDiscard
  /-- REGISTER_WRITE (R524). A write to a register without behaviour of its own applies to each field by its access type. -/
  | registerWrite (src : Nat) (offset : Nat) (value : Nat) (be : Nat)
  /-- BAND_START (R123). A unit starts a band or member item once the sheet is published and its band-buffer half is free. -/
  | bandStart (unit : Nat)
  /-- BAND_COMPLETE (R40). A unit finishes composing a band or member item and takes the next item of its cue. -/
  | bandComplete (unit : Nat)
  /-- BAND_DEADLINE (R21). A band deadline arrives; an unfinished band is abandoned and its scan-out begins. -/
  | bandDeadline (flue : Nat) (band : Nat)
  /-- FRAME_START (R20). A flue's frame begins at the tick edge plus its phase offset and the sentinel advances a chip. -/
  | frameStart (flue : Nat)
  /-- CANARY_SIGNED (R42). A unit's canary tile is signed and compared with its expected ROM value. -/
  | canarySigned (unit : Nat) (sig : Nat)
  /-- CANARY_DEADLINE (R43). A canary not signed 100 µs before the next edge counts as failed. -/
  | canaryDeadline (unit : Nat)
  /-- DIRECT_UNDERRUN (R146). A direct pixel misses the flue's scan and the rest of the frame is taken from the held copy. -/
  | directUnderrun (flue : Nat)
  /-- VOTE_SIGNATURE_ARRIVAL (R199). A member's tile signature reaches the flue's voter and may decide MAJORITY or FAIL. -/
  | voteSignatureArrival (flue : Nat) (tile : Nat) (unit : Nat) (sig : Nat)
  /-- VOTE_CUTOFF (R199). The vote cut-off is reached; undecided tiles fail and missing members count late. -/
  | voteCutoff (flue : Nat) (band : Nat)
  /-- IMG_GO (R77). A write of 1 to IMG_CTRL.GO starts a load from IMG_SRC, or is ignored while busy. -/
  | imgGo
  /-- IMG_CANCEL (R82). A write of 1 to IMG_CTRL.CANCEL refuses a waiting reload under CANCELLED. -/
  | imgCancel
  /-- IMG_READ_DONE (R552). A read part of the image completes and its checks are made. -/
  | imgReadDone (bytes : List Byte) (fail : Option Nat)
  /-- IMG_VERIFY_DONE (R65). Hashing and signature verification complete and the key and SVN are checked. -/
  | imgVerifyDone
  /-- IMG_VALIDATE_DONE (R70). Section and cross-checks complete; a full image starts applying, a partial one waits. -/
  | imgValidateDone
  /-- IMG_APPLY_STEP_DONE (R73). An application step of a full image completes and the next begins, ending in IMG_LOADED or APPLY_FAIL. -/
  | imgApplyStepDone (ok : Bool) (failed : List Nat)
  /-- IMG_IDLE_TIMEOUT (R82). WAIT_TICKS edges pass without the reload conditions holding and the image is refused. -/
  | imgIdleTimeout
  /-- FUSE_PROGRAM_SLOT0 (R69). IMG_FUSE_PROG op 0x1 programs key slot 0 from IMG_FUSE_DATA. -/
  | fuseProgramSlot0
  /-- FUSE_PROGRAM_SLOT1 (R69). IMG_FUSE_PROG op 0x2 programs key slot 1. -/
  | fuseProgramSlot1
  /-- FUSE_REVOKE_SLOT0 (R69). IMG_FUSE_PROG op 0x3 revokes key slot 0. -/
  | fuseRevokeSlot0
  /-- FUSE_REVOKE_SLOT1 (R69). IMG_FUSE_PROG op 0x4 revokes key slot 1. -/
  | fuseRevokeSlot1
  /-- FUSE_ADVANCE_SVN (R69). IMG_FUSE_PROG op 0x5 advances the fuse SVN by one. -/
  | fuseAdvanceSvn
  /-- FUSE_BLOW_INJ_FORBID (R69). IMG_FUSE_PROG op 0x6 blows the INJ_FORBID fuse. -/
  | fuseBlowInjForbid
  /-- CAPTURE_FRAME_COMPLETE (R91). A DisplayPort sink's last active line is written to its capture ring. -/
  | captureFrameComplete (sink : Nat) (pixels : List Byte)
  /-- SINK_FRAME_START (R95). The first active pixel of a sink frame arrives and the frame is stamped. -/
  | sinkFrameStart (sink : Nat) (raster : Raster)
  /-- SENTINEL_EVALUATION (R184). At frame k0+24 the correlator evaluates a code period, confirming and refining latency. -/
  | sentinelEvaluation (flue : Nat) (samples : List Nat)
  /-- GLASS_UNCONFIRMED (R186). CONFIRM_TICKS pass without confirmation and the flue becomes UNCONFIRMED. -/
  | glassUnconfirmed (flue : Nat)
  /-- WARDEN_PROPOSAL (R212). A Warden core proposes an action record to the action port, which executes on two identical proposals. -/
  | wardenProposal (core : Nat) (index : Nat) (action : Nat) (object : Nat)
  /-- VOTE_WINDOW_CLOSE (R213). A Warden vote window closes; dissenting cores are outvoted or a split is declared. -/
  | voteWindowClose
  /-- HANDLER_STAGE_END (R236). The 8 µs handler stage ends; overrunning handlers are stopped or a split is declared. -/
  | handlerStageEnd (overrun : List Nat)
  /-- UNIT_STALL (R230). A unit that started an item completes no tile of it for 8 µs. -/
  | unitStall (unit : Nat)
  /-- CACHE_UE (R230). An uncorrectable tile-cache error is detected in a cluster. -/
  | cacheUe (cluster : Nat)
  /-- SIG_ENGINE (R230). A signature engine's dual-rail comparison disagrees. -/
  | sigEngine (cluster : Nat)
  /-- UNLOCALISED (R230). A cluster reports a composition fault without naming a unit. -/
  | unlocalised (cluster : Nat)
  /-- DIE_CLOCK (R230). A compute die's composition PLL loses lock, logging one record per region. -/
  | dieClock (die : Nat)
  /-- FLUE_OUT (R230). A parity error in a flue's band buffer or output stage is detected. -/
  | flueOut (flue : Nat)
  /-- FAULT_HANDLING_START (R234). The Warden takes the next queued record and starts handlers on every core in the vote. -/
  | faultHandlingStart
  /-- FAULT_ACTION_EXECUTED (R235). An action's execution completes, moving cues and ending the fault hold. -/
  | faultActionExecuted
  /-- FAULT_RECORD_TIMEOUT (R248). A record stays queued, handling or retry for 64 ticks and a package fault is declared. -/
  | faultRecordTimeout
  /-- REGION_RESET_CHECK (R246). 1 ms after a region reset the supply is checked and the region stays unpowered if still outside its window. -/
  | regionResetCheck (region : Nat)
  /-- INJ_RX_CFG_WRITE (R249). A write to INJ_RX_CFG arms receive-path injection if permitted, else INJ_DENIED. -/
  | injRxCfgWrite (path : Nat) (value : Nat)
  /-- INJ_VOTER_WRITE (R249). A write to INJ_VOTER arms voter-input corruption if permitted. -/
  | injVoterWrite (value : Nat)
  /-- INJ_DRAM_WRITE (R249). A write to INJ_DRAM arms DRAM ECC injection if permitted. -/
  | injDramWrite (value : Nat)
  /-- INJ_LANE_WRITE (R249). A write to INJ_LANE arms lane bit errors if permitted. -/
  | injLaneWrite (value : Nat)
  /-- INJ_DONE (R255). An injection COUNT reaches 0 and the kind disarms. -/
  | injDone (kind : Nat)
  /-- TEMP_SAMPLE (R257). A temperature sensor is sampled, possibly beginning a thermal emergency. -/
  | tempSample (sensor : Nat) (eighths : Int)
  /-- THERM_CLEAR (R272). Every sensor reads 105 °C or less for 64 consecutive edges and the emergency ends. -/
  | thermClear
  /-- THERMTRIP (R273). A sensor comparator reaches 120 °C and THERMTRIP_N asserts, a package fault. -/
  | thermtrip (sensor : Nat)
  /-- SENSOR_FAIL (R516). A sensor delivers no conversion for 300 µs and reads invalid. -/
  | sensorFail (sensor : Nat)
  /-- RTP_PACKET_RECEIVED (R284). An RTP packet for a decode reel is accepted and ordered, possibly making an access unit ready. -/
  | rtpPacketReceived (reel : Nat) (packet : RtpPacket)
  /-- ACCESS_UNIT_JB_EXPIRY (R286). JB_US passes since an access unit's first packet and it becomes ready with the data it has. -/
  | accessUnitJbExpiry (reel : Nat)
  /-- DECODE_PICTURE_DONE (R279). An engine completes a picture, marks maps and takes the next ready access unit. -/
  | decodePictureDone (engine : Nat) (picture : Picture)
  /-- FIR_TIMER (R298). FIR_MS elapses in a damage episode and an RTCP FIR is sent. -/
  | firTimer (reel : Nat)
  /-- DEC_ENGINE_RESET (R283). An engine has not completed a picture in 50 ms and is reset. -/
  | decEngineReset (engine : Nat)
  /-- DEC_SILENT (R287). No packet is accepted for LOSS_MS and the reel becomes silent. -/
  | decSilent (reel : Nat)
  /-- RTCP_SR_RECEIVED (R288). An RTCP sender report arrives and the reel maps stamps from it. -/
  | rtcpSrReceived (reel : Nat) (ntp : Nat) (rtp : Nat) (addr : Nat) (udp : Nat)
  /-- DEC_SR_LOST (R288). No sender report arrives within the timeout and the reel stamps by arrival. -/
  | decSrLost (reel : Nat)
  /-- RTCP_RR_TIMER (R408). Every 5 s a decode reel sends a receiver report. -/
  | rtcpRrTimer (reel : Nat)
  /-- ENCODE_FRAME_DONE (R318). An engine finishes encoding a frame and writes its record to the ring or drops it when full. -/
  | encodeFrameDone (engine : Nat) (coded : Coded)
  /-- ENC_IDR_REQ (R317). A write of 1 to ENC_GOP.IDR_REQ requests an IDR picture. -/
  | encIdrReq (reel : Nat)
  /-- RTCP_FEEDBACK_RECEIVED (R320). A PLI or FIR for an encode reel's SSRC arrives and requests an IDR picture. -/
  | rtcpFeedbackReceived (reel : Nat)
  /-- ENC_SR_TIMER (R320). Once per second an encode reel sends an RTCP sender report. -/
  | encSrTimer (reel : Nat)
  /-- DRAM_READ (R329). A line read is checked by ECC and colour, corrected or poisoned. -/
  | dramRead (src : Nat) (flips0 : Nat) (flips1 : Nat)
  /-- DRAM_WRITE (R330). A line write is colour-checked and partial writes read-modify-write, possibly poisoned. -/
  | dramWrite (src : Nat) (flips0 : Nat) (flips1 : Nat)
  /-- SCRUB_READ (R333). The patrol scrubber reads the next line of its channel. -/
  | scrubRead (channel : Nat) (flips0 : Nat) (flips1 : Nat)
  /-- REFRESH_INTERVAL (R339). A tREFI interval elapses and each bank owes another refresh. -/
  | refreshInterval (channel : Nat) (postponed : List Nat)
  /-- FORCED_REFRESH (R340). A bank owes 8 intervals and an all-bank refresh is forced. -/
  | forcedRefresh (channel : Nat)
  /-- MR4_POLL (R341). Every 4 ms MR4 is read and derating or device-hot applied. -/
  | mr4Poll (channel : Nat) (code : Nat) (driftPs : Nat) (hot : Bool)
  /-- ZQ_LATCH (R341). Every 32 ms a ZQ latch is issued. -/
  | zqLatch (channel : Nat)
  /-- HRT_PANIC (R338). A real-time port's buffer crosses its panic threshold, raising or clearing panic. -/
  | hrtPanic (port : Nat) (fill : Nat)
  /-- TRAIN_WINDOW_OPEN (R344). AT_US after an edge a retraining window opens for one channel if conditions hold. -/
  | trainWindowOpen
  /-- RETRAIN_STEP_DONE (R344). A retraining step completes or fails. -/
  | retrainStepDone (ok : Bool)
  /-- MTX_FENCE (R355). A read of MTX_FENCE fences the reading source. -/
  | mtxFence (src : Nat)
  /-- FENCE_COMPLETE (R337). A fence completes once earlier writes took effect and reads returned. -/
  | fenceComplete (src : Nat)
  /-- ACCESS_CHECK (R357). An access enters the matrix and is checked against its protection unit. -/
  | accessCheck (access : Access)
  /-- MPU_UPD_GO (R363). A GO installs staged region contents and increments the epoch, or is refused. -/
  | mpuUpdGo (unit : Nat) (index : Nat)
  /-- MPU_DRAINED (R364). No older-epoch access remains in the affected range and the update is acknowledged. -/
  | mpuDrained (unit : Nat)
  /-- MTX_LINK_ERR (R356). A die-to-die flit fails its CRC and is resent, or dropped after 15 resends. -/
  | mtxLinkErr (link : Nat) (failed : Nat) (src : Nat) (addr : Nat) (write : Bool)
  /-- TRAINING_BLOCK_RECEIVED (R378). A Crinus training block arrives at rate 0x0, advancing lock, READY or STEP. -/
  | trainingBlockReceived (lane : Nat) (chars : List Byte)
  /-- PLL_RELOCK_DONE (R371). A lane PLL relocks at a new rate and adaptation begins. -/
  | pllRelockDone (lane : Nat)
  /-- LANE_TRAINING_BLOCK (R379). A 64b/66b lane training block arrives carrying state and preset requests. -/
  | laneTrainingBlock (lane : Nat) (bytes : List Byte)
  /-- ADAPTATION_DONE (R376). Initial adaptation ends and the lane sends READY or FAIL. -/
  | adaptationDone (lane : Nat) (adapt : Adapt)
  /-- LANE_TRAIN_TIMEOUT (R380). Lanes are not trained within 6 ms and the port falls back. -/
  | laneTrainTimeout (port : Nat)
  /-- LANE_RETRY_RESTART (R380). RETRY_S after a training failure the sequence restarts without a cap. -/
  | laneRetryRestart (port : Nat)
  /-- ALIGNMENT_MARKER (R381). An alignment marker arrives, aligning the lane and reporting the peer id. -/
  | alignmentMarker (lane : Nat) (bytes : List Byte) (position : Nat) (arrivalUi : Nat)
  /-- LANE_DESKEW_FAIL (R381). A lane is not aligned within 3 marker periods and deskew fails. -/
  | laneDeskewFail (port : Nat)
  /-- LANE_ALIGN_LOST (R382). No valid marker at 3 expected positions and the lane loses alignment. -/
  | laneAlignLost (lane : Nat)
  /-- LANE_REALIGN_TIMEOUT (R382). A lane has not realigned in 4 marker periods and the port returns to BLIND. -/
  | laneRealignTimeout (lane : Nat)
  /-- LANE_DEEP_LP_ENTRY (R383). An unassigned or disabled lane enters the deep low-power state. -/
  | laneDeepLpEntry (lane : Nat)
  /-- LANE_WAKE_DONE (R383). 40 µs after the cause ends a lane leaves deep low power and training begins. -/
  | laneWakeDone (lane : Nat)
  /-- LANE_EYE_REFRESH (R375). Every 100 ms an UP lane's eye figure is refreshed. -/
  | laneEyeRefresh (lane : Nat) (v : Nat) (h : Nat)
  /-- LANE_SURVEY (R387). A write of 1 to LANE_CTRL.SURVEY requests a channel survey. -/
  | laneSurvey (lane : Nat)
  /-- LANE_ERR_ONE (R386). A write of 1 to LANE_TEST.ERR_ONE inverts one transmitted bit. -/
  | laneErrOne (lane : Nat)
  /-- AUX_REQUEST (R397). A sink receives an AUX transaction and serves DPCD or EDID. -/
  | auxRequest (sink : Nat) (request : AuxRequest)
  /-- SINK_LINK_LOSS (R399). A sink loses signal, lock or timing mid-frame and pulses IRQ_HPD. -/
  | sinkLinkLoss (sink : Nat) (kind : Nat)
  /-- HPD_CONNECT (R400). HPD high for 2 ms at a source signals a connection and capabilities are read. -/
  | hpdConnect (port : Nat)
  /-- HPD_IRQ (R401). An IRQ_HPD pulse makes a source read link status and retrain if needed. -/
  | hpdIrq (port : Nat) (lost : Bool)
  /-- HPD_DISCONNECT (R400). HPD low for more than 2 ms signals a disconnection. -/
  | hpdDisconnect (port : Nat)
  /-- PORT_CAPS_READ (R400). A source finishes reading DPCD and EDID and checks the timing. -/
  | portCapsRead (port : Nat) (caps : MonitorCaps)
  /-- SOURCE_TRAINING_DONE (R401). A source's link training ends, UP or SHORT. -/
  | sourceTrainingDone (port : Nat) (ok : Bool) (levels : List Nat)
  /-- ETH_FRAME_RECEIVED (R406). An Ethernet frame is received and accepted, answered or dropped. -/
  | ethFrameReceived (port : Nat) (frame : List Byte) (fcsOk : Bool)
  /-- ETH_NEXT_HOP_TIMEOUT (R406). A packet's next hop is unresolved after 1 ms and the packet is dropped. -/
  | ethNextHopTimeout (port : Nat)
  /-- NEIGHBOUR_LAPSE (R406). A neighbour cache entry lapses after 300 s unused. -/
  | neighbourLapse (port : Nat)
  /-- MEMBERSHIP_REPORT_REPEAT (R407). An IGMPv3 or MLDv2 report repeats at its 1 s interval. -/
  | membershipReportRepeat (port : Nat)
  /-- PORT_DOWN (R409). An Ethernet link goes down. -/
  | portDown (port : Nat)
  /-- PORT_UP (R409). A link comes up and memberships are reported afresh. -/
  | portUp (port : Nat) (rate : Nat) (lanes : Nat)
  /-- PORT_PCIE_RESET (R412). A function-level reset, hot reset or link-down resets the endpoint only. -/
  | portPcieReset (kind : Nat)
  /-- CRL_FRAME_BAD (R420). A Crinus frame fails its check and is discarded, sending a NAK. -/
  | crlFrameBad (link : Nat) (frame : List Byte)
  /-- CRL_CREDIT_RECEIVED (R422). A CREDIT frame updates freed units of a pool. -/
  | crlCreditReceived (link : Nat) (frame : List Byte)
  /-- CRL_NAK_RECEIVED (R424). A NAK header makes the sender rewind from ACK + 1. -/
  | crlNakReceived (link : Nat) (frame : List Byte)
  /-- CRL_RETRY_TIMEOUT (R424). The oldest unacknowledged frame waits RETRY_US and the sender rewinds. -/
  | crlRetryTimeout (link : Nat)
  /-- CRL_TILE_EXPIRY (R425). A TILE frame expires IMPORT_CUT_US before the next edge. -/
  | crlTileExpiry (link : Nat)
  /-- CRL_LAYER_RECEIVED (R429). A LAYER frame starts an import into a frame buffer. -/
  | crlLayerReceived (link : Nat) (frame : List Byte)
  /-- CRL_TILE_RECEIVED (R429). A TILE frame is written into its import buffer, completing the frame when all tiles arrive. -/
  | crlTileReceived (link : Nat) (frame : List Byte)
  /-- IMPORT_CUT (R429). At the import cut missing tiles are held and the frame completes. -/
  | importCut
  /-- CRL_EDGE_RECEIVED (R434). An EDGE frame sets a follower's tick edge and is forwarded. -/
  | crlEdgeReceived (link : Nat) (frame : List Byte)
  /-- CRL_CLAIM_RECEIVED (R431). A CLAIM frame is recorded for the election and forwarded. -/
  | crlClaimReceived (link : Nat) (frame : List Byte)
  /-- CRL_MASTER_CHANGE (R431). CLAIMs of the master are absent for 8 ticks and a new master is elected. -/
  | crlMasterChange
  /-- CRL_DELAY_REQ_RECEIVED (R432). A DELAY_REQ is answered with a DELAY_RESP. -/
  | crlDelayReqReceived (link : Nat) (frame : List Byte)
  /-- CRL_DELAY_RESP_RECEIVED (R432). A DELAY_RESP updates the link delay, bringing the link UP after 16 exchanges. -/
  | crlDelayRespReceived (link : Nat) (frame : List Byte)
  /-- CRL_DELAY_TIMER (R432). Once per second after link-up a delay exchange is sent. -/
  | crlDelayTimer (link : Nat)
  /-- CRL_PEER_FAULT (R435). A WARDEN PKG_FAULT or WARM_RESET frame arrives and the link goes down. -/
  | crlPeerFault (link : Nat) (frame : List Byte)
  /-- CRL_REG_GO (R436). A write of 1 to CRL_REG_CMD.GO sends a REG request. -/
  | crlRegGo
  /-- CRL_REG_REQUEST_RECEIVED (R436). A REG request is carried out under MPU2, fenced and answered. -/
  | crlRegRequestReceived (link : Nat) (frame : List Byte)
  /-- CRL_REG_RESPONSE_RECEIVED (R436). A REG response completes the outstanding request. -/
  | crlRegResponseReceived (link : Nat) (frame : List Byte)
  /-- CRL_REG_TIMEOUT (R436). A REG request has no response in 100 µs and ends with STATUS 2. -/
  | crlRegTimeout
  /-- TMB_INC_INT_WRITE (R440). A write of TMB_INC_INT installs the increment with the last fraction, clamped if needed. -/
  | tmbIncIntWrite (value : Nat)
  /-- TMB_STEP (R442). A write of 1 to TMB_CTRL.STEP adds the signed offset to the timebase. -/
  | tmbStep
  /-- TMB_SNAP (R439). A write of 1 to TMB_CTRL.SNAP copies the timebase into the snapshot registers. -/
  | tmbSnap
  /-- PTP_TX_WR_WRITE (R447). Advancing TX_WR makes the device send PTP transmit records with timestamps. -/
  | ptpTxWrWrite (value : Nat)
  /-- TMO_ENABLE (R449). A write of ENABLE = 1 to a timed output checks and starts it. -/
  | tmoEnable (output : Nat) (value : Nat)
  /-- TMO_PULSE_START (R448). A timed output's pulse instant arrives and the pulse begins. -/
  | tmoPulseStart (output : Nat)
  /-- TMO_PULSE_END (R448). WIDTH_NS ends a pulse; a fired one-shot clears ENABLE. -/
  | tmoPulseEnd (output : Nat)
  /-- TMC_EDGE (R451). A capture input edge is timestamped into its queue or lost when full. -/
  | tmcEdge (capture : Nat) (falling : Bool)
  /-- TMC_TS_READ (R451). A read of TMC_TS_NS removes the oldest capture entry. -/
  | tmcTsRead (capture : Nat)
  /-- APLL_LOCK (R453). An audio PLL locks or re-phases after a step. -/
  | apllLock (pll : Nat)
  /-- TMB_APLL_UNLOCK (R453). An audio PLL loses lock for another reason. -/
  | tmbApllUnlock (pll : Nat)
  /-- AUD_FRAME_DUE (R459). A destination frame falls due and is sent from a route or repeated under underrun. -/
  | audFrameDue (route : Nat)
  /-- AUD_SOURCE_SAMPLE (R463). An audio source sample or packet arrives and is given its capture time. -/
  | audSourceSample (input : AudioInput)
  /-- AUD_NON_AUDIO_END (R468). 16,384 source frames pass after the last preamble and the route returns to data. -/
  | audNonAudioEnd (kind : Nat) (index : Nat)
  /-- AUD_REF_LOST (R461). A clock group's reference is lost and its outputs hold over. -/
  | audRefLost (group : Nat)
  /-- AUD_REF_LOCKED (R461). A group's reference is in range for 100 ms and the group locks. -/
  | audRefLocked (group : Nat) (hz : Nat)
  /-- AUD_ASRC_UNLOCK (R462). An ASRC instance leaves lock. -/
  | audAsrcUnlock (instance_ : Nat) (ratio : Nat)
  /-- SLOT_MASK_WRITE (R467). A write to AUD_TDM_SLOTS takes effect at the port's next frame boundary. -/
  | slotMaskWrite (port : Nat) (value : Nat)
  /-- AUD_LOAD (R470). Every 100 ms an IEC output classifies its load. -/
  | audLoad (port : Nat) (ohms : Nat)
  /-- TCH_SCAN_DUE (R479). A panel scan falls due, abandoning an unfinished one. -/
  | tchScanDue (panel : Nat)
  /-- TCH_SCAN_DONE (R477). A scan completes; raw counts, baselines, contacts, gestures and reports follow. -/
  | tchScanDone (panel : Nat) (charges : List (List (List Int)))
  /-- TCH_TEST (R486). A write of 1 to TCH_PNL_CTRL.TEST starts a self-test. -/
  | tchTest (panel : Nat)
  /-- TCH_TEST_DONE (R486). A self-test completes, setting open and short bits. -/
  | tchTestDone (panel : Nat) (charges : List (List (List Int))) (single : List (List (List Nat)))
  /-- TCH_SURVEY (R487). A write of 1 to TCH_PNL_CTRL.SURVEY starts an electrode survey. -/
  | tchSurvey (panel : Nat)
  /-- TCH_SURVEY_DONE (R487). A survey completes and overlays match or mismatch profiles. -/
  | tchSurveyDone (panel : Nat) (drive : List Nat) (sense : List Nat)
  /-- CHK_RESTART (R494). A write of 1 to CHK_CU_CFG.RESTART restarts a matrix-point message. -/
  | chkRestart (unit : Nat)
  /-- PORST_ASSERT (R508). PORST_N is asserted for 10 µs or more and everything resets. -/
  | porstAssert
  /-- PORST_RELEASE (R505). PORST_N is released, BOOTSEL is latched and PD0, PD1, PD2 come up. -/
  | porstRelease (bootsel : Nat)
  /-- WARM_RST_N (R509). WARM_RST_N held low 10 µs starts a warm reset. -/
  | warmRstN
  /-- PWR_RESET (R509). A keyed write to PWR_RESET.WARM starts a warm reset. -/
  | pwrReset (value : Nat)
  /-- DOMAIN_SWITCH_DONE (R506). A power domain's switch completes and its monitor reports it powered. -/
  | domainSwitchDone (domain : Nat)
  /-- DOMAIN_POWER_TIMEOUT (R506). A domain not powered 200 µs after its switch is switched off again. -/
  | domainPowerTimeout (domain : Nat)
  /-- SUPPLY_MONITOR_SAMPLE (R513). A supply monitor samples its rail and trips or clears. -/
  | supplyMonitorSample (monitor : Nat) (mv : Nat)
  /-- WAKE_PENDING_CLEAR (R518). Writing 1 to PWR_WAKE.PENDING clears it and releases WAKE_N. -/
  | wakePendingClear
  /-- GLB_EVQ_RD_WRITE (R531). Firmware advances GLB_EVQ_RD, freeing queue slots. -/
  | glbEvqRdWrite (value : Nat)
  /-- INT_PEND_CLEAR (R535). A clearing write to GLB_INT_PEND clears a vector or sets it again. -/
  | intPendClear (register : Nat) (value : Nat)
  /-- PRBS_LOCK (R386). The PRBS checker predicts 64 consecutive received bits correctly and locks, starting its error and bit counts. -/
  | prbsLock (lane : Nat)
  /-- PRBS_LOCK_LOST (R386). The PRBS checker sees 32 or more errors in 256 bits, loses lock and seeds itself again. -/
  | prbsLockLost (lane : Nat)
  /-- PRBS_ERROR (R386). A locked PRBS checker finds an error, counts it and raises LANE_PRBS_ERR at the first error after a MODE write. -/
  | prbsError (lane : Nat)
  /-- LANE_TEST_MODE_WRITE (R385). A write of LANE_TEST.MODE puts the lane into a test mode or returns it to deep low power, and clears the PRBS counters. -/
  | laneTestModeWrite (lane : Nat) (value : Nat)
  /-- STEP_TX_SWITCH (R379). A Crinus lane finishes sending its 16 STEP blocks and switches its transmitter to TARGET. -/
  | stepTxSwitch (lane : Nat)
  /-- STEP_RX_TIMEOUT (R379). 16 block times after its first STEP block a receiver that missed COUNT 0 switches to TARGET. -/
  | stepRxTimeout (lane : Nat)
  /-- CRL_FRAME_BOUNDARY (R423). A Crinus sender finishes a frame and takes the next frame from the highest non-empty class, subject to credits. -/
  | crlFrameBoundary (link : Nat)
  /-- AUD_ASRC_LOCK (R462). An ASRC instance's ratio estimate has stayed within 1 ppm for 200 ms and the instance becomes locked. -/
  | audAsrcLock (instance_ : Nat) (ratio : Nat)
  /-- EVQ_STAGING_UE (R248). An uncorrectable error occurs in the event queue or image staging memory and a package fault is declared. -/
  | evqStagingUe
  deriving DecidableEq, Repr

end Sys2Proof
end

