-- ==== Sys2Proof/WellFormed.lean ====
section
/-!
DEFINITION. Which commands name hardware that exists and values that fit their registers: the counts of R8's tables (lanes
0–127, ports 0–52, reels 0–127 and so on) and the widths of the registers written. A command that is not well formed
cannot arise in the block.
-/
namespace Sys2Proof

/-- A command names hardware that exists, and its values fit. -/
def Instr.wf : Instr → Bool
  | .tickEdge _ => true
  | .cueSheetComplete _ => true
  | .damperRelax => true
  | .resync => true
  | .tickSourceEdge => true
  | .tickSrcLost => true
  | .cutOff => true
  | .clapArm => true
  | .clapDiscard => true
  | .registerWrite src offset value be => src < 161 && offset < 0x1000000 && offset % 4 == 0 && value < 2^32 && be < 16
  | .bandStart unit => unit < 32
  | .bandComplete unit => unit < 32
  | .bandDeadline flue band => flue < 24 && band < 72
  | .frameStart flue => flue < 24
  | .canarySigned unit sig => unit < 32 && sig < 2^32
  | .canaryDeadline unit => unit < 32
  | .directUnderrun flue => flue < 24
  | .voteSignatureArrival flue _ unit sig => flue < 24 && unit < 32 && sig < 2^32
  | .voteCutoff flue band => flue < 24 && band < 72
  | .imgGo => true
  | .imgCancel => true
  | .imgReadDone _ fail => (match fail with | none => true | some d => decide (d < 2^22))
  | .imgVerifyDone => true
  | .imgValidateDone => true
  | .imgApplyStepDone _ _ => true
  | .imgIdleTimeout => true
  | .fuseProgramSlot0 => true
  | .fuseProgramSlot1 => true
  | .fuseRevokeSlot0 => true
  | .fuseRevokeSlot1 => true
  | .fuseAdvanceSvn => true
  | .fuseBlowInjForbid => true
  | .captureFrameComplete sink _ => sink < 16
  | .sinkFrameStart sink _ => sink < 16
  | .sentinelEvaluation flue _ => flue < 24
  | .glassUnconfirmed flue => flue < 24
  | .wardenProposal core index _ _ => core < 3 && index < 256
  | .voteWindowClose => true
  | .handlerStageEnd _ => true
  | .unitStall unit => unit < 32
  | .cacheUe cluster => cluster < 8
  | .sigEngine cluster => cluster < 8
  | .unlocalised cluster => cluster < 8
  | .dieClock die => die < 2
  | .flueOut flue => flue < 24
  | .faultHandlingStart => true
  | .faultActionExecuted => true
  | .faultRecordTimeout => true
  | .regionResetCheck region => region < 4
  | .injRxCfgWrite path value => path < 12 && value < 2^32
  | .injVoterWrite value => value < 2^32
  | .injDramWrite value => value < 2^32
  | .injLaneWrite value => value < 2^32
  | .injDone kind => kind < 2
  | .tempSample sensor _ => sensor < 24
  | .thermClear => true
  | .thermtrip sensor => sensor < 24
  | .sensorFail sensor => sensor < 24
  | .rtpPacketReceived reel _ => reel < 128
  | .accessUnitJbExpiry reel => reel < 128
  | .decodePictureDone engine _ => engine < 24
  | .firTimer reel => reel < 128
  | .decEngineReset engine => engine < 24
  | .decSilent reel => reel < 128
  | .rtcpSrReceived reel _ _ _ _ => reel < 128
  | .decSrLost reel => reel < 128
  | .rtcpRrTimer reel => reel < 128
  | .encodeFrameDone engine _ => engine < 24
  | .encIdrReq reel => reel < 128
  | .rtcpFeedbackReceived reel => reel < 128
  | .encSrTimer reel => reel < 128
  | .dramRead src _ _ => src < 161
  | .dramWrite src _ _ => src < 161
  | .scrubRead channel _ _ => channel < 24
  | .refreshInterval channel _ => channel < 24
  | .forcedRefresh channel => channel < 24
  | .mr4Poll channel code _ _ => channel < 24 && code < 3
  | .zqLatch channel => channel < 24
  | .hrtPanic port fill => port < 64 && fill ≤ (if port < 40 then 65536 else 16384)
  | .trainWindowOpen => true
  | .retrainStepDone _ => true
  | .mtxFence src => src < 161
  | .fenceComplete src => src < 161
  | .accessCheck access => access.src < 161 && access.addr < 2^39 && (if access.write then access.bytes.length != 0 else access.len != 0)
  | .mpuUpdGo unit index => unit < 3 && index < 256
  | .mpuDrained unit => unit < 3
  | .mtxLinkErr link _ src _ _ => link < 3 && src < 161
  | .trainingBlockReceived lane _ => lane < 128
  | .pllRelockDone lane => lane < 128
  | .laneTrainingBlock lane _ => lane < 128
  | .adaptationDone lane adapt => lane < 128 && adapt.peakEyes.length == 16 && adapt.sweepEyes.length == 4 && adapt.dfe.length == 5 && adapt.dcGain < 8
  | .laneTrainTimeout port => 49 ≤ port && port < 53
  | .laneRetryRestart port => 49 ≤ port && port < 53
  | .alignmentMarker lane _ _ _ => lane < 128
  | .laneDeskewFail port => 49 ≤ port && port < 53
  | .laneAlignLost lane => lane < 128
  | .laneRealignTimeout lane => lane < 128
  | .laneDeepLpEntry lane => lane < 128
  | .laneWakeDone lane => lane < 128
  | .laneEyeRefresh lane v h => lane < 128 && v < 256 && h ≤ 64
  | .laneSurvey lane => lane < 128
  | .laneErrOne lane => lane < 128
  | .auxRequest sink _ => sink < 16
  | .sinkLinkLoss sink kind => sink < 16 && kind < 3
  | .hpdConnect port => 16 ≤ port && port < 40
  | .hpdIrq port _ => 16 ≤ port && port < 40
  | .hpdDisconnect port => 16 ≤ port && port < 40
  | .portCapsRead port _ => 16 ≤ port && port < 40
  | .sourceTrainingDone port _ _ => 16 ≤ port && port < 40
  | .ethFrameReceived port _ _ => 40 ≤ port && port < 48
  | .ethNextHopTimeout port => 40 ≤ port && port < 48
  | .neighbourLapse port => 40 ≤ port && port < 48
  | .membershipReportRepeat port => 40 ≤ port && port < 48
  | .portDown port => 40 ≤ port && port < 48
  | .portUp port rate lanes => (port < 16 || (40 ≤ port && port ≤ 48)) && rate < 15 && (lanes == 1 || lanes == 2 || lanes == 4)
  | .portPcieReset kind => kind < 3
  | .crlFrameBad link _ => link < 4
  | .crlCreditReceived link _ => link < 4
  | .crlNakReceived link _ => link < 4
  | .crlRetryTimeout link => link < 4
  | .crlTileExpiry link => link < 4
  | .crlLayerReceived link _ => link < 4
  | .crlTileReceived link _ => link < 4
  | .importCut => true
  | .crlEdgeReceived link _ => link < 4
  | .crlClaimReceived link _ => link < 4
  | .crlMasterChange => true
  | .crlDelayReqReceived link _ => link < 4
  | .crlDelayRespReceived link _ => link < 4
  | .crlDelayTimer link => link < 4
  | .crlPeerFault link _ => link < 4
  | .crlRegGo => true
  | .crlRegRequestReceived link _ => link < 4
  | .crlRegResponseReceived link _ => link < 4
  | .crlRegTimeout => true
  | .tmbIncIntWrite value => value < 2^32
  | .tmbStep => true
  | .tmbSnap => true
  | .ptpTxWrWrite value => value < 2^32
  | .tmoEnable output value => output < 16 && value < 2^32
  | .tmoPulseStart output => output < 16
  | .tmoPulseEnd output => output < 16
  | .tmcEdge capture _ => capture < 8
  | .tmcTsRead capture => capture < 8
  | .apllLock pll => pll < 2
  | .tmbApllUnlock pll => pll < 2
  | .audFrameDue route => route < 32
  | .audSourceSample input => input.kind < 6 && input.index < 64
  | .audNonAudioEnd kind index => kind < 6 && index < 64
  | .audRefLost group => group < 3
  | .audRefLocked group hz => group < 3 && hz < 2^18
  | .audAsrcUnlock instance_ ratio => instance_ < 16 && ratio < 2^32
  | .slotMaskWrite port value => port < 4 && value < 2^32
  | .audLoad port _ => port < 8
  | .tchScanDue panel => panel < 4
  | .tchScanDone panel _ => panel < 4
  | .tchTest panel => panel < 4
  | .tchTestDone panel _ _ => panel < 4
  | .tchSurvey panel => panel < 4
  | .tchSurveyDone panel _ _ => panel < 4
  | .chkRestart unit => unit < 16
  | .porstAssert => true
  | .porstRelease bootsel => bootsel < 4
  | .warmRstN => true
  | .pwrReset value => value < 2^32
  | .domainSwitchDone domain => domain < 17
  | .domainPowerTimeout domain => domain < 17
  | .supplyMonitorSample monitor mv => monitor < 32 && mv < 65536
  | .wakePendingClear => true
  | .glbEvqRdWrite value => value < 2^32
  | .intPendClear register value => register < 2 && value < 2^32
  | .prbsLock lane => lane < 128
  | .prbsLockLost lane => lane < 128
  | .prbsError lane => lane < 128
  | .laneTestModeWrite lane value => lane < 128 && value < 2^32
  | .stepTxSwitch lane => lane < 128
  | .stepRxTimeout lane => lane < 128
  | .crlFrameBoundary link => link < 4
  | .audAsrcLock instance_ ratio => instance_ < 16 && ratio < 2^32
  | .evqStagingUe => true

/-- A well-formed command, as a proposition. -/
abbrev WellFormed (i : Instr) : Prop := i.wf = true

end Sys2Proof
end

