-- ==== Sys2Proof/Decode.lean ====
section
/-!
DEFINITION. The command that a word spells by the bits of the spec's table. The table gives none of its rows any bits, so no
word spells a command.
-/
namespace Sys2Proof

/-- The command whose bits are `w`, of `nbits` bits: none, since no row of the table has bits. -/
def decodeTableWord (nbits w : Nat) : Option Instr :=
  match nbits, w with
  | _, _ => none

end Sys2Proof
end

