-- ==== Sys2Proof/Config.lean ====
section
/-!
DEFINITION. What the spec leaves open as a value: constants without a body, so that nothing can evaluate them and no proof
can rest on a value of them.
-/
namespace Sys2Proof

/-- The `n`-th free value: a value that the spec says an operation produces without saying which (log 7). -/
opaque Config.freeValue : Nat → BitVec 32

/-- The expected signature of canary variant `v`, 0 to 15, which the spec keeps in a ROM without giving it (R42; log 15). -/
opaque Config.canaryRom (v : Nat) : BitVec 32

/-- PRE in bits [3:0] and POST from bit 4 on of 128b/132b FFE preset `q`, which the spec takes from DP 2.1 (R403; log 21). -/
opaque Config.dpPreset (q : Nat) : BitVec 32

/-- Which of the two whole numbers next to the line from `a` to `b` the interpolation of R290 gives at `d` of `n` lines, where the
line meets neither (log 109). -/
opaque Config.interpolation (a b d n : Nat) : BitVec 1

/-- Byte `i` of the map area of a picture buffer's slot for a picture record and the marks of its blocks, whose layout the spec
leaves to the implementation (R278, R293; log 110). -/
opaque Config.mapByte (record marks : List Nat) (i : Nat) : BitVec 8

/-- The bits that a vector costs in a block of side `side` beside the vectors `near` of its neighbours: the entropy coder's, which the
spec leaves to the standards (R308; log 114). -/
opaque Config.vectorBits (codec side : Nat) (v : Int × Int) (near : List (Int × Int)) : BitVec 16

/-- Byte `i` of the motion area of an encode reel's slot, whose layout the spec leaves to the implementation (R302; log 110). -/
opaque Config.motionByte (vectors : List (Option (Int × Int))) (i : Nat) : BitVec 8

end Sys2Proof
end

