-- ==== Sys2Proof/Machine/State.lean ====
section
/-!
DEFINITION. The state of the block: every register of the control aperture, live, shadow and seal, in three sparse tables,
and beside them, block by block, every piece of state that the spec names and no register holds. The state is plain data.
-/
namespace Sys2Proof.Machine

/-- The reasons a command stops with. -/
inductive Fault where
  /-- Raised by `checked` for a command that names hardware the spec does not have (lane 130, port 60) or a value wider than
  its register: no such happening can arise in the block. Safe: the model stops where the hardware has nothing to do. -/
  | noSuchObject
  deriving DecidableEq, Repr

/-- The reasons a command is refused with. -/
inductive Refusal where
  /-- Raised by an arm of `exec` for a command whose meaning is not written. Safe: the model does nothing. -/
  | notModelled (mnemonic : String)
  deriving DecidableEq, Repr

/-! ### Timebase (R439 to R453) -/

/-- A timed output (R448): the next instant it starts a pulse, whether a pulse is in progress, whether a one-shot fired. -/
structure TmoState where
  next : Option Nat := none
  inPulse : Bool := false
  fired : Bool := false
  deriving DecidableEq, Repr

/-- One entry of a capture queue (R451). -/
structure TmcEntry where
  sec : Nat
  ns : Nat
  falling : Bool
  stepped : Bool
  deriving DecidableEq, Repr

/-- A timed capture: its queue of at most eight entries, oldest first, and the step count at the last entry. -/
structure TmcState where
  queue : List TmcEntry := []
  lastSteps : Option Nat := none
  deriving DecidableEq, Repr

/-- The timebase (R439): 48-bit seconds, 30-bit nanoseconds, 32-bit fraction; the fraction written last (R440); the steps
made since PORST_N, unsaturated, and their sum in ns; the timed outputs and captures. TMB_INC in force is held in its registers. -/
structure TimeState where
  sec : Nat := 0
  ns : Nat := 0
  frac : Nat := 0
  heldFrac : Nat := 0
  steps : Nat := 0
  offset : Int := 0
  tmo : Tab TmoState := []
  tmc : Tab TmcState := []
  deriving DecidableEq, Repr

/-! ### Event queue (R530 to R535) -/

/-- What the event queue keeps beside its registers and its window: the count of records written (SEQ), the events dropped
since the last EVQ_LOST, the (code, object) pairs of the once-per-tick rules, the events of the present command (stamp, code,
object) that have still to enter the queue, those that have entered it last and their cycle (step-free ns and TICK_COUNT; R533),
and the MSI-X structures of the endpoint (R411): masked vectors, their pending bits, and the function mask. -/
structure EvqState where
  seq : Nat := 0
  lostSince : Nat := 0
  raisedTick : List (Nat × Nat) := []
  cycle : List (Nat × Nat × Nat) := []
  entered : List (Nat × Nat × Nat) := []
  enteredAt : Nat × Nat := (0, 0)
  msixEnabled : Bool := false
  msixMasked : List Nat := List.range 64
  msixPending : List Nat := []
  deriving DecidableEq, Repr

/-! ### Memory, matrix, protection (R325 to R369) -/

/-- A partition record of the memory partitions section (R325). -/
structure Partition where
  base : Nat
  size : Nat
  mask : Nat
  localBase : Nat
  granule : Nat
  use : Nat
  tag : Nat
  deriving DecidableEq, Repr

/-- The errors a line of DRAM holds (R329, R330): bit errors in each half, the mark of a merged poisoned write, and whether
they were injected. -/
structure LineErr where
  half0 : Nat := 0
  half1 : Nat := 0
  poison : Bool := false
  injected : Bool := false
  deriving DecidableEq, Repr

/-- A permitted DRAM access on its way, with the epoch of its check and the colour check asked for (R357, R364), when it entered the
matrix, and its place in the order of arrival at its controller, one more than the number before it, with the time; 0 while it is in
the matrix (R335, R353). -/
structure Outstanding where
  access : Access
  epoch : Nat
  colour : Bool
  sinceNs : Nat := 0
  arrival : Nat := 0
  arrivedNs : Nat := 0
  deriving DecidableEq, Repr

/-- A rule change that waits for older accesses (R364): `object` is the region, or 0xFF for a reload. -/
structure Drain where
  unit : Nat
  object : Nat
  epoch : Nat
  ranges : List (Nat × Nat)
  goNs : Nat
  deriving DecidableEq, Repr

/-- A memory channel (R333, R339 to R344): owed refreshes by bank, the hot report of MR4, the oscillator drift, the
retraining step reached, when it was last trained, the scrubber's line, the counts of the present tick, one more than the open row of
each bank (R334), and whether a batch of writes is being drained (R335). -/
structure ChanState where
  owed : List Nat := []
  hot : Bool := false
  driftPs : Nat := 0
  trainStep : Nat := 0
  trainedNs : Nat := 0
  scrubLine : Nat := 0
  ceTick : Nat := 0
  rdBytes : Nat := 0
  wrBytes : Nat := 0
  panicNs : Nat := 0
  postponed : Nat := 0
  openRows : Tab Nat := []
  draining : Bool := false
  deriving DecidableEq, Repr

/-- The hearth, the on-die SRAMs and the matrix. `bytes` is keyed by 39-bit hearth-layer address (R349); `arrivals` counts the requests
that have reached a controller, and `lastServed` holds the source that the matrix served last towards each subsystem (R353). -/
structure MemState where
  bytes : Tab Byte := []
  lines : Tab LineErr := []
  partitions : List Partition := []
  keys : List Nat := []
  density : List Nat := []
  outstanding : List Outstanding := []
  arrivals : Nat := 0
  lastServed : Tab Nat := []
  fences : List Nat := []
  drains : List Drain := []
  resends : Tab Nat := []
  rtFill : Tab Nat := []
  chans : Tab ChanState := []
  window : Option Nat := none
  windowThisTick : Bool := false
  deriving DecidableEq, Repr

/-! ### Audio (R456 to R472) -/

/-- A sample frame of a source with its capture time (R463) and, for one of an AES67 packet, when it arrived (R472). -/
structure AudSample where
  values : List Nat
  capNs : Nat
  arrivedNs : Option Nat := none
  deriving DecidableEq, Repr

/-- A route (R457 to R466): its waiting samples, the last frame sent, the last due and capture times, whether the present
realignment has dropped or inserted, the frames sent in this tick, the converter's phase, the AES67 packet being filled. -/
structure RouteState where
  queue : List AudSample := []
  last : Option (List Nat) := none
  lastDueNs : Option Nat := none
  lastCapNs : Option Nat := none
  touched : Bool := false
  framesThisTick : Nat := 0
  phase : Nat := 0
  packet : List (Nat × List Nat) := []
  deriving DecidableEq, Repr

/-- The non-audio conditions of a source (R468), with the frames since the last preamble and the last word of each channel pair. -/
structure NonAudio where
  bit : Bool := false
  coded : Bool := false
  burst : Bool := false
  since : Nat := 0
  lastWords : List Nat := []
  deriving DecidableEq, Repr

/-- A TDM port's slot mask on its way: the mask written and when, the slots newly enabled in this frame, the last frame
boundary (R467). -/
structure TdmState where
  pend : Option (Nat × Nat) := none
  newly : Nat := 0
  boundaryNs : Option Nat := none
  deriving DecidableEq, Repr

/-- The audio block: its routes, sources and TDM ports, and when a packet of each AES67 receive stream last came. -/
structure AudioState where
  routes : Tab RouteState := []
  nonAudio : Tab NonAudio := []
  tdm : Tab TdmState := []
  aesNs : Tab Nat := []
  deriving DecidableEq, Repr

/-! ### Touch (R475 to R489) -/

/-- A contact (R483): id, the peak's line and channel, its centroid in 1/256 electrode, its flue pixel, peak delta, when it
went down, the event of the last scan (0 DOWN, 1 MOVE, 2 UP), LONG_HOLD. -/
structure Contact where
  id : Nat
  line : Nat
  chan : Nat
  u : Nat
  v : Nat
  x : Nat
  y : Nat
  peak : Nat
  downNs : Nat
  event : Nat
  long : Bool
  deriving DecidableEq, Repr

/-- A desk panel of the sense map (R476) and its scanning: the scan under way and the next of the tick, the low-power slot,
the scans toward the baselines, when the provisional period last began, the pulses made up to a time (R478), and the thresholds
and the low-power mode of the scan under way (R490). -/
structure PanelState where
  first : Nat := 0
  count : Nat := 0
  wakeMask : Nat := 0
  scanJ : Nat := 0
  nextScan : Nat := 0
  lpSlot : Nat := 0
  baseScans : Nat := 0
  provNs : Nat := 0
  scanNs : Nat := 0
  pulses : Nat := 0
  thr : Nat := 0
  scanLow : Bool := false
  deriving DecidableEq, Repr

/-- An overlay's axes (R476), its contacts, and the last contact released with the time of its release (R488). -/
structure OverlayState where
  used : Bool := false
  swap : Bool := false
  mirrorX : Bool := false
  mirrorY : Bool := false
  contacts : List Contact := []
  lastTap : Option (Contact × Nat) := none
  deriving DecidableEq, Repr

/-- An electrode profile (R476); capacitances in 0.1 pF, tolerance in per cent. -/
structure Profile where
  used : Bool := false
  drive : Nat := 0
  sense : Nat := 0
  meanDrive : Nat := 0
  meanSense : Nat := 0
  tol : Nat := 0
  deriving DecidableEq, Repr

/-- The sense front end: panels, overlays, profiles; raw counts, baselines (8 fractional bits) and the starts of anti-touch
runs (time + 1, 0 for none) by node (R480, R481). -/
structure TouchState where
  panels : Tab PanelState := []
  overlays : Tab OverlayState := []
  profiles : Tab Profile := []
  raw : Tab Nat := []
  base : Tab Nat := []
  anti : Tab Nat := []
  deriving DecidableEq, Repr

/-! ### Sources, sheets, bands (R90 to R99, R120 to R150, R155, R166) -/

/-- A complete frame of a source (R91): a serial number that tells frames apart, its stamp with the ancient flag (R155), its
size, its format as R105 codes it, its pixels (`bytes` in that format's layout with lines unpadded, or kept in hearth memory
at `place`, an address and a pitch, with the chroma plane at `chroma` where it does not follow directly, R278), the untrusted and the concealed 16 × 16 blocks (R161), and the concealment stamp with
its flag (R294). -/
structure Frame where
  serial : Nat := 0
  stamp : Nat := 0
  ancient : Bool := false
  w : Nat := 0
  h : Nat := 0
  fmt : Nat := 0
  place : Option (Nat × Nat) := none
  chroma : Option Nat := none
  bytes : List Byte := []
  untrusted : List Nat := []
  concealed : List Nat := []
  cstamp : Option (Nat × Bool) := none
  deriving DecidableEq, Repr

/-- A source of layers: its newest complete frame, the one before it and when the newest was completed (R91), the stamp of a
sink frame being captured (R95) and when its first pixel came, the sink's last starts of active video (R111), newest first, and how many have come since the
last underrun of the direct path (R146); the serial numbers of the frames in the five buffers of a sink's capture ring, 0 in one
never written, and the buffer that the frame being captured goes into (R93); an import slot's ring likewise (R429). -/
structure SourceState where
  newest : Option Frame := none
  prior : Option Frame := none
  doneNs : Nat := 0
  filling : Option Nat := none
  fillNs : Nat := 0
  starts : List Nat := []
  sinceUnder : Nat := 0
  ring : List Nat := [0, 0, 0, 0, 0]
  writing : Nat := 0
  deriving DecidableEq, Repr

/-- What a layer keeps from edge to edge: the validity of the last commit's check (R113), the source it names, its
host-surface frame (R115), the frame it bound before (serial, size), the state of its DIRECT request (0 none, 1 honoured,
2 fallen back; R111), and the ember and ahead conditions of the previous edge (R175). -/
structure LayerState where
  invalid : Option Nat := none
  src : Nat := 0
  host : Option Frame := none
  bound : Option (Nat × Nat × Nat) := none
  direct : Nat := 0
  overPrev : Bool := false
  untrustPrev : Bool := false
  aheadPrev : Bool := false
  uncovered : Bool := false
  deriving DecidableEq, Repr

/-- An enabled, valid layer of a sheet with the frame it binds, if any (R92, R94). -/
structure SheetLayer where
  num : Nat
  frame : Option Frame
  deriving DecidableEq, Repr

/-- A probe that the cue processors signed for a sheet (R178): probe entry, signature, the new frame's stamp, the source and
serial of the frame, whether the rectangle lies wholly outside it (R179), and whether a poisoned line was read (R331). -/
structure ProbeSign where
  probe : Nat
  sig : Nat
  stamp : Nat
  key : Nat
  serial : Nat
  outside : Bool
  bad : Bool := false
  deriving DecidableEq, Repr

/-- A cue sheet (R25): the edge it is built from, the registers committed there, the layers and their bindings, the unit of
each band, the probes signed, the flues rested and announcing (R268), whether non-critical signatures, encoding and scrubbing are
deferred (R263), the reels above level 0 with their levels (R264), for each flue the layer whose DIRECT request is honoured, and the bands it gives to new units (R56). -/
structure Sheet where
  tick : Nat := 0
  regs : Tab Word := []
  layers : List SheetLayer := []
  bandUnits : Tab Nat := []
  probes : List ProbeSign := []
  rested : Nat := 0
  announce : Nat := 0
  deferSig : Bool := false
  deferEnc : Bool := false
  deferScrub : Bool := false
  levels : List (Nat × Nat) := []
  direct : List (Nat × Nat) := []
  redist : List Nat := []
  deriving DecidableEq, Repr

/-- How far a band of a frame has come: waiting, being composed, composed, being scanned from the band buffer, held by a
fault before its deadline, scanned from the held copy. -/
inductive BandPhase where
  | waiting | composing | composed | scanning | faultHeld | held
  deriving DecidableEq, Repr

/-- A member item of a band (R195): rectangle, member (0 for A, 1 for B, 2 for C), and how far it has come. -/
structure MemberItem where
  rect : Nat
  member : Nat
  phase : BandPhase := .waiting
  deriving DecidableEq, Repr

/-- A band of a frame: its phase, the unit that composes or composed it, its output codes by tile (red, green, blue packed in
12-bit fields, raster order), whether the held copy has it, whether its vote cut-off has passed, and its member items. -/
structure BandRun where
  phase : BandPhase := .waiting
  unit : Nat := 0xFF
  tiles : Tab (List Nat) := []
  written : Bool := false
  cut : Bool := false
  items : List MemberItem := []
  deriving DecidableEq, Repr

/-- The evaluation of one tile (R159 to R164): the drawn and base states as the tile table encodes them, the recorded stamp,
its ancient flag, class and layer, the entries, the causes as bits of word 3, the row of R162 that decided, the layers over
their deadlines with the ages they contribute, and the layers through which the tile is untrusted. -/
structure TileEval where
  state : Nat := 0
  base : Nat := 0
  stamp : Nat := 0
  ancient : Bool := false
  dc : Nat := 0
  layer : Nat := 0
  entries : Nat := 0
  causes : Nat := 0
  row : Nat := 1
  overs : List (Nat × Nat) := []
  untrusts : List Nat := []
  ages : List (Nat × Nat) := []
  deriving DecidableEq, Repr

/-- The age of a layer at an edge with what it comes from (R158): its effective stamp, whether a stamp that it depends on lies
ahead (R154) and whether the effective one does (R174), whether a probe set it; `limit` is the class maximum, none for DC15. -/
structure LayerAge where
  num : Nat
  age : Nat
  stamp : Nat := 0
  ancient : Bool := false
  ahead : Bool := false
  effAhead : Bool := false
  probeSet : Bool := false
  bound : Bool := true
  limit : Option Nat
  deriving DecidableEq, Repr

/-- A signature delivered for a critical tile: the member and its unit, the signature as the voter received it, whether
injection corrupted it (R250), and the slot of the member's plane of the vote store that holds the tile (R196). -/
structure VoteSig where
  member : Nat
  unit : Nat
  sig : Nat
  injected : Bool := false
  slot : Option Nat := none
  deriving DecidableEq, Repr

/-- The vote on a critical tile in a frame (R199): the signatures received, in order, and the decision once made (`some none`
is FAIL). -/
structure TileVote where
  sigs : List VoteSig := []
  decision : Option (Option Nat) := none
  deriving DecidableEq, Repr

/-- A frame of a flue (R120): its tick and edge time, its place in the tick on a double-rate flue, its start and period, its
sheet, whether it has started, the held-copy buffer it writes, its bands, its votes, the members that its rectangles had at
its start (R199), the rectangles lost at its start (R244), the tiles decided FAIL by rectangle, whether its direct pixels
underran and the tiles held for that (R146), the layers' ages at its edge, which a later revision uses again (R153, R165), the
signatures recorded by tile (R172), the expected-signature entries compared (R209), and whether it has completed as a source
(R91). -/
structure FrameRun where
  serial : Nat
  tick : Nat
  now : Nat
  index : Nat
  startNs : Nat
  periodNs : Nat
  sheet : Sheet
  dark : Bool := false
  tiles : List TileEval := []
  badges : List (Nat × Nat × Nat) := []
  started : Bool := false
  buffer : Option Nat := none
  bands : List BandRun := []
  votes : Tab TileVote := []
  members : List (Nat × List Nat) := []
  lost : List Nat := []
  fails : Tab Nat := []
  underrun : Bool := false
  underTiles : List Nat := []
  ages : List LayerAge := []
  sigs : Tab Nat := []
  compared : List Nat := []
  complete : Bool := false
  deriving DecidableEq, Repr

/-- A flue: the frames begun and not yet scanned out, oldest first; the ring of held-copy buffers, newest written first, with
the complete bands of each (R148, R150) and the signatures of its tiles (by buffer × 65,536 + tile, R172); whether the Warden
has darkened it; the
sentinel's chips sent with their times, newest first, the start of its confirmation interval and whether the last confirming
evaluation was slow (R181 to R187); the rectangles with a failed tile in the last frame scanned out; by band one more than the
tick of the last frame in which it was held and drawn as ember by row 5 (R175). -/
structure FlueState where
  frames : List FrameRun := []
  ring : List Nat := []
  bufBands : Tab Nat := []
  bufSigs : Tab Nat := []
  dark : Bool := false
  chips : List (Nat × Nat) := []
  seekTick : Nat := 0
  slow : Bool := false
  failPrev : List Nat := []
  heldEmber : Tab Nat := []
  deriving DecidableEq, Repr

/-- A unit's present item: a band of a frame, or a member item of a rectangle in it (R195). -/
structure WorkItem where
  flue : Nat
  serial : Nat
  band : Nat
  rect : Option Nat
  deriving DecidableEq, Repr

/-- A unit (R40 to R43, R57, R206): withdrawn, its cue stopped by a fault, held idle after a region reset, its present item,
the canary of this tick, the ticks in which it was outvoted, the last tick it was late in. -/
structure UnitState where
  withdrawn : Bool := false
  stopped : Bool := false
  rejoining : Bool := false
  work : Option WorkItem := none
  canaryDone : Bool := false
  canaryFailed : Bool := false
  outTicks : List Nat := []
  lateTick : Option Nat := none
  deriving DecidableEq, Repr

/-- A critical rectangle: lost under R244, with the index of its open record; forced to ember by an integrator handler's action
on another record, with that record's index (R211). -/
structure RectState where
  lost : Bool := false
  record : Option Nat := none
  forced : Option Nat := none
  deriving DecidableEq, Repr

/-- Composition: the units, the band assignment in force by flue × 128 + band (R554, R55), the reserve, the sources, layers,
flues, rectangles, the source and serial each probe last signed, the probes shared between sources (R179), the last result of each expected-signature entry (R210),
the bands that lack a unit until a sheet redistributes them (R56), the serial number of the next frame. -/
structure CompState where
  units : Tab UnitState := []
  bandUnits : Tab Nat := []
  reserve : Nat := 0
  sources : Tab SourceState := []
  layers : Tab LayerState := []
  flues : Tab FlueState := []
  rects : Tab RectState := []
  probeSigned : Tab (Option (Nat × Nat)) := []
  probeShared : List Nat := []
  expLast : Tab Nat := []
  redistribute : List Nat := []
  serial : Nat := 1
  deriving DecidableEq, Repr

/-! ### Codec engines and reels (R276 to R321) -/

/-- An access unit (R286): its RTP timestamp, the extended sequence numbers received with their payloads, the marker's, the time of
its first received packet, the parameter sets it brings by sequence number and the id its slices name, the parameters that it is
decoded under once it has been taken, and its stamp (R96). -/
structure AccessUnit where
  ts : Nat
  seqs : List Nat := []
  data : List (Nat × List Byte) := []
  marker : Option Nat := none
  firstNs : Nat
  sets : List (Nat × Nat × Option AuInfo) := []
  uses : Nat := 0
  info : Option AuInfo := none
  stamp : Nat := 0
  deriving DecidableEq, Repr

/-- The part of a reel's context that an engine saves and restores (R280, R283): the parameter sets by id, and the reference
pictures by name. -/
structure ReelContext where
  sets : Tab AuInfo := []
  refs : List (Nat × Frame) := []
  deriving DecidableEq, Repr

/-- A decode reel (R278 to R298): started by a commit under R300 and when; the SSRC taken; the highest extended sequence
number; the access units made ready lately (timestamp and last sequence number, newest first); access units being collected
and those ready, in decode order; the pictures decoded and not yet given out with their output order; the most recent picture
in decode order; when a packet was last accepted; the last sender report (NTP field, RTP timestamp, arrival) and the address and port it came from, whether its loss
has been reported, and when the last receiver report went out; whether the last mapped stamp lay ahead; whether an intra
picture is awaited, and whether it is under R297; whether a picture has completed; the damage episode's start; the times of
the last PLI and FIR, the FIR sequence number, and whether the episode has raised its PLI event; the context and its last saved
copy (R278, R283, R289, R291); the sequence numbers missing from units handed on, and how many packets are lost (R286). -/
structure ReelState where
  up : Bool := false
  upNs : Nat := 0
  ssrc : Option Nat := none
  highSeq : Option Nat := none
  closed : List (Nat × Nat) := []
  open_ : List AccessUnit := []
  ready : List AccessUnit := []
  dpb : List (Nat × Frame) := []
  last : Option Frame := none
  acceptedNs : Nat := 0
  sr : Option (Nat × Nat × Nat) := none
  srFrom : Nat × Nat := (0, 0)
  srLost : Bool := false
  rrNs : Nat := 0
  ahead : Bool := false
  needIntra : Bool := false
  starting : Bool := false
  started : Bool := false
  episode : Option Nat := none
  pliNs : Option Nat := none
  firNs : Option Nat := none
  firSeq : Nat := 0
  pliRaised : Bool := false
  context : ReelContext := {}
  saved : ReelContext := {}
  missing : List Nat := []
  lost : Nat := 0
  deriving DecidableEq, Repr

/-- A due frame of an encode reel (R304, R318): its count k, the flue frame's serial and held-copy buffer, its start (timebase
time in ns), edge, oldest stamp, ember and held tiles, whether it was DARK throughout, when it became ready, the column and
row of its critical tiles (R312), and for each 16 × 16 block of its rectangle the dominant layer's number, X, Y, X0, Y0, crop
width, destination width, crop height and destination height, or nothing (R310). -/
structure EncFrame where
  k : Nat
  serial : Nat
  buffer : Nat
  startNs : Nat
  edgeWus : Nat
  oldest : Nat
  ember : Nat
  held : Nat
  dark : Bool
  readyNs : Nat
  crit : List (Nat × Nat) := []
  dominant : List (List Int) := []
  deriving DecidableEq, Repr

/-- An encode reel (R302 to R320): started by a commit under R321, counting from its next frame, the frames counted, the
due flue frames (serial, count), the ready frame, an IDR request, coded frames since the last IDR picture (none before the
first), the coded size of the reference and its dominant layers (R310), a frame lost from the ring, a gap from deferral, the mean QP and the SAD sums of the
last picture of each type, the carry of R313 in 1/2880000 bit, the time of the last sender report, and of the reference the slot that
holds its reconstruction (R302) and the vector of each 16 × 16 block in quarter-pel, none where it is intra (R309). -/
structure EncState where
  up : Bool := false
  count : Nat := 0
  due : List (Nat × Nat) := []
  ready : Option EncFrame := none
  idrReq : Bool := false
  sinceIdr : Option Nat := none
  refSize : Option (Nat × Nat) := none
  refDominant : List (List Int) := []
  lostBefore : Bool := false
  gap : Bool := false
  lastQpI : Option Nat := none
  lastQpP : Option Nat := none
  sadI : List Nat := []
  sadP : List Nat := []
  carry : Nat := 0
  srNs : Nat := 0
  refSlot : Nat := 0
  refVectors : List (Option (Int × Int)) := []
  deriving DecidableEq, Repr

/-- A codec engine (R279 to R283): whether it works, for which reel, since when, on which access unit or due frame (and
whether that codes as an IDR picture), the register words of the reel that were in force when it took the work, the samples to
code (R307) and the composition hints of each block (R310), and the reel whose context it holds. -/
structure EngineState where
  busy : Bool := false
  reel : Nat := 0
  sinceNs : Nat := 0
  au : Option AccessUnit := none
  enc : Option EncFrame := none
  idr : Bool := false
  words : List Nat := []
  samples : List Nat := []
  hints : List (List (Int × Int)) := []
  context : Option Nat := none
  deriving DecidableEq, Repr

/-- The codec engines, and the decode and encode reels (R276 to R320). -/
structure CodecState where
  engines : Tab EngineState := []
  reels : Tab ReelState := []
  encs : Tab EncState := []
  deriving DecidableEq, Repr

/-! ### Faults (R230 to R248) -/

/-- A proposal to the action port (R211): core, action, object. -/
structure Proposal where
  core : Nat
  action : Nat
  object : Nat
  deriving DecidableEq, Repr

/-- What a fault record keeps beside its four words: its sequence number in full (R231), the time and the tick of detection,
the action due (R230, raised by R243), whether R243 asks for it ahead of the queue, the units whose cues it has stopped and
whether its hold is open, the splits so far, the action and object voted and waiting to be executed, whether a RETRY may be
handled again (R237). -/
structure RecState where
  seqNo : Nat := 0
  tdNs : Nat := 0
  tick : Nat := 0
  action : Nat := 0
  urgent : Bool := false
  cues : List Nat := []
  holding : Bool := false
  splits : Nat := 0
  voted : Option (Nat × Nat) := none
  again : Bool := false
  deriving DecidableEq, Repr

/-- A vote window (R212): the fault-log index, when it opened, the proposals so far in order, and the action and object agreed
on. -/
structure VoteWindow where
  index : Nat
  openNs : Nat := 0
  props : List Proposal := []
  agreed : Option (Nat × Nat) := none
  deriving DecidableEq, Repr

/-- A region that RESET_REGION has reset (R246): its record, the time of the reset, whether it has power again. -/
structure RegionReset where
  region : Nat
  record : Nat
  atNs : Nat
  powered : Bool := false
  deriving DecidableEq, Repr

/-- The Warden: hidden parts of the records, the open ones, the count of records written, the cores out of the vote, the vote
windows open (oldest first), the regions reset and not yet back (R246), the regions that stay unpowered until warm reset. -/
structure FaultState where
  recs : Tab RecState := []
  openRecs : List Nat := []
  seq : Nat := 0
  coresOut : List Nat := []
  windows : List VoteWindow := []
  resets : List RegionReset := []
  deadRegions : List Nat := []
  deriving DecidableEq, Repr

/-! ### Damper (R256 to R272) -/

/-- An action of the damper (R261, R272): SOFT work deferred, all of it with the kinds raised to FIRM, reels lowered one level
(`strict` while STEP2_LIMIT was 0), the idle regions slowed, a flue rested. -/
inductive DmpAction where
  | defer
  | deferFirm
  | reduce (reels : List Nat) (strict : Bool)
  | clock
  | rest (flue : Nat)
  deriving DecidableEq, Repr

/-- An action in force, and whether an emergency took it (R271, R272). -/
structure DmpTaken where
  act : DmpAction
  emergency : Bool := false
  deriving DecidableEq, Repr

/-- The damper: actions in force, most recent first; edges still to wait; edges below the relaxation threshold in a row; cool
edges in a row (R272); by sensor the highest sample of the present tick, in 1/8 °C; by reel the largest age of its layers at
each of the last 64 edges, newest first, and of the access units of the last 64 ticks the tick, the stamp and the highest level
that decodes the picture; the reels to be raised at the next edge (R266); the flues whose announcing sheet is built from the
edge with that TICK_COUNT (R268). -/
structure DamperState where
  actions : List DmpTaken := []
  wait : Nat := 0
  relaxRun : Nat := 0
  coolRun : Nat := 0
  tickMax : Tab Int := []
  ages : Tab (List Nat) := []
  stamps : Tab (List (Nat × Nat × Nat)) := []
  correct : List Nat := []
  announcing : List (Nat × Nat) := []
  deriving DecidableEq, Repr

/-! ### Tick and clapper (R12 to R31, R217 to R229) -/

/-- The tick (R14 to R18, R452): the geometry is applied, so that edges may come; the last edge and the predicted next one in
ns of timebase time, with what the exact time of that edge lies past it, in units of 1/(2000 N) ns of the rate's N (R12);
where a tick that follows nothing counts its periods from, and how many it has made (R15); a resync
written and waiting for the next edge (R16); the arrivals of the selected source's latest edges, newest first, and how many
in a row met their prediction (R14); the edges since the source was selected without a lock (R15); the sheet being built,
whether it is complete, whether a cue sheet line was read
poisoned, the other lines that the cue processors read poisoned (R331), and how long it took (R26); the published sheet; whether the next edge is the first of all, and whether
every live value counts as committed at it (R18, R224). -/
structure TickState where
  geometryApplied : Bool := false
  lastEdgeNs : Nat := 0
  nextEdgeNs : Nat := 0
  edgeRest : Int := 0
  runBase : Nat := 0
  runCount : Nat := 0
  resyncPending : Bool := false
  sourceEdges : List Nat := []
  goodRun : Nat := 0
  selectedPeriods : Option Nat := none
  building : Option Sheet := none
  complete : Bool := false
  cueBad : Bool := false
  badReads : List Nat := []
  buildUs : Nat := 0
  current : Option Sheet := none
  firstEdge : Bool := true
  countAll : Bool := false
  deriving DecidableEq, Repr

/-- The clapper: an arm that waits for the coming edge, a late one for the edge after (R218), and the layers whose CONTENT has
been written since the seal (R221). -/
structure ClapState where
  armNext : Bool := false
  armAfter : Bool := false
  contentSince : List Nat := []
  deriving DecidableEq, Repr

/-! ### Fault injection (R249 to R255) -/

/-- The injection of the receive paths: the LFSR of each, and the frames that a reordering holds back, with how many frames
must still pass each and whether its check can pass, and when INJ_LANE was last written (R250, R251). -/
structure InjState where
  lfsr : Tab Nat := []
  heldBack : Tab (List (Nat × List Byte × Bool)) := []
  laneNs : Nat := 0
  deriving DecidableEq, Repr

/-! ### Power (R503 to R518) -/

/-- A supply monitor (R513): consecutive samples out of and in its window, and whether it is tripped. -/
structure MonState where
  out : Nat := 0
  inn : Nat := 0
  tripped : Bool := false
  deriving DecidableEq, Repr

/-- The power controller: PORST_N asserted; domains planned off and failed off; domains whose switch is closing, since
when, and those still to switch; the monitors; the wake action that waits for an edge; dies lost. -/
structure PowerState where
  porst : Bool := true
  plannedOff : List Nat := []
  failedOff : List Nat := []
  switching : List Nat := []
  switchNs : Tab Nat := []
  toSwitch : List Nat := []
  monitors : Tab MonState := []
  wakeMask : Option Nat := none
  diesLost : List Nat := []
  deriving DecidableEq, Repr

/-! ### Check units (R494 to R502) -/

/-- A check unit: the running value of an endless message (R494), and the last commits that set or cleared its ENABLE, newest first,
by step-free time and the value they left (R499). -/
structure CheckUnit where
  run : Nat := 0
  turns : List (Nat × Bool) := []
  deriving DecidableEq, Repr

/-! ### What leaves the device -/

/-- What the block sends out of the package or answers to a requester, in the order in which it does so. A destination on the
network is an IPv6 address, IPv4 as the IPv4-mapped one, followed by the UDP port where it has one. -/
inductive Sent where
  | msix (vector : Nat)
  | ethFrame (port : Nat) (frame : List Byte)
  | rtcpPli (reel dst udp : Nat)
  | rtcpFir (reel seq dst udp : Nat)
  | rtcpRr (reel dst udp : Nat)
  | rtcpSr (reel ntpSec ntpNs rtp : Nat)
  | rtpVideo (reel dscp ts : Nat) (net : List Nat) (payloads : List (List Byte))
  | readData (src addr : Nat) (bytes : List Byte) (poison : Bool)
  | writeError (src addr : Nat)
  | unsupportedRequest (src addr : Nat)
  | fenceDone (src : Nat)
  | zqLatch (channel : Nat)
  | dpFrame (port depth : Nat) (bt2020 : Bool) (pixels : List Byte)
  | dpAudio (flue : Nat) (frame : List Nat)
  | aes67 (stream dscp timestamp : Nat) (frames : List (List Nat))
  | iecFrame (port : Nat) (frame : List Nat) (validity : Bool) (status : List Byte)
  | tdmFrame (port first : Nat) (slots : List (Option Nat))
  | tdmWave (port : Nat) (frameSync : Option (List Bool)) (data : List (Nat × Option Bool))
  | qspiRead (command dummies length : Nat)
  | crinusFrame (link : Nat) (bytes : List Byte)
  | trainingBlocks (lane : Nat) (blocks : List (List Byte))
  | prbs (lane degree tap errExp : Nat)
  | crinusBlocks (link : Nat) (blocks : List (Nat × Nat × Nat))
  | auxReply (sink : Nat) (ack : Bool) (bytes : List Byte)
  | hpdIrq (sink : Nat)
  | bitFlip (lane : Nat)
  | readWord (src offset value : Nat)
  deriving DecidableEq, Repr

/-! ### Serial lanes (R370 to R391) -/

/-- What adaptation has kept of a lane's receiver (R376): PEAK, the DC gain, the five DFE taps in mV, the post-cursor of the
partner's transmitter (R387). -/
structure RxKept where
  peak : Nat := 0
  dcGain : Nat := 0
  dfe : List Int := []
  rpost : Nat := 0
  pre : Nat := 0
  deriving DecidableEq, Repr

/-- A lane: the valid training blocks in a row, the STATE it sends (1 SEEK, 2 READY, 3 STEP, 4 FAIL, 5 ADAPT; 0 none), the
READY blocks in a row, the partner's MAX_RATE, the TARGET, when the first STEP block came, whether transmitter and receiver
have switched to it, READY received at the target rate, the preset requested of the partner, what adaptation kept and
whether it has run since the lane last reached UP; the last marker's place in blocks and in UI, and when it came; when
alignment was lost; when the lane reached UP and when its wake began; a survey asked for; LANE_EYE_LOW already raised; a PRBS
error already raised since MODE was written, the bits checked before this lock and when it began; the pre-emphasis level or
preset that a sink requests (R398); the amplitude of a source's driver in mV differential peak-to-peak (R403). -/
structure LaneState where
  valid : Nat := 0
  sending : Nat := 0
  readyRun : Nat := 0
  peerMax : Nat := 0
  target : Nat := 0
  firstStepNs : Option Nat := none
  txAt : Bool := false
  rxAt : Bool := false
  readyIn : Bool := false
  presetReq : Nat := 0xFF
  kept : Option RxKept := none
  adapted : Bool := false
  marker : Option (Nat × Nat) := none
  markNs : Nat := 0
  lostNs : Option Nat := none
  upNs : Nat := 0
  wakeNs : Option Nat := none
  survey : Bool := false
  eyeLow : Bool := false
  prbsSeen : Bool := false
  prbsBits : Nat := 0
  lockNs : Option Nat := none
  adjust : Nat := 0
  amplitudeMv : Nat := 400
  deriving DecidableEq, Repr

/-! ### Ports (R392 to R415) -/

/-- An entry of an Ethernet port's neighbour cache (R406): IPv6 address (IPv4 as the mapped one), MAC address, last use. -/
structure Neighbour where
  addr : Nat
  mac : Nat
  usedNs : Nat
  deriving DecidableEq, Repr

/-- A packet that waits for its next hop (R406). -/
structure HeldPacket where
  hop : Nat
  packet : Sent
  sinceNs : Nat
  deriving DecidableEq, Repr

/-- A port. Crinus: the cap of R380 (0xF for none), ATTEMPT, when training failed, when the lanes switched, whether they have
been aligned since UP. Sink: HPD driven, the I2C segment and offset, the DPCD bytes that the source has written, the raster of
the stream, the frames it has been stable for, whether capture goes on, whether the stream was reported unsupported. Source:
HPD read, the rate being tried, the levels in use. Ethernet: neighbours, packets held, the groups joined, the reports that
must still be repeated (group, times, when). PCIe: a reset whose event waits for the link (R412). -/
structure PortState where
  cap : Nat := 0xF
  attempt : Nat := 0
  failNs : Option Nat := none
  switchNs : Nat := 0
  deskewed : Bool := false
  hpd : Bool := false
  segment : Nat := 0
  offset : Nat := 0
  dpcd : Tab Byte := []
  raster : Option Raster := none
  stable : Nat := 0
  capturing : Bool := false
  unsup : Bool := false
  connected : Bool := false
  trying : Nat := 0
  neighbours : List Neighbour := []
  held : List HeldPacket := []
  groups : List Nat := []
  reports : List (Nat × Nat × Nat) := []
  resetDue : Bool := false
  deriving DecidableEq, Repr

/-! ### Crinus links (R416 to R438) -/

/-- A sequenced frame: SEQ once sent, TYPE, class of R423 (0 TICK, 1 WARDEN, 2 REG, 3 LAYER and TILE), export slot, payload;
what is written into it as it leaves (1 an EDGE's CORRECTION_NS, 2 the departure of a DELAY_REQ, 3 that of a DELAY_RESP), the
time from which a residence counts, the time at which a TILE frame expires, and whether it has (R425). -/
structure CrlFrame where
  seq : Nat := 0
  typ : Nat
  cls : Nat
  slot : Nat := 0
  payload : List Byte
  patch : Nat := 0
  refNs : Nat := 0
  expiryNs : Option Nat := none
  stale : Bool := false
  deriving DecidableEq, Repr

/-- What codes a link's blocks (R417, R418): the place in the marker period of 4 × 16,383 blocks, the marker count, each lane's
scrambler and BIP-8, and when the last block sent has left. -/
structure BlockCoder where
  place : Nat := 0
  count : Nat := 0
  lanes : List (Nat × Nat) := []
  busyNs : Nat := 0
  deriving DecidableEq, Repr

/-- A link: the next SEQ; the replay buffer, oldest first; the SEQs to be resent; the frames waiting; the SEQ last accepted;
whether a NAK is due, and whether one has gone since the last acceptance; when ACK last advanced; rewinds since; the units
consumed and the peer's CREDITS by pool; the units freed by pool and whether each has been reported; delay exchanges: the
next request number, the departures of those open, the last results, how many made since link-up, when the last began. -/
structure LinkState where
  txNext : Nat := 0
  replay : List CrlFrame := []
  resend : List Nat := []
  waiting : List CrlFrame := []
  accepted : Nat := 4095
  nakDue : Bool := false
  nakSent : Bool := false
  ackNs : Nat := 0
  rewinds : Nat := 0
  consumed : List Nat := [0, 0]
  credits : List Nat := [0, 0]
  freed : List Nat := [0, 0]
  owed : List Bool := [false, false]
  reqNum : Nat := 0
  openReqs : List (Nat × Nat) := []
  delays : List Int := []
  exchanges : Nat := 0
  delayNs : Nat := 0
  coder : BlockCoder := {}
  deriving DecidableEq, Repr

/-- An export being received (R429): the frame buffer that it goes into, its link, format, size, stamp, ancient flag, tile count, its EXPORT_TICK, the cut, the data
received by tile × 16 + part, and each tile's part count, stamp and flags. -/
structure ImportFill where
  buffer : Nat := 0
  link : Nat
  fmt : Nat
  w : Nat
  h : Nat
  stamp : Nat
  ancient : Bool
  tiles : Nat
  tick : Nat
  cutNs : Nat
  parts : Tab (List Byte) := []
  marks : Tab (Nat × Nat × Nat) := []
  deriving DecidableEq, Repr

/-- An import slot: the exports being received, oldest first, the stamps and flags of the tiles of the newest complete frame,
the EXPORT_TICK of the last export begun, and that of the last one whose cut has passed. -/
structure ImportState where
  filling : List ImportFill := []
  marks : List (Nat × Nat) := []
  begun : Option Nat := none
  lastCut : Option Nat := none
  deriving DecidableEq, Repr

/-- The CRL block: the CLAIMs heard (id, PRIO, CANDIDATE, TICK_COUNT when heard), the frames forwarded (TYPE, subtype or KIND,
ORIGIN, COUNT, TICK_COUNT then), import slots, the frame that each export slot sent last (source, serial), the REG request
outstanding (link, since when), the WARDEN frames sent (R435). -/
structure CrlState where
  claims : List (Nat × Nat × Bool × Nat) := []
  forwarded : List (Nat × Nat × Nat × Nat × Nat) := []
  imports : Tab ImportState := []
  exported : Tab (Option (Nat × Nat)) := []
  request : Option (Nat × Nat) := none
  wardenCount : Nat := 0
  deriving DecidableEq, Repr

/-! ### Structure images and fuses (R61 to R89) -/

/-- The fuses (R69): the key hashes of the two slots, their revocations, the lowest security version, injection forbidden. -/
structure Fuses where
  hash0 : Option (List Byte) := none
  hash1 : Option (List Byte) := none
  revoked0 : Bool := false
  revoked1 : Bool := false
  svn : Nat := 0
  injForbid : Bool := false
  deriving DecidableEq, Repr

/-- The image loader: the bytes in staging, the source and address taken at GO, whether it is the boot load and of which copy,
whether the first part has been read (R552); WAIT_TICKS as taken at GO and the edges waited (R82); whether the key was accepted
under R67; the sections in force by type; the sections still to be applied in the order of R73; the section type and offset at
which an application stopped (R75); whether an image has been applied since PORST_N (R69); the sections of a reload whose
protection regions still drain (R85). -/
structure ImgState where
  staging : List Byte := []
  src : Nat := 0
  addr : Nat := 0
  boot : Bool := false
  secondary : Bool := false
  headerRead : Bool := false
  wait : Nat := 0
  waited : Nat := 0
  unprov : Bool := false
  sections : Tab (List Byte) := []
  todo : List Nat := []
  failed : Option (Nat × Nat) := none
  applied : Bool := false
  reloaded : Option Nat := none
  deriving DecidableEq, Repr

/-! ### The whole state -/

/-- The state of the block. `pending` is the queue of commands that wait, first in, first out; `freeCount` counts the free
values taken (log 7); `sent` is what has left the device, oldest first. -/
structure State where
  /-- Live words of the control aperture by offset; an unlisted word holds its reset value (R522, R527). -/
  regs : Tab Word := []
  /-- Shadow words (R217), in the RWS fields of each register. -/
  shadow : Tab Word := []
  /-- The seal taken at the last cut-off, until its commit (R219). -/
  sealed : Option (Tab Word) := none
  time : TimeState := {}
  evq : EvqState := {}
  tick : TickState := {}
  clap : ClapState := {}
  mem : MemState := {}
  protectionApplied : Bool := false
  audio : AudioState := {}
  touch : TouchState := {}
  chk : Tab CheckUnit := []
  power : PowerState := {}
  comp : CompState := {}
  codec : CodecState := {}
  faults : FaultState := {}
  damper : DamperState := {}
  inj : InjState := {}
  lanes : Tab LaneState := []
  ports : Tab PortState := []
  links : Tab LinkState := []
  crl : CrlState := {}
  img : ImgState := {}
  fuses : Fuses := {}
  sent : List Sent := []
  freeCount : Nat := 0
  pending : List Instr := []
  deriving DecidableEq, Repr

/-- The block right after reset (R508, R527): every register at its reset value, nothing listed in any table, PORST_N still
asserted, no command waiting. -/
def State.reset : State := {}


end Sys2Proof.Machine
end

