-- ==== Sys2Proof/Machine/Registers.lean ====
section
/-!
DEFINITION. The register map: every register of the control aperture (R522) with its offset, its strides, its fields,
each field's access type (R524) and its reset value, written from the register tables of the spec's chapters (R7, R36,
R61, R88, R100, R151, R174, R189, R215, R228, R252, R254, R274, R299, R322, R346, R367, R368, R390, R414, R437, R454,
R473, R492, R501, R520, R529). The names under `R` are the manual's: `R.TICK_STATUS_RUN` is TICK_STATUS.RUN.
-/
namespace Sys2Proof.Machine

/-- The access types of R524. -/
inductive Acc where
  | rw | ro | w1c | w1s | wo | rws | rwl
  deriving DecidableEq, Repr

/-- One field of a register: bits [hi:lo], its access type, its reset value. -/
structure FieldDesc where
  hi : Nat
  lo : Nat
  acc : Acc
  reset : Nat
  deriving DecidableEq, Repr

/-- How the reset word of a register is found when the spec gives a formula instead of a constant:
`const` the fields' reset values, `coefRom` R551, `lutIdentity` R138, `panicFill` R338, `monWindow` R514. -/
inductive ResetRule where
  | const | coefRom | lutIdentity | panicFill | monWindow
  deriving DecidableEq, Repr

/-- One register of the map, or an array of like registers: `dims` lists the strides (outermost first) and counts. -/
structure RegDesc where
  name : String
  base : Nat
  dims : List (Nat × Nat)
  rule : ResetRule
  fields : List FieldDesc
  deriving DecidableEq, Repr

/-- Registers of the GLB block (1 of 2). -/
def regsGlb0 : List RegDesc := [
  ⟨"GLB_ID", 0x000000, [], .const, [⟨31, 16, .ro, 0x4896⟩, ⟨7, 0, .ro, 0xB1⟩]⟩,
  ⟨"GLB_STATUS", 0x000004, [], .const, [⟨31, 31, .ro, 0x0⟩, ⟨30, 30, .ro, 0x0⟩, ⟨29, 29, .ro, 0x0⟩, ⟨28, 28, .ro, 0x0⟩, ⟨27, 27, .ro, 0x0⟩, ⟨26, 26, .ro, 0x0⟩, ⟨25, 25, .ro, 0x0⟩, ⟨24, 24, .ro, 0x0⟩, ⟨23, 23, .ro, 0x0⟩, ⟨22, 20, .ro, 0x0⟩]⟩,
  ⟨"GLB_SCRATCH", 0x000008, [], .const, [⟨31, 0, .rw, 0x0⟩]⟩,
  ⟨"GLB_ACCESS", 0x00000C, [], .const, [⟨31, 24, .ro, 0x0⟩, ⟨23, 0, .ro, 0x0⟩]⟩,
  ⟨"GLB_EVQ_RD", 0x000020, [], .const, [⟨10, 10, .rw, 0x0⟩, ⟨9, 0, .rw, 0x0⟩]⟩,
  ⟨"GLB_EVQ_WR", 0x000024, [], .const, [⟨10, 10, .ro, 0x0⟩, ⟨9, 0, .ro, 0x0⟩]⟩,
  ⟨"GLB_EVQ_STAT", 0x000028, [], .const, [⟨31, 31, .w1c, 0x0⟩, ⟨26, 16, .ro, 0x0⟩, ⟨15, 0, .ro, 0x0⟩]⟩,
  ⟨"GLB_EVQ_CFG", 0x00002C, [], .const, [⟨26, 16, .rw, 0x0⟩, ⟨5, 0, .rw, 0x0⟩]⟩,
  ⟨"GLB_HIER_CNT", 0x000100, [], .const, [⟨31, 24, .ro, 0x20⟩, ⟨23, 16, .ro, 0x8⟩, ⟨15, 8, .ro, 0x4⟩, ⟨7, 0, .ro, 0x2⟩]⟩,
  ⟨"GLB_PKG", 0x000104, [], .const, [⟨19, 16, .ro, 0x1⟩, ⟨8, 8, .ro, 0x0⟩, ⟨2, 0, .ro, 0x0⟩]⟩,
  ⟨"GLB_UNIT_SVC", 0x000108, [], .const, [⟨31, 0, .ro, 0x0⟩]⟩,
  ⟨"GLB_UNIT_STANDIN", 0x00010C, [], .const, [⟨31, 0, .ro, 0x0⟩]⟩,
  ⟨"GLB_CLUSTER_STAT", 0x000110, [], .const, [⟨31, 28, .ro, 0x0⟩, ⟨27, 24, .ro, 0x0⟩, ⟨23, 20, .ro, 0x0⟩, ⟨19, 16, .ro, 0x0⟩, ⟨15, 12, .ro, 0x0⟩, ⟨11, 8, .ro, 0x0⟩, ⟨7, 4, .ro, 0x0⟩, ⟨3, 0, .ro, 0x0⟩]⟩,
  ⟨"GLB_REGION_STAT", 0x000114, [], .const, [⟨15, 12, .ro, 0x0⟩, ⟨11, 8, .ro, 0x0⟩, ⟨7, 4, .ro, 0x0⟩, ⟨3, 0, .ro, 0x0⟩]⟩,
  ⟨"GLB_EVQ_VEC0", 0x000200, [], .const, [⟨31, 31, .rw, 0x1⟩, ⟨29, 24, .rw, 0x0⟩, ⟨23, 23, .rw, 0x1⟩, ⟨21, 16, .rw, 0x0⟩, ⟨15, 15, .rw, 0x1⟩, ⟨13, 8, .rw, 0x0⟩, ⟨7, 7, .rw, 0x1⟩, ⟨5, 0, .rw, 0x0⟩]⟩,
  ⟨"GLB_EVQ_VEC1", 0x000204, [], .const, [⟨31, 31, .rw, 0x1⟩, ⟨29, 24, .rw, 0x0⟩, ⟨23, 23, .rw, 0x1⟩, ⟨21, 16, .rw, 0x0⟩, ⟨15, 15, .rw, 0x1⟩, ⟨13, 8, .rw, 0x0⟩, ⟨7, 7, .rw, 0x1⟩, ⟨5, 0, .rw, 0x0⟩]⟩,
  ⟨"GLB_EVQ_VEC2", 0x000208, [], .const, [⟨23, 23, .rw, 0x1⟩, ⟨21, 16, .rw, 0x0⟩, ⟨15, 15, .rw, 0x1⟩, ⟨13, 8, .rw, 0x0⟩, ⟨7, 7, .rw, 0x1⟩, ⟨5, 0, .rw, 0x0⟩]⟩,
  ⟨"GLB_EVQ_VEC3", 0x00020C, [], .const, [⟨31, 31, .rw, 0x1⟩, ⟨29, 24, .rw, 0x0⟩, ⟨23, 23, .rw, 0x1⟩, ⟨21, 16, .rw, 0x0⟩, ⟨15, 15, .rw, 0x1⟩, ⟨13, 8, .rw, 0x0⟩, ⟨7, 7, .rw, 0x1⟩, ⟨5, 0, .rw, 0x0⟩]⟩,
  ⟨"GLB_EVQ_VEC4", 0x000210, [], .const, [⟨31, 31, .rw, 0x1⟩, ⟨29, 24, .rw, 0x0⟩, ⟨23, 23, .rw, 0x1⟩, ⟨21, 16, .rw, 0x0⟩, ⟨15, 15, .rw, 0x1⟩, ⟨13, 8, .rw, 0x0⟩, ⟨7, 7, .rw, 0x1⟩, ⟨5, 0, .rw, 0x0⟩]⟩,
  ⟨"GLB_EVQ_VEC5", 0x000214, [], .const, [⟨31, 31, .rw, 0x1⟩, ⟨29, 24, .rw, 0x0⟩, ⟨23, 23, .rw, 0x1⟩, ⟨21, 16, .rw, 0x0⟩, ⟨15, 15, .rw, 0x1⟩, ⟨13, 8, .rw, 0x0⟩, ⟨7, 7, .rw, 0x1⟩, ⟨5, 0, .rw, 0x0⟩]⟩]

/-- Registers of the GLB block (2 of 2). -/
def regsGlb1 : List RegDesc := [
  ⟨"GLB_EVQ_VEC6", 0x000218, [], .const, [⟨15, 15, .rw, 0x1⟩, ⟨13, 8, .rw, 0x0⟩, ⟨7, 7, .rw, 0x1⟩, ⟨5, 0, .rw, 0x0⟩]⟩,
  ⟨"GLB_INT_PEND", 0x000220, [(0x4, 2)], .const, [⟨31, 0, .w1c, 0x0⟩]⟩,
  ⟨"GLB_EVENT", 0x008000, [(0x10, 1024), (0x4, 4)], .const, [⟨31, 0, .ro, 0x0⟩]⟩]

/-- Registers of the GLB block. -/
def regsGlb : List RegDesc := regsGlb0 ++ regsGlb1

/-- Registers of the TICK block. -/
def regsTick : List RegDesc := [
  ⟨"TICK_CFG", 0x010000, [], .const, [⟨15, 8, .rwl, 0x8⟩, ⟨3, 0, .rwl, 0x6⟩]⟩,
  ⟨"TICK_CTRL", 0x010004, [], .const, [⟨24, 24, .rws, 0x0⟩, ⟨19, 16, .rws, 0x0⟩, ⟨11, 8, .rws, 0x4⟩, ⟨2, 2, .w1s, 0x0⟩, ⟨1, 0, .rws, 0x0⟩]⟩,
  ⟨"TICK_STATUS", 0x010008, [], .const, [⟨31, 31, .ro, 0x0⟩, ⟨30, 30, .ro, 0x0⟩, ⟨29, 29, .ro, 0x0⟩, ⟨28, 28, .ro, 0x0⟩, ⟨27, 26, .ro, 0x0⟩]⟩,
  ⟨"TICK_COUNT", 0x01000C, [], .const, [⟨31, 0, .ro, 0x0⟩]⟩,
  ⟨"TICK_EDGE_WUS", 0x010010, [], .const, [⟨31, 0, .ro, 0x0⟩]⟩,
  ⟨"TICK_PERIOD_NS", 0x010014, [], .const, [⟨31, 0, .ro, 0x0⟩]⟩,
  ⟨"TICK_PHASE_ERR", 0x010018, [], .const, [⟨31, 0, .ro, 0x0⟩]⟩,
  ⟨"TICK_LATE", 0x01001C, [], .const, [⟨31, 16, .ro, 0x0⟩, ⟨7, 0, .ro, 0x0⟩]⟩,
  ⟨"TICK_BUILD", 0x010020, [], .const, [⟨16, 16, .ro, 0x0⟩, ⟨15, 0, .ro, 0x0⟩]⟩]

/-- Registers of the IMG block. -/
def regsImg : List RegDesc := [
  ⟨"IMG_CTRL", 0x020000, [], .const, [⟨31, 16, .rw, 0x0⟩, ⟨9, 8, .rw, 0x0⟩, ⟨1, 1, .w1s, 0x0⟩, ⟨0, 0, .w1s, 0x0⟩]⟩,
  ⟨"IMG_SRC_LO", 0x020004, [], .const, [⟨31, 0, .rw, 0x0⟩]⟩,
  ⟨"IMG_SRC_HI", 0x020008, [], .const, [⟨31, 0, .rw, 0x0⟩]⟩,
  ⟨"IMG_STATUS", 0x02000C, [], .const, [⟨31, 28, .ro, 0x0⟩, ⟨27, 24, .ro, 0x0⟩, ⟨23, 16, .ro, 0x0⟩, ⟨5, 5, .ro, 0x0⟩, ⟨4, 4, .ro, 0x0⟩, ⟨3, 3, .ro, 0x0⟩, ⟨2, 2, .ro, 0x0⟩, ⟨1, 1, .w1c, 0x0⟩]⟩,
  ⟨"IMG_DETAIL", 0x020010, [], .const, [⟨31, 0, .ro, 0x0⟩]⟩,
  ⟨"IMG_BUILD_LO", 0x020014, [], .const, [⟨31, 0, .ro, 0x0⟩]⟩,
  ⟨"IMG_BUILD_HI", 0x020018, [], .const, [⟨31, 0, .ro, 0x0⟩]⟩,
  ⟨"IMG_SVN", 0x02001C, [], .const, [⟨15, 8, .ro, 0x0⟩, ⟨7, 0, .ro, 0x0⟩]⟩,
  ⟨"IMG_SECT_RELOADED", 0x020020, [], .const, [⟨14, 1, .ro, 0x0⟩]⟩,
  ⟨"IMG_WAITED", 0x020024, [], .const, [⟨15, 0, .ro, 0x0⟩]⟩,
  ⟨"IMG_FUSE_STAT", 0x020028, [], .const, [⟨9, 8, .ro, 0x0⟩, ⟨4, 4, .ro, 0x0⟩, ⟨3, 3, .ro, 0x0⟩, ⟨2, 2, .ro, 0x0⟩, ⟨1, 1, .ro, 0x0⟩, ⟨0, 0, .ro, 0x0⟩]⟩,
  ⟨"IMG_FUSE_PROG", 0x02002C, [], .const, [⟨31, 16, .wo, 0x0⟩, ⟨3, 0, .wo, 0x0⟩]⟩,
  ⟨"IMG_FUSE_DATA", 0x020030, [(0x4, 12)], .const, [⟨31, 0, .rw, 0x0⟩]⟩]

/-- Registers of the CLAP block. -/
def regsClap : List RegDesc := [
  ⟨"CLAP_ARM", 0x030000, [], .const, [⟨0, 0, .w1s, 0x0⟩]⟩,
  ⟨"CLAP_STATUS", 0x030004, [], .const, [⟨31, 31, .ro, 0x0⟩, ⟨30, 30, .ro, 0x0⟩, ⟨29, 29, .ro, 0x0⟩, ⟨28, 28, .ro, 0x0⟩, ⟨27, 27, .w1c, 0x0⟩, ⟨15, 0, .ro, 0x0⟩]⟩,
  ⟨"CLAP_SEQ", 0x030008, [], .const, [⟨31, 0, .ro, 0x0⟩]⟩,
  ⟨"CLAP_LAST", 0x03000C, [], .const, [⟨31, 0, .ro, 0x0⟩]⟩,
  ⟨"CLAP_ARM_WUS", 0x030010, [], .const, [⟨31, 0, .ro, 0x0⟩]⟩,
  ⟨"CLAP_LIVEWR", 0x030014, [], .const, [⟨31, 24, .ro, 0x0⟩, ⟨23, 0, .ro, 0x0⟩]⟩,
  ⟨"CLAP_VIEW", 0x030018, [], .const, [⟨0, 0, .rw, 0x0⟩]⟩,
  ⟨"CLAP_CTRL", 0x03001C, [], .const, [⟨1, 1, .w1s, 0x0⟩, ⟨0, 0, .rw, 0x0⟩]⟩]

/-- Registers of the LYR block. -/
def regsLyr : List RegDesc := [
  ⟨"LYR_CTRL", 0x040000, [(0x40, 4096)], .const, [⟨31, 31, .rws, 0x0⟩, ⟨30, 30, .rws, 0x0⟩, ⟨29, 29, .rws, 0x0⟩, ⟨28, 28, .rws, 0x0⟩, ⟨27, 27, .rws, 0x0⟩, ⟨20, 16, .rws, 0x0⟩, ⟨15, 12, .rws, 0x0⟩, ⟨11, 0, .rws, 0x0⟩]⟩,
  ⟨"LYR_SRC", 0x040004, [(0x40, 4096)], .const, [⟨31, 28, .rws, 0x0⟩, ⟨27, 24, .rws, 0x0⟩, ⟨23, 12, .rws, 0x0⟩, ⟨11, 0, .rws, 0x0⟩]⟩,
  ⟨"LYR_SURF_ADDR", 0x040008, [(0x40, 4096)], .const, [⟨31, 0, .rws, 0x0⟩]⟩,
  ⟨"LYR_SURF_SIZE", 0x04000C, [(0x40, 4096)], .const, [⟨28, 16, .rws, 0x0⟩, ⟨12, 0, .rws, 0x0⟩]⟩,
  ⟨"LYR_CROP_POS", 0x040010, [(0x40, 4096)], .const, [⟨28, 16, .rws, 0x0⟩, ⟨12, 0, .rws, 0x0⟩]⟩,
  ⟨"LYR_CROP_SIZE", 0x040014, [(0x40, 4096)], .const, [⟨28, 16, .rws, 0x0⟩, ⟨12, 0, .rws, 0x0⟩]⟩,
  ⟨"LYR_DST_POS", 0x040018, [(0x40, 4096)], .const, [⟨31, 16, .rws, 0x0⟩, ⟨15, 0, .rws, 0x0⟩]⟩,
  ⟨"LYR_DST_SIZE", 0x04001C, [(0x40, 4096)], .const, [⟨28, 16, .rws, 0x0⟩, ⟨12, 0, .rws, 0x0⟩]⟩,
  ⟨"LYR_MATRIX0", 0x040020, [(0x40, 4096)], .const, [⟨31, 16, .rws, 0x0⟩, ⟨15, 0, .rws, 0x0⟩]⟩,
  ⟨"LYR_MATRIX1", 0x040024, [(0x40, 4096)], .const, [⟨31, 16, .rws, 0x0⟩, ⟨15, 0, .rws, 0x0⟩]⟩,
  ⟨"LYR_MATRIX2", 0x040028, [(0x40, 4096)], .const, [⟨31, 16, .rws, 0x0⟩, ⟨15, 0, .rws, 0x0⟩]⟩,
  ⟨"LYR_MATRIX3", 0x04002C, [(0x40, 4096)], .const, [⟨31, 16, .rws, 0x0⟩, ⟨15, 0, .rws, 0x0⟩]⟩,
  ⟨"LYR_MATRIX4", 0x040030, [(0x40, 4096)], .const, [⟨31, 16, .rws, 0x0⟩, ⟨15, 0, .rws, 0x0⟩]⟩,
  ⟨"LYR_MATRIX5", 0x040034, [(0x40, 4096)], .const, [⟨31, 16, .rws, 0x0⟩, ⟨15, 0, .rws, 0x0⟩]⟩,
  ⟨"LYR_BLEND", 0x040038, [(0x40, 4096)], .const, [⟨31, 24, .rws, 0x0⟩, ⟨23, 22, .rws, 0x0⟩]⟩,
  ⟨"LYR_PROBE_EXPORT", 0x04003C, [(0x40, 4096)], .const, [⟨31, 31, .rws, 0x0⟩, ⟨21, 16, .rws, 0x0⟩, ⟨15, 13, .rws, 0x0⟩, ⟨9, 0, .rws, 0x0⟩]⟩]

/-- Registers of the CMP block. -/
def regsCmp : List RegDesc := [
  ⟨"CMP_FLUE_CTRL", 0x081000, [(0x80, 24)], .const, [⟨31, 31, .rws, 0x0⟩, ⟨30, 30, .rwl, 0x0⟩, ⟨29, 28, .rwl, 0x1⟩, ⟨27, 27, .rwl, 0x0⟩, ⟨21, 16, .rwl, 0x0⟩]⟩,
  ⟨"CMP_FLUE_HTIME", 0x081004, [(0x80, 24)], .const, [⟨31, 16, .rwl, 0x0⟩, ⟨15, 0, .rwl, 0x0⟩]⟩,
  ⟨"CMP_FLUE_VTIME", 0x081008, [(0x80, 24)], .const, [⟨31, 16, .rwl, 0x0⟩, ⟨15, 0, .rwl, 0x0⟩]⟩,
  ⟨"CMP_FLUE_HSYNC", 0x08100C, [(0x80, 24)], .const, [⟨31, 31, .rwl, 0x0⟩, ⟨27, 16, .rwl, 0x0⟩, ⟨11, 0, .rwl, 0x0⟩]⟩,
  ⟨"CMP_FLUE_VSYNC", 0x081010, [(0x80, 24)], .const, [⟨31, 31, .rwl, 0x0⟩, ⟨27, 16, .rwl, 0x0⟩, ⟨11, 0, .rwl, 0x0⟩]⟩,
  ⟨"CMP_FLUE_PHASE", 0x081014, [(0x80, 24)], .const, [⟨31, 0, .rwl, 0x0⟩]⟩,
  ⟨"CMP_FLUE_BG", 0x081018, [(0x80, 24)], .const, [⟨29, 20, .rws, 0x0⟩, ⟨19, 10, .rws, 0x0⟩, ⟨9, 0, .rws, 0x0⟩]⟩,
  ⟨"CMP_FLUE_DIRECT", 0x08101C, [(0x80, 24)], .const, [⟨23, 16, .ro, 0xFF⟩, ⟨2, 0, .rws, 0x0⟩]⟩,
  ⟨"CMP_FLUE_DSTAT", 0x081020, [(0x80, 24)], .const, [⟨31, 31, .ro, 0x0⟩, ⟨27, 16, .ro, 0x0⟩, ⟨15, 0, .ro, 0x0⟩]⟩,
  ⟨"CMP_FLUE_STAT", 0x081024, [(0x80, 24)], .const, [⟨31, 16, .ro, 0x0⟩, ⟨15, 0, .ro, 0x0⟩]⟩,
  ⟨"CMP_FLUE_TILES", 0x081028, [(0x80, 24)], .const, [⟨31, 14, .ro, 0x0⟩, ⟨13, 7, .ro, 0x0⟩, ⟨6, 0, .ro, 0x0⟩]⟩,
  ⟨"CMP_FLUE_HELD", 0x08102C, [(0x80, 24)], .const, [⟨31, 0, .ro, 0x0⟩]⟩,
  ⟨"CMP_FLUE_HELD_IDX", 0x081030, [(0x80, 24)], .const, [⟨31, 24, .ro, 0x0⟩, ⟨23, 16, .ro, 0xFF⟩, ⟨15, 8, .ro, 0xFF⟩]⟩,
  ⟨"CMP_COEF_H", 0x082000, [(0x700, 4), (0x10, 64), (0x4, 4)], .coefRom, [⟨27, 16, .rws, 0x0⟩, ⟨11, 0, .rws, 0x0⟩]⟩,
  ⟨"CMP_COEF_V", 0x082400, [(0x700, 4), (0xC, 64), (0x4, 3)], .coefRom, [⟨27, 16, .rws, 0x0⟩, ⟨11, 0, .rws, 0x0⟩]⟩,
  ⟨"CMP_LUT", 0x084000, [(0x800, 24), (0x4, 512)], .lutIdentity, [⟨27, 16, .rws, 0x0⟩, ⟨11, 0, .rws, 0x0⟩]⟩]

/-- Registers of the FRS block. -/
def regsFrs : List RegDesc := [
  ⟨"FRS_CTRL", 0x090000, [], .const, [⟨0, 0, .rws, 0x1⟩]⟩,
  ⟨"FRS_SWEEP", 0x090004, [], .const, [⟨31, 0, .ro, 0x0⟩]⟩,
  ⟨"FRS_DC_MAX", 0x090040, [(0x4, 15)], .const, [⟨29, 0, .rws, 0x0⟩]⟩,
  ⟨"FRS_FLUE_EMBER_A", 0x090100, [(0x10, 24)], .const, [⟨29, 20, .rws, 0x3FF⟩, ⟨19, 10, .rws, 0x200⟩, ⟨9, 0, .rws, 0x0⟩]⟩,
  ⟨"FRS_FLUE_EMBER_B", 0x090104, [(0x10, 24)], .const, [⟨29, 20, .rws, 0x0⟩, ⟨19, 10, .rws, 0x0⟩, ⟨9, 0, .rws, 0x0⟩]⟩,
  ⟨"FRS_FLUE_COUNT0", 0x090108, [(0x10, 24)], .const, [⟨31, 16, .ro, 0x0⟩, ⟨15, 0, .ro, 0x0⟩]⟩,
  ⟨"FRS_FLUE_COUNT1", 0x09010C, [(0x10, 24)], .const, [⟨31, 16, .ro, 0x0⟩, ⟨15, 0, .ro, 0x0⟩]⟩,
  ⟨"FRS_BADGE_WORD", 0x090300, [(0x4, 2)], .const, [⟨29, 24, .rws, 0x0⟩, ⟨21, 16, .rws, 0x0⟩, ⟨13, 8, .rws, 0x0⟩, ⟨5, 0, .rws, 0x0⟩]⟩,
  ⟨"FRS_GLYPH", 0x090400, [(0x10, 64), (0x4, 4)], .const, [⟨31, 0, .rws, 0x0⟩]⟩,
  ⟨"FRS_LAYER_AGE", 0x091000, [(0x4, 4096)], .const, [⟨31, 0, .ro, 0xFFFFFFFF⟩]⟩,
  ⟨"FRS_LAYER_STAT", 0x095000, [(0x4, 4096)], .const, [⟨31, 31, .ro, 0x0⟩, ⟨30, 30, .ro, 0x0⟩, ⟨29, 29, .ro, 0x0⟩, ⟨28, 28, .ro, 0x0⟩, ⟨27, 27, .ro, 0x0⟩, ⟨26, 26, .ro, 0x0⟩, ⟨25, 25, .ro, 0x1⟩]⟩]

/-- Registers of the SNT block. -/
def regsSnt : List RegDesc := [
  ⟨"SNT_GLASS_SUMMARY", 0x0A0000, [], .const, [⟨23, 0, .ro, 0x0⟩]⟩,
  ⟨"SNT_FLUE_CFG", 0x0A0100, [(0x20, 24)], .const, [⟨31, 31, .rws, 0x0⟩, ⟨27, 24, .rws, 0x0⟩, ⟨23, 22, .rws, 0x0⟩, ⟨15, 8, .rws, 0xC0⟩, ⟨7, 0, .ro, 0xFF⟩]⟩,
  ⟨"SNT_FLUE_PATCH", 0x0A0104, [(0x20, 24)], .const, [⟨31, 24, .rws, 0x0⟩, ⟨23, 16, .rws, 0x0⟩]⟩,
  ⟨"SNT_FLUE_LEVEL", 0x0A0108, [(0x20, 24)], .const, [⟨25, 16, .rws, 0x2C0⟩, ⟨9, 0, .rws, 0x140⟩]⟩,
  ⟨"SNT_FLUE_LIMIT", 0x0A010C, [(0x20, 24)], .const, [⟨31, 16, .rws, 0x78⟩, ⟨15, 0, .rws, 0x0⟩]⟩,
  ⟨"SNT_FLUE_STAT", 0x0A0110, [(0x20, 24)], .const, [⟨31, 30, .ro, 0x0⟩, ⟨29, 29, .ro, 0x0⟩, ⟨23, 16, .ro, 0x0⟩, ⟨2, 0, .ro, 0x0⟩]⟩,
  ⟨"SNT_FLUE_LAT", 0x0A0114, [(0x20, 24)], .const, [⟨19, 0, .ro, 0x0⟩]⟩,
  ⟨"SNT_FLUE_LAST", 0x0A0118, [(0x20, 24)], .const, [⟨31, 0, .ro, 0x0⟩]⟩,
  ⟨"SNT_PROBE_POS", 0x0A1000, [(0x10, 1024)], .const, [⟨28, 16, .rws, 0x0⟩, ⟨12, 0, .rws, 0x0⟩]⟩,
  ⟨"SNT_PROBE_SIZE", 0x0A1004, [(0x10, 1024)], .const, [⟨31, 31, .ro, 0x0⟩, ⟨30, 30, .ro, 0x0⟩, ⟨26, 24, .rws, 0x0⟩, ⟨22, 16, .rws, 0x7⟩, ⟨6, 0, .rws, 0x7⟩]⟩,
  ⟨"SNT_PROBE_SIG", 0x0A1008, [(0x10, 1024)], .const, [⟨31, 0, .ro, 0x0⟩]⟩,
  ⟨"SNT_PROBE_CHANGE", 0x0A100C, [(0x10, 1024)], .const, [⟨31, 0, .ro, 0x0⟩]⟩]

/-- Registers of the CRT block. -/
def regsCrt : List RegDesc := [
  ⟨"CRT_STATUS", 0x0B0000, [], .const, [⟨28, 16, .ro, 0x0⟩, ⟨6, 0, .ro, 0x0⟩]⟩,
  ⟨"CRT_WVOTE", 0x0B0004, [], .const, [⟨31, 24, .ro, 0x0⟩, ⟨23, 16, .ro, 0x0⟩, ⟨15, 8, .ro, 0x0⟩, ⟨7, 0, .ro, 0x0⟩]⟩,
  ⟨"CRT_WSTAT", 0x0B0008, [], .const, [⟨2, 0, .ro, 0x7⟩]⟩,
  ⟨"CRT_RECT_POS", 0x0B0100, [(0x10, 64)], .const, [⟨31, 31, .ro, 0x0⟩, ⟨20, 16, .ro, 0x0⟩, ⟨14, 8, .ro, 0x0⟩, ⟨6, 0, .ro, 0x0⟩]⟩,
  ⟨"CRT_RECT_SIZE", 0x0B0104, [(0x10, 64)], .const, [⟨14, 8, .ro, 0x0⟩, ⟨6, 0, .ro, 0x0⟩]⟩,
  ⟨"CRT_RECT_MEMBERS", 0x0B0108, [(0x10, 64)], .const, [⟨23, 16, .ro, 0xFF⟩, ⟨15, 8, .ro, 0xFF⟩, ⟨7, 0, .ro, 0xFF⟩]⟩,
  ⟨"CRT_RECT_STAT", 0x0B010C, [(0x10, 64)], .const, [⟨31, 16, .ro, 0x0⟩, ⟨15, 0, .ro, 0x0⟩]⟩,
  ⟨"CRT_UNIT_VOTE", 0x0B0600, [(0x4, 32)], .const, [⟨31, 16, .ro, 0x0⟩, ⟨15, 8, .ro, 0x0⟩, ⟨1, 0, .ro, 0x0⟩]⟩,
  ⟨"CRT_EXP_SUMMARY", 0x0B0700, [(0x4, 32)], .const, [⟨31, 0, .ro, 0x0⟩]⟩,
  ⟨"CRT_EXP_CTRL", 0x0B4000, [(0x10, 1024)], .const, [⟨31, 31, .rws, 0x0⟩, ⟨30, 30, .rws, 0x0⟩, ⟨20, 16, .rws, 0x0⟩, ⟨13, 0, .rws, 0x0⟩]⟩,
  ⟨"CRT_EXP_SIG_A", 0x0B4004, [(0x10, 1024)], .const, [⟨31, 0, .rws, 0x0⟩]⟩,
  ⟨"CRT_EXP_SIG_B", 0x0B4008, [(0x10, 1024)], .const, [⟨31, 0, .rws, 0x0⟩]⟩,
  ⟨"CRT_EXP_STAT", 0x0B400C, [(0x10, 1024)], .const, [⟨31, 31, .ro, 0x0⟩, ⟨30, 30, .ro, 0x0⟩, ⟨15, 0, .ro, 0x0⟩]⟩]

/-- Registers of the WDN block. -/
def regsWdn : List RegDesc := [
  ⟨"WDN_STATUS", 0x0C0000, [], .const, [⟨31, 31, .ro, 0x0⟩, ⟨30, 30, .ro, 0x0⟩, ⟨29, 29, .ro, 0x0⟩, ⟨23, 16, .ro, 0x0⟩, ⟨15, 8, .ro, 0x0⟩, ⟨7, 0, .ro, 0x0⟩]⟩,
  ⟨"WDN_LOG_PTR", 0x0C0004, [], .const, [⟨23, 16, .ro, 0x0⟩, ⟨7, 0, .rw, 0x0⟩]⟩,
  ⟨"WDN_LOG_STAT", 0x0C0008, [], .const, [⟨31, 31, .w1c, 0x0⟩, ⟨24, 16, .ro, 0x0⟩, ⟨15, 0, .ro, 0x0⟩]⟩,
  ⟨"WDN_HOLD", 0x0C000C, [], .const, [⟨31, 16, .ro, 0x0⟩, ⟨15, 0, .ro, 0x0⟩]⟩,
  ⟨"WDN_HOLD_FLUES", 0x0C0010, [], .const, [⟨23, 0, .ro, 0x0⟩]⟩,
  ⟨"WDN_HOOK_EN", 0x0C0014, [], .const, [⟨15, 1, .rw, 0x0⟩]⟩,
  ⟨"WDN_LOG_W0", 0x0C1000, [(0x10, 256)], .const, [⟨31, 0, .ro, 0x0⟩]⟩,
  ⟨"WDN_LOG_W1", 0x0C1004, [(0x10, 256)], .const, [⟨31, 24, .ro, 0x0⟩, ⟨23, 20, .ro, 0x0⟩, ⟨15, 8, .ro, 0x0⟩, ⟨7, 4, .ro, 0x0⟩, ⟨3, 0, .ro, 0x0⟩]⟩,
  ⟨"WDN_LOG_W2", 0x0C1008, [(0x10, 256)], .const, [⟨31, 16, .ro, 0x0⟩, ⟨15, 8, .ro, 0x0⟩, ⟨7, 7, .ro, 0x0⟩, ⟨6, 6, .ro, 0x0⟩]⟩,
  ⟨"WDN_LOG_W3", 0x0C100C, [(0x10, 256)], .const, [⟨31, 16, .ro, 0x0⟩, ⟨15, 0, .ro, 0x0⟩]⟩,
  ⟨"WDN_PROGRAM", 0x0C8000, [(0x4, 8192)], .const, [⟨31, 0, .rwl, 0x0⟩]⟩]

/-- Registers of the DMP block. -/
def regsDmp : List RegDesc := [
  ⟨"DMP_CTRL", 0x0D0000, [], .const, [⟨31, 31, .rws, 0x1⟩, ⟨30, 30, .rws, 0x0⟩, ⟨27, 24, .rws, 0x8⟩, ⟨15, 0, .rws, 0xA7⟩]⟩,
  ⟨"DMP_LIMIT", 0x0D0004, [], .const, [⟨23, 16, .rws, 0x14⟩, ⟨15, 8, .rws, 0xA⟩, ⟨7, 0, .rws, 0x87⟩]⟩,
  ⟨"DMP_RELAX", 0x0D0008, [], .const, [⟨15, 0, .rws, 0x12C⟩]⟩,
  ⟨"DMP_THERM", 0x0D000C, [], .const, [⟨23, 16, .rws, 0x4⟩, ⟨15, 8, .rws, 0xA⟩, ⟨7, 0, .rws, 0x64⟩]⟩,
  ⟨"DMP_BUDGET", 0x0D0010, [], .const, [⟨31, 0, .ro, 0x0⟩]⟩,
  ⟨"DMP_ENERGY", 0x0D0014, [], .const, [⟨31, 0, .ro, 0x0⟩]⟩,
  ⟨"DMP_STATUS", 0x0D0018, [], .const, [⟨31, 29, .ro, 0x0⟩, ⟨28, 28, .ro, 0x0⟩, ⟨27, 27, .ro, 0x0⟩, ⟨26, 26, .ro, 0x0⟩, ⟨25, 25, .ro, 0x0⟩, ⟨15, 8, .ro, 0x0⟩, ⟨4, 0, .ro, 0x0⟩]⟩,
  ⟨"DMP_RESTED", 0x0D001C, [], .const, [⟨23, 0, .ro, 0x0⟩]⟩,
  ⟨"DMP_TEMP_A", 0x0D0020, [], .const, [⟨19, 16, .ro, 0x0⟩, ⟨7, 0, .ro, 0x0⟩]⟩,
  ⟨"DMP_TEMP_B", 0x0D0024, [], .const, [⟨19, 16, .ro, 0x0⟩, ⟨7, 0, .ro, 0x0⟩]⟩,
  ⟨"DMP_TEMP_IO", 0x0D0028, [], .const, [⟨19, 16, .ro, 0x0⟩, ⟨7, 0, .ro, 0x0⟩]⟩,
  ⟨"DMP_CLASS", 0x0D002C, [], .const, [⟨3, 3, .ro, 0x0⟩, ⟨2, 2, .ro, 0x0⟩, ⟨1, 1, .ro, 0x0⟩, ⟨0, 0, .ro, 0x0⟩]⟩,
  ⟨"DMP_SOFT_SKIP", 0x0D0030, [], .const, [⟨31, 16, .ro, 0x0⟩]⟩,
  ⟨"DMP_REST_ORDER", 0x0D0040, [(0x4, 6)], .const, [⟨31, 31, .ro, 0x0⟩, ⟨28, 24, .ro, 0x0⟩, ⟨23, 23, .ro, 0x0⟩, ⟨20, 16, .ro, 0x0⟩, ⟨15, 15, .ro, 0x0⟩, ⟨12, 8, .ro, 0x0⟩, ⟨7, 7, .ro, 0x0⟩, ⟨4, 0, .ro, 0x0⟩]⟩,
  ⟨"DMP_REEL_LEVEL", 0x0D0100, [(0x4, 8)], .const, [⟨31, 0, .ro, 0x0⟩]⟩]

/-- Registers of the TMB block (1 of 2). -/
def regsTmb0 : List RegDesc := [
  ⟨"TMB_CTRL", 0x0E0000, [], .const, [⟨1, 1, .w1s, 0x0⟩, ⟨0, 0, .w1s, 0x0⟩]⟩,
  ⟨"TMB_STATUS", 0x0E0004, [], .const, [⟨31, 31, .ro, 0x0⟩, ⟨30, 30, .ro, 0x0⟩, ⟨29, 29, .w1c, 0x0⟩, ⟨15, 0, .ro, 0x0⟩]⟩,
  ⟨"TMB_INC_INT", 0x0E0008, [], .const, [⟨7, 0, .rw, 0x2⟩]⟩,
  ⟨"TMB_INC_FRAC", 0x0E000C, [], .const, [⟨31, 0, .rw, 0x0⟩]⟩,
  ⟨"TMB_STEP_S", 0x0E0010, [], .const, [⟨31, 0, .rw, 0x0⟩]⟩,
  ⟨"TMB_STEP_NS", 0x0E0014, [], .const, [⟨31, 0, .rw, 0x0⟩]⟩,
  ⟨"TMB_WUS", 0x0E0018, [], .const, [⟨31, 0, .ro, 0x0⟩]⟩,
  ⟨"TMB_SNAP_S_HI", 0x0E0020, [], .const, [⟨15, 0, .ro, 0x0⟩]⟩,
  ⟨"TMB_SNAP_S_LO", 0x0E0024, [], .const, [⟨31, 0, .ro, 0x0⟩]⟩,
  ⟨"TMB_SNAP_NS", 0x0E0028, [], .const, [⟨29, 0, .ro, 0x0⟩]⟩,
  ⟨"TMB_SNAP_FRAC", 0x0E002C, [], .const, [⟨31, 0, .ro, 0x0⟩]⟩,
  ⟨"TMB_PTP_RX_BASE", 0x0E0040, [], .const, [⟨31, 0, .rwl, 0x0⟩]⟩,
  ⟨"TMB_PTP_TX_BASE", 0x0E0044, [], .const, [⟨31, 0, .rwl, 0x0⟩]⟩,
  ⟨"TMB_PTP_RX_SIZE", 0x0E0048, [], .const, [⟨31, 16, .ro, 0x0⟩, ⟨15, 0, .rwl, 0x0⟩]⟩,
  ⟨"TMB_PTP_TX_SIZE", 0x0E004C, [], .const, [⟨31, 16, .ro, 0x0⟩, ⟨15, 0, .rwl, 0x0⟩]⟩,
  ⟨"TMB_PTP_RX_RD", 0x0E0050, [], .const, [⟨31, 0, .rw, 0x0⟩]⟩,
  ⟨"TMB_PTP_RX_WR", 0x0E0054, [], .const, [⟨31, 0, .ro, 0x0⟩]⟩,
  ⟨"TMB_PTP_TX_RD", 0x0E0058, [], .const, [⟨31, 0, .ro, 0x0⟩]⟩,
  ⟨"TMB_PTP_TX_WR", 0x0E005C, [], .const, [⟨31, 0, .rw, 0x0⟩]⟩,
  ⟨"TMB_PTP_PORT", 0x0E0080, [(0x4, 8)], .const, [⟨31, 31, .rw, 0x0⟩, ⟨27, 16, .rw, 0x0⟩, ⟨11, 0, .rw, 0x0⟩]⟩]

/-- Registers of the TMB block (2 of 2). -/
def regsTmb1 : List RegDesc := [
  ⟨"TMO_CTRL", 0x0E0100, [(0x20, 16)], .const, [⟨31, 31, .rw, 0x0⟩, ⟨30, 29, .rwl, 0x0⟩, ⟨28, 28, .rwl, 0x0⟩, ⟨27, 27, .w1c, 0x0⟩, ⟨26, 26, .ro, 0x0⟩, ⟨15, 0, .rwl, 0x0⟩]⟩,
  ⟨"TMO_START_S_LO", 0x0E0104, [(0x20, 16)], .const, [⟨31, 0, .rwl, 0x0⟩]⟩,
  ⟨"TMO_START_NS", 0x0E0108, [(0x20, 16)], .const, [⟨31, 0, .rwl, 0x0⟩]⟩,
  ⟨"TMO_PERIOD_NS", 0x0E010C, [(0x20, 16)], .const, [⟨31, 0, .rwl, 0x0⟩]⟩,
  ⟨"TMO_WIDTH_NS", 0x0E0110, [(0x20, 16)], .const, [⟨31, 0, .rwl, 0x0⟩]⟩,
  ⟨"TMC_CTRL", 0x0E0300, [(0x10, 8)], .const, [⟨31, 31, .rw, 0x0⟩, ⟨30, 29, .rw, 0x1⟩, ⟨28, 28, .w1c, 0x0⟩, ⟨3, 0, .ro, 0x0⟩]⟩,
  ⟨"TMC_TS_NS", 0x0E0304, [(0x10, 8)], .const, [⟨31, 31, .ro, 0x0⟩, ⟨30, 30, .ro, 0x0⟩, ⟨29, 0, .ro, 0x0⟩]⟩,
  ⟨"TMC_TS_S_LO", 0x0E0308, [(0x10, 8)], .const, [⟨31, 0, .ro, 0x0⟩]⟩,
  ⟨"TMC_TS_S_HI", 0x0E030C, [(0x10, 8)], .const, [⟨31, 31, .ro, 0x0⟩, ⟨15, 0, .ro, 0x0⟩]⟩]

/-- Registers of the TMB block. -/
def regsTmb : List RegDesc := regsTmb0 ++ regsTmb1

/-- Registers of the CHK block. -/
def regsChk : List RegDesc := [
  ⟨"CHK_CU_CFG", 0x0F0100, [(0x20, 16)], .const, [⟨31, 31, .rws, 0x0⟩, ⟨30, 29, .rwl, 0x0⟩, ⟨28, 28, .rwl, 0x0⟩, ⟨27, 27, .rwl, 0x0⟩, ⟨26, 26, .rwl, 0x0⟩, ⟨25, 25, .rwl, 0x0⟩, ⟨24, 24, .w1s, 0x0⟩, ⟨23, 20, .rwl, 0x0⟩, ⟨15, 8, .rwl, 0x0⟩, ⟨5, 0, .rwl, 0x0⟩]⟩,
  ⟨"CHK_CU_POLY", 0x0F0104, [(0x20, 16)], .const, [⟨31, 0, .rwl, 0x0⟩]⟩,
  ⟨"CHK_CU_INIT", 0x0F0108, [(0x20, 16)], .const, [⟨31, 0, .rwl, 0x0⟩]⟩,
  ⟨"CHK_CU_XOROUT", 0x0F010C, [(0x20, 16)], .const, [⟨31, 0, .rwl, 0x0⟩]⟩,
  ⟨"CHK_CU_FILTER", 0x0F0110, [(0x20, 16)], .const, [⟨15, 0, .rwl, 0x0⟩]⟩,
  ⟨"CHK_CU_RESULT", 0x0F0114, [(0x20, 16)], .const, [⟨31, 0, .ro, 0x0⟩]⟩,
  ⟨"CHK_CU_RECEIVED", 0x0F0118, [(0x20, 16)], .const, [⟨31, 0, .ro, 0x0⟩]⟩,
  ⟨"CHK_CU_COUNT", 0x0F011C, [(0x20, 16)], .const, [⟨31, 16, .ro, 0x0⟩, ⟨15, 8, .ro, 0x0⟩, ⟨7, 0, .ro, 0x0⟩]⟩]

/-- Registers of the REEL block. -/
def regsReel : List RegDesc := [
  ⟨"REEL_CFG", 0x100000, [(0x400, 128)], .const, [⟨31, 31, .rws, 0x0⟩, ⟨30, 30, .rwl, 0x0⟩, ⟨29, 28, .rwl, 0x0⟩, ⟨27, 27, .rwl, 0x0⟩, ⟨26, 26, .rws, 0x0⟩, ⟨25, 25, .rws, 0x0⟩, ⟨24, 24, .rws, 0x0⟩]⟩,
  ⟨"REEL_MAXSIZE", 0x100004, [(0x400, 128)], .const, [⟨28, 16, .rwl, 0x0⟩, ⟨12, 0, .rwl, 0x0⟩]⟩,
  ⟨"REEL_BUF_BASE", 0x100008, [(0x400, 128)], .const, [⟨31, 0, .rwl, 0x0⟩]⟩,
  ⟨"REEL_BUF_CFG", 0x10000C, [(0x400, 128)], .const, [⟨20, 20, .rwl, 0x0⟩, ⟨19, 16, .rwl, 0x0⟩]⟩,
  ⟨"REEL_NET", 0x100010, [(0x400, 128)], .const, [⟨29, 24, .rws, 0x0⟩, ⟨22, 16, .rws, 0x0⟩, ⟨15, 0, .rws, 0x0⟩]⟩,
  ⟨"REEL_SSRC", 0x100014, [(0x400, 128)], .const, [⟨31, 0, .rws, 0x0⟩]⟩,
  ⟨"REEL_JB", 0x100018, [(0x400, 128)], .const, [⟨31, 16, .rws, 0x3E8⟩, ⟨15, 0, .rws, 0x2710⟩]⟩,
  ⟨"REEL_KEYREQ", 0x10001C, [(0x400, 128)], .const, [⟨31, 31, .rws, 0x0⟩, ⟨30, 30, .rws, 0x0⟩, ⟨27, 16, .rws, 0x3E8⟩, ⟨11, 0, .rws, 0x64⟩]⟩,
  ⟨"REEL_GROUP", 0x100020, [(0x400, 128), (0x4, 4)], .const, [⟨31, 0, .rws, 0x0⟩]⟩,
  ⟨"REEL_SR", 0x100030, [(0x400, 128)], .const, [⟨15, 0, .rws, 0x32⟩]⟩,
  ⟨"REEL_STATUS", 0x100040, [(0x400, 128)], .const, [⟨31, 29, .ro, 0x0⟩, ⟨28, 27, .ro, 0x0⟩, ⟨26, 26, .ro, 0x0⟩, ⟨25, 25, .ro, 0x0⟩, ⟨24, 24, .ro, 0x0⟩, ⟨23, 20, .ro, 0x0⟩, ⟨19, 12, .ro, 0x0⟩, ⟨3, 0, .ro, 0x0⟩]⟩,
  ⟨"REEL_PICSIZE", 0x100044, [(0x400, 128)], .const, [⟨28, 16, .ro, 0x0⟩, ⟨12, 0, .ro, 0x0⟩]⟩,
  ⟨"REEL_LAST_STAMP", 0x100048, [(0x400, 128)], .const, [⟨31, 0, .ro, 0x0⟩]⟩,
  ⟨"REEL_CSTAMP", 0x10004C, [(0x400, 128)], .const, [⟨31, 0, .ro, 0x0⟩]⟩,
  ⟨"REEL_PKT", 0x100050, [(0x400, 128)], .const, [⟨31, 16, .ro, 0x0⟩, ⟨15, 0, .ro, 0x0⟩]⟩,
  ⟨"REEL_PICS", 0x100054, [(0x400, 128)], .const, [⟨31, 16, .ro, 0x0⟩, ⟨15, 0, .ro, 0x0⟩]⟩,
  ⟨"REEL_ERR", 0x100058, [(0x400, 128)], .const, [⟨31, 16, .ro, 0x0⟩, ⟨15, 8, .ro, 0x0⟩, ⟨7, 0, .ro, 0x0⟩]⟩,
  ⟨"REEL_MAPS", 0x10005C, [(0x400, 128)], .const, [⟨31, 16, .ro, 0x0⟩, ⟨15, 0, .ro, 0x0⟩]⟩,
  ⟨"REEL_ENGINE", 0x100060, [(0x400, 128)], .const, [⟨28, 24, .ro, 0x0⟩, ⟨15, 0, .ro, 0x0⟩]⟩]

/-- Registers of the ENC block. -/
def regsEnc : List RegDesc := [
  ⟨"ENC_SRC", 0x120000, [(0x200, 128)], .const, [⟨28, 24, .rwl, 0x0⟩, ⟨23, 20, .rwl, 0x1⟩, ⟨16, 16, .rwl, 0x0⟩]⟩,
  ⟨"ENC_RECT_POS", 0x120004, [(0x200, 128)], .const, [⟨28, 16, .rwl, 0x0⟩, ⟨12, 0, .rwl, 0x0⟩]⟩,
  ⟨"ENC_RECT_SIZE", 0x120008, [(0x200, 128)], .const, [⟨28, 16, .rwl, 0x0⟩, ⟨12, 0, .rwl, 0x0⟩]⟩,
  ⟨"ENC_GOP", 0x12000C, [(0x200, 128)], .const, [⟨31, 31, .w1s, 0x0⟩, ⟨23, 16, .rws, 0x10⟩, ⟨15, 0, .rws, 0x3C⟩]⟩,
  ⟨"ENC_RATE", 0x120010, [(0x200, 128)], .const, [⟨23, 0, .rws, 0x4E20⟩]⟩,
  ⟨"ENC_CAP", 0x120014, [(0x200, 128)], .const, [⟨23, 0, .rws, 0x0⟩]⟩,
  ⟨"ENC_QP", 0x120018, [(0x200, 128)], .const, [⟨29, 24, .rws, 0x20⟩, ⟨21, 16, .rws, 0x2D⟩, ⟨13, 8, .rws, 0xA⟩, ⟨4, 0, .rws, 0x1C⟩]⟩,
  ⟨"ENC_NET", 0x12001C, [(0x200, 128)], .const, [⟨31, 31, .rws, 0x0⟩, ⟨29, 24, .rws, 0x0⟩, ⟨22, 16, .rws, 0x60⟩, ⟨15, 0, .rws, 0x0⟩]⟩,
  ⟨"ENC_DST", 0x120020, [(0x200, 128), (0x4, 4)], .const, [⟨31, 0, .rws, 0x0⟩]⟩,
  ⟨"ENC_SSRC", 0x120030, [(0x200, 128)], .const, [⟨31, 0, .rws, 0x0⟩]⟩,
  ⟨"ENC_RING_BASE", 0x120034, [(0x200, 128)], .const, [⟨31, 0, .rwl, 0x0⟩]⟩,
  ⟨"ENC_RING_SIZE", 0x120038, [(0x200, 128)], .const, [⟨15, 0, .rwl, 0x0⟩]⟩,
  ⟨"ENC_RING_RD", 0x12003C, [(0x200, 128)], .const, [⟨31, 0, .rw, 0x0⟩]⟩,
  ⟨"ENC_RING_WR", 0x120040, [(0x200, 128)], .const, [⟨31, 0, .ro, 0x0⟩]⟩,
  ⟨"ENC_STATUS", 0x120044, [(0x200, 128)], .const, [⟨31, 29, .ro, 0x0⟩, ⟨28, 28, .ro, 0x0⟩, ⟨27, 27, .ro, 0x0⟩, ⟨26, 26, .w1c, 0x0⟩, ⟨21, 16, .ro, 0x0⟩]⟩,
  ⟨"ENC_FRAMES", 0x120048, [(0x200, 128)], .const, [⟨31, 16, .ro, 0x0⟩, ⟨15, 0, .ro, 0x0⟩]⟩,
  ⟨"ENC_CARRY", 0x12004C, [(0x200, 128)], .const, [⟨31, 0, .ro, 0x0⟩]⟩,
  ⟨"ENC_ROI_POS", 0x120100, [(0x200, 128), (0x10, 8)], .const, [⟨28, 16, .rws, 0x0⟩, ⟨12, 0, .rws, 0x0⟩]⟩,
  ⟨"ENC_ROI_SIZE", 0x120104, [(0x200, 128), (0x10, 8)], .const, [⟨28, 16, .rws, 0x0⟩, ⟨12, 0, .rws, 0x0⟩]⟩,
  ⟨"ENC_ROI_CTRL", 0x120108, [(0x200, 128), (0x10, 8)], .const, [⟨31, 31, .rws, 0x0⟩, ⟨4, 0, .rws, 0x0⟩]⟩]

/-- Registers of the HRT block. -/
def regsHrt : List RegDesc := [
  ⟨"HRT_CFG", 0x130000, [], .const, [⟨25, 24, .ro, 0x0⟩, ⟨23, 0, .ro, 0x0⟩]⟩,
  ⟨"HRT_SCHED", 0x130004, [], .const, [⟨7, 0, .rws, 0x14⟩]⟩,
  ⟨"HRT_SCRUB", 0x130008, [], .const, [⟨31, 31, .rws, 0x1⟩, ⟨7, 0, .rws, 0x18⟩]⟩,
  ⟨"HRT_TRAIN", 0x13000C, [], .const, [⟨31, 31, .rws, 0x1⟩, ⟨23, 16, .rws, 0xA⟩, ⟨15, 8, .rws, 0xA⟩, ⟨7, 0, .rws, 0xA⟩]⟩,
  ⟨"HRT_CE_LIMIT", 0x130010, [], .const, [⟨15, 0, .rws, 0x10⟩]⟩,
  ⟨"HRT_CH_STAT", 0x130100, [(0x20, 24)], .const, [⟨31, 29, .ro, 0x0⟩, ⟨23, 20, .ro, 0x0⟩, ⟨19, 18, .ro, 0x0⟩, ⟨15, 0, .ro, 0x0⟩]⟩,
  ⟨"HRT_CH_ECC", 0x130104, [(0x20, 24)], .const, [⟨31, 16, .ro, 0x0⟩, ⟨15, 0, .ro, 0x0⟩]⟩,
  ⟨"HRT_CH_ERRADDR", 0x130108, [(0x20, 24)], .const, [⟨31, 0, .ro, 0x0⟩]⟩,
  ⟨"HRT_CH_ERRSRC", 0x13010C, [(0x20, 24)], .const, [⟨31, 31, .ro, 0x0⟩, ⟨30, 30, .ro, 0x0⟩, ⟨7, 0, .ro, 0x0⟩]⟩,
  ⟨"HRT_CH_TRAIN", 0x130110, [(0x20, 24)], .const, [⟨31, 16, .ro, 0x0⟩, ⟨15, 8, .ro, 0x0⟩, ⟨7, 0, .ro, 0x0⟩]⟩,
  ⟨"HRT_CH_TRAFFIC", 0x130114, [(0x20, 24)], .const, [⟨31, 16, .ro, 0x0⟩, ⟨15, 0, .ro, 0x0⟩]⟩,
  ⟨"HRT_CH_PANIC", 0x130118, [(0x20, 24)], .const, [⟨31, 16, .ro, 0x0⟩, ⟨15, 0, .ro, 0x0⟩]⟩,
  ⟨"HRT_RT_PORT", 0x130800, [(0x4, 64)], .panicFill, [⟨31, 31, .ro, 0x0⟩, ⟨23, 16, .ro, 0x0⟩, ⟨3, 0, .rws, 0x0⟩]⟩]

/-- Registers of the MTX block. -/
def regsMtx : List RegDesc := [
  ⟨"MTX_SLICE", 0x140000, [], .const, [⟨15, 0, .ro, 0x0⟩]⟩,
  ⟨"MTX_STARVE", 0x140004, [], .const, [⟨15, 0, .rws, 0x400⟩]⟩,
  ⟨"MTX_FENCE", 0x140008, [], .const, [⟨31, 0, .ro, 0x1⟩]⟩,
  ⟨"MTX_LINK_STAT", 0x140020, [(0x4, 3)], .const, [⟨31, 16, .ro, 0x0⟩, ⟨15, 0, .ro, 0x0⟩]⟩,
  ⟨"MTX_PRIO", 0x141000, [(0x4, 161)], .const, [⟨23, 20, .rws, 0x0⟩, ⟨19, 16, .rws, 0x0⟩, ⟨15, 12, .rws, 0x0⟩, ⟨11, 8, .rws, 0x0⟩, ⟨7, 4, .rws, 0x0⟩, ⟨3, 0, .rws, 0x0⟩]⟩]

/-- Registers of the MPU block. -/
def regsMpu : List RegDesc := [
  ⟨"MPU_EPOCH", 0x150000, [(0x4000, 3)], .const, [⟨15, 0, .ro, 0x0⟩]⟩,
  ⟨"MPU_UPD_START", 0x150010, [(0x4000, 3)], .const, [⟨31, 0, .rw, 0x0⟩]⟩,
  ⟨"MPU_UPD_END", 0x150014, [(0x4000, 3)], .const, [⟨31, 0, .rw, 0x0⟩]⟩,
  ⟨"MPU_UPD_PERM", 0x150018, [(0x4000, 3)], .const, [⟨31, 0, .rw, 0x0⟩]⟩,
  ⟨"MPU_UPD_CTRL", 0x15001C, [(0x4000, 3)], .const, [⟨31, 0, .rw, 0x0⟩]⟩,
  ⟨"MPU_UPD_GO", 0x150020, [(0x4000, 3)], .const, [⟨31, 31, .w1s, 0x0⟩, ⟨7, 0, .rw, 0x0⟩]⟩,
  ⟨"MPU_UPD_STAT", 0x150024, [(0x4000, 3)], .const, [⟨31, 31, .ro, 0x0⟩, ⟨30, 30, .w1c, 0x0⟩, ⟨29, 29, .w1c, 0x0⟩, ⟨28, 28, .w1c, 0x0⟩, ⟨15, 0, .ro, 0x0⟩]⟩,
  ⟨"MPU_VIOL_ADDR", 0x150030, [(0x4000, 3)], .const, [⟨31, 0, .ro, 0x0⟩]⟩,
  ⟨"MPU_VIOL_INFO", 0x150034, [(0x4000, 3)], .const, [⟨24, 16, .ro, 0x0⟩, ⟨10, 8, .ro, 0x0⟩, ⟨7, 0, .ro, 0x0⟩]⟩,
  ⟨"MPU_VIOL_COUNT", 0x150038, [(0x4000, 3)], .const, [⟨31, 0, .ro, 0x0⟩]⟩,
  ⟨"MPU_RGN_START", 0x151000, [(0x4000, 3), (0x10, 256)], .const, [⟨31, 0, .ro, 0x0⟩]⟩,
  ⟨"MPU_RGN_END", 0x151004, [(0x4000, 3), (0x10, 256)], .const, [⟨31, 0, .ro, 0x0⟩]⟩,
  ⟨"MPU_RGN_PERM", 0x151008, [(0x4000, 3), (0x10, 256)], .const, [⟨17, 0, .ro, 0x0⟩]⟩,
  ⟨"MPU_RGN_CTRL", 0x15100C, [(0x4000, 3), (0x10, 256)], .const, [⟨31, 31, .ro, 0x0⟩, ⟨30, 30, .ro, 0x0⟩, ⟨8, 0, .ro, 0x0⟩]⟩]

/-- Registers of the LANE block. -/
def regsLane : List RegDesc := [
  ⟨"LANE_QUAD", 0x160000, [], .const, [⟨31, 24, .ro, 0x0⟩, ⟨23, 16, .ro, 0x0⟩, ⟨15, 8, .ro, 0x0⟩, ⟨7, 0, .ro, 0x0⟩]⟩,
  ⟨"LANE_TRAIN_CFG", 0x160004, [], .const, [⟨23, 16, .rws, 0xA⟩, ⟨7, 0, .rws, 0x60⟩]⟩,
  ⟨"LANE_UP", 0x160010, [(0x4, 4)], .const, [⟨31, 0, .ro, 0x0⟩]⟩,
  ⟨"LANE_CFG", 0x161000, [(0x40, 128)], .const, [⟨29, 24, .ro, 0x3F⟩, ⟨21, 20, .ro, 0x0⟩, ⟨19, 16, .ro, 0x0⟩, ⟨11, 8, .ro, 0xF⟩, ⟨1, 1, .ro, 0x0⟩, ⟨0, 0, .ro, 0x0⟩]⟩,
  ⟨"LANE_CTRL", 0x161004, [(0x40, 128)], .const, [⟨31, 31, .w1s, 0x0⟩, ⟨30, 30, .rws, 0x0⟩, ⟨7, 0, .rws, 0x40⟩]⟩,
  ⟨"LANE_STATUS", 0x161008, [(0x40, 128)], .const, [⟨31, 28, .ro, 0x0⟩, ⟨27, 24, .ro, 0x0⟩, ⟨23, 23, .ro, 0x0⟩, ⟨22, 22, .ro, 0x0⟩, ⟨21, 21, .ro, 0x0⟩, ⟨20, 18, .ro, 0x0⟩, ⟨7, 0, .ro, 0x0⟩]⟩,
  ⟨"LANE_TXEQ", 0x16100C, [(0x40, 128)], .const, [⟨31, 28, .ro, 0xF⟩, ⟨23, 16, .ro, 0x3F⟩, ⟨12, 8, .ro, 0x0⟩, ⟨3, 0, .ro, 0x0⟩]⟩,
  ⟨"LANE_RXEQ", 0x161010, [(0x40, 128)], .const, [⟨27, 24, .ro, 0x0⟩, ⟨18, 16, .ro, 0x0⟩, ⟨7, 0, .ro, 0x0⟩]⟩,
  ⟨"LANE_DFE", 0x161014, [(0x40, 128)], .const, [⟨31, 24, .ro, 0x0⟩, ⟨23, 16, .ro, 0x0⟩, ⟨15, 8, .ro, 0x0⟩, ⟨7, 0, .ro, 0x0⟩]⟩,
  ⟨"LANE_EYE", 0x161018, [(0x40, 128)], .const, [⟨23, 16, .ro, 0x0⟩, ⟨14, 8, .ro, 0x0⟩, ⟨7, 0, .ro, 0x0⟩]⟩,
  ⟨"LANE_SURVEY", 0x16101C, [(0x40, 128)], .const, [⟨31, 31, .ro, 0x0⟩, ⟨30, 30, .ro, 0x0⟩, ⟨23, 12, .ro, 0x0⟩, ⟨7, 0, .ro, 0x0⟩]⟩,
  ⟨"LANE_TEST", 0x161020, [(0x40, 128)], .const, [⟨31, 29, .rwl, 0x0⟩, ⟨26, 24, .rwl, 0x4⟩, ⟨23, 23, .w1s, 0x0⟩, ⟨22, 22, .ro, 0x0⟩, ⟨15, 12, .rwl, 0x0⟩, ⟨5, 0, .rwl, 0x0⟩]⟩,
  ⟨"LANE_PRBS_ERR", 0x161024, [(0x40, 128)], .const, [⟨31, 0, .ro, 0x0⟩]⟩,
  ⟨"LANE_PRBS_BITS", 0x161028, [(0x40, 128)], .const, [⟨31, 0, .ro, 0x0⟩]⟩,
  ⟨"LANE_COUNTS", 0x16102C, [(0x40, 128)], .const, [⟨31, 24, .ro, 0x0⟩, ⟨23, 16, .ro, 0x0⟩, ⟨15, 8, .ro, 0x0⟩, ⟨7, 0, .ro, 0x0⟩]⟩,
  ⟨"LANE_SKEW", 0x161030, [(0x40, 128)], .const, [⟨25, 24, .ro, 0x0⟩, ⟨15, 0, .ro, 0x0⟩]⟩]

/-- Registers of the PORT block (1 of 2). -/
def regsPort0 : List RegDesc := [
  ⟨"PORT_CFG", 0x171000, [(0x100, 53)], .const, [⟨31, 31, .rws, 0x0⟩, ⟨30, 28, .ro, 0x0⟩, ⟨25, 24, .ro, 0x0⟩, ⟨23, 20, .ro, 0x0⟩]⟩,
  ⟨"PORT_STATUS", 0x171004, [(0x100, 53)], .const, [⟨31, 28, .ro, 0x0⟩, ⟨27, 24, .ro, 0x0⟩, ⟨23, 22, .ro, 0x0⟩, ⟨21, 21, .ro, 0x0⟩, ⟨15, 0, .ro, 0x0⟩]⟩,
  ⟨"PORT_SINK_TOTAL", 0x171010, [(0x100, 16)], .const, [⟨31, 16, .ro, 0x0⟩, ⟨15, 0, .ro, 0x0⟩]⟩,
  ⟨"PORT_SINK_ACTIVE", 0x171014, [(0x100, 16)], .const, [⟨31, 16, .ro, 0x0⟩, ⟨15, 0, .ro, 0x0⟩]⟩,
  ⟨"PORT_SINK_FMT", 0x171018, [(0x100, 16)], .const, [⟨31, 31, .ro, 0x0⟩, ⟨30, 30, .ro, 0x0⟩, ⟨27, 24, .ro, 0x0⟩, ⟨23, 20, .ro, 0x0⟩, ⟨19, 19, .ro, 0x0⟩, ⟨11, 8, .ro, 0x0⟩]⟩,
  ⟨"PORT_SINK_PERIOD", 0x17101C, [(0x100, 16)], .const, [⟨31, 0, .ro, 0x0⟩]⟩,
  ⟨"PORT_SRC_CAP", 0x172010, [(0x100, 24)], .const, [⟨31, 24, .ro, 0x0⟩, ⟨23, 20, .ro, 0x0⟩, ⟨19, 17, .ro, 0x0⟩, ⟨16, 16, .ro, 0x0⟩, ⟨2, 0, .ro, 0x0⟩]⟩,
  ⟨"PORT_SRC_PREF", 0x172014, [(0x100, 24)], .const, [⟨31, 16, .ro, 0x0⟩, ⟨15, 0, .ro, 0x0⟩]⟩,
  ⟨"PORT_SRC_PREF_CLK", 0x172018, [(0x100, 24)], .const, [⟨31, 0, .ro, 0x0⟩]⟩,
  ⟨"PORT_SRC_LEVEL", 0x17201C, [(0x100, 24)], .const, [⟨31, 0, .ro, 0x0⟩]⟩,
  ⟨"PORT_ETH_CTRL", 0x173810, [(0x100, 8)], .const, [⟨31, 31, .ro, 0x0⟩, ⟨30, 30, .rws, 0x0⟩, ⟨15, 13, .rws, 0x0⟩, ⟨12, 12, .rws, 0x0⟩, ⟨11, 0, .rws, 0x0⟩]⟩,
  ⟨"PORT_ETH_IP4", 0x173814, [(0x100, 8)], .const, [⟨31, 0, .rws, 0x0⟩]⟩,
  ⟨"PORT_ETH_GW4", 0x173818, [(0x100, 8)], .const, [⟨31, 0, .rws, 0x0⟩]⟩,
  ⟨"PORT_ETH_PREFIX", 0x17381C, [(0x100, 8)], .const, [⟨15, 8, .rws, 0x40⟩, ⟨7, 0, .rws, 0x18⟩]⟩,
  ⟨"PORT_ETH_IP6", 0x173820, [(0x100, 8), (0x4, 4)], .const, [⟨31, 0, .rws, 0x0⟩]⟩,
  ⟨"PORT_ETH_GW6", 0x173830, [(0x100, 8), (0x4, 4)], .const, [⟨31, 0, .rws, 0x0⟩]⟩,
  ⟨"PORT_ETH_DSCP", 0x173840, [(0x100, 8)], .const, [⟨29, 24, .rws, 0x38⟩, ⟨21, 16, .rws, 0x2E⟩, ⟨13, 8, .rws, 0x22⟩]⟩,
  ⟨"PORT_ETH_DROP", 0x173844, [(0x100, 8)], .const, [⟨31, 16, .ro, 0x0⟩, ⟨15, 0, .ro, 0x0⟩]⟩,
  ⟨"PORT_ETH_FEC", 0x173848, [(0x100, 8)], .const, [⟨31, 16, .ro, 0x0⟩, ⟨15, 0, .ro, 0x0⟩]⟩,
  ⟨"PORT_PCIE_LINK", 0x174010, [], .const, [⟨31, 28, .ro, 0x0⟩, ⟨27, 24, .ro, 0x0⟩, ⟨23, 16, .ro, 0x0⟩, ⟨15, 8, .ro, 0x0⟩, ⟨7, 0, .ro, 0x0⟩]⟩]

/-- Registers of the PORT block (2 of 2). -/
def regsPort1 : List RegDesc := [
  ⟨"PORT_PCIE_WIN", 0x174014, [], .const, [⟨21, 0, .rw, 0x0⟩]⟩,
  ⟨"PORT_EDID", 0x178000, [(0x200, 24), (0x4, 128)], .const, [⟨31, 0, .ro, 0x0⟩]⟩]

/-- Registers of the PORT block. -/
def regsPort : List RegDesc := regsPort0 ++ regsPort1

/-- Registers of the CRL block. -/
def regsCrl : List RegDesc := [
  ⟨"CRL_SYS", 0x180000, [], .const, [⟨31, 31, .ro, 0x0⟩, ⟨26, 24, .ro, 0x0⟩, ⟨23, 16, .ro, 0x0⟩, ⟨7, 0, .ro, 0x0⟩]⟩,
  ⟨"CRL_CFG", 0x180004, [], .const, [⟨23, 16, .rws, 0xA⟩, ⟨15, 0, .rws, 0xC8⟩]⟩,
  ⟨"CRL_LINK_STATUS", 0x180100, [(0x40, 4)], .const, [⟨31, 28, .ro, 0x0⟩, ⟨26, 24, .ro, 0x0⟩, ⟨15, 12, .ro, 0x0⟩, ⟨11, 0, .ro, 0x0⟩]⟩,
  ⟨"CRL_LINK_DELAY", 0x180104, [(0x40, 4)], .const, [⟨15, 0, .ro, 0x0⟩]⟩,
  ⟨"CRL_LINK_CREDIT", 0x180108, [(0x40, 4)], .const, [⟨31, 16, .ro, 0x0⟩, ⟨15, 0, .ro, 0x0⟩]⟩,
  ⟨"CRL_LINK_RETRY", 0x18010C, [(0x40, 4)], .const, [⟨31, 16, .ro, 0x0⟩, ⟨15, 0, .ro, 0x0⟩]⟩,
  ⟨"CRL_LINK_LATE", 0x180110, [(0x40, 4)], .const, [⟨31, 16, .ro, 0x0⟩, ⟨15, 0, .ro, 0x0⟩]⟩,
  ⟨"CRL_IMP_CFG", 0x180400, [(0x10, 64)], .const, [⟨31, 31, .rws, 0x0⟩, ⟨26, 24, .rws, 0x0⟩, ⟨21, 16, .rws, 0x0⟩]⟩,
  ⟨"CRL_IMP_BUF", 0x180404, [(0x10, 64)], .const, [⟨31, 0, .rwl, 0x0⟩]⟩,
  ⟨"CRL_IMP_SIZE", 0x180408, [(0x10, 64)], .const, [⟨15, 0, .rwl, 0x0⟩]⟩,
  ⟨"CRL_IMP_STAT", 0x18040C, [(0x10, 64)], .const, [⟨31, 16, .ro, 0x0⟩, ⟨15, 0, .ro, 0x0⟩]⟩,
  ⟨"CRL_EXP_CFG", 0x180800, [(0x4, 64)], .const, [⟨3, 0, .rws, 0x0⟩]⟩,
  ⟨"CRL_REG_CMD", 0x180C00, [], .const, [⟨31, 31, .w1s, 0x0⟩, ⟨30, 30, .ro, 0x0⟩, ⟨29, 28, .ro, 0x0⟩, ⟨27, 27, .rw, 0x0⟩, ⟨25, 24, .rw, 0x0⟩, ⟨20, 16, .rw, 0x1⟩]⟩,
  ⟨"CRL_REG_ADDR", 0x180C04, [], .const, [⟨23, 0, .rw, 0x0⟩]⟩,
  ⟨"CRL_REG_DATA", 0x180C40, [(0x4, 16)], .const, [⟨31, 0, .rw, 0x0⟩]⟩]

/-- Registers of the AUD block. -/
def regsAud : List RegDesc := [
  ⟨"AUD_GRP", 0x190000, [(0x4, 3)], .const, [⟨31, 31, .rwl, 0x0⟩, ⟨27, 24, .rwl, 0x0⟩, ⟨20, 20, .ro, 0x0⟩, ⟨17, 0, .ro, 0x0⟩]⟩,
  ⟨"AUD_IEC_CFG", 0x190100, [(0x40, 8)], .const, [⟨31, 30, .rwl, 0x0⟩, ⟨29, 29, .rwl, 0x0⟩, ⟨28, 28, .rwl, 0x1⟩, ⟨27, 24, .rwl, 0x2⟩, ⟨21, 20, .rwl, 0x2⟩]⟩,
  ⟨"AUD_IEC_STAT", 0x190104, [(0x40, 8)], .const, [⟨31, 31, .ro, 0x0⟩, ⟨30, 30, .ro, 0x0⟩, ⟨29, 28, .ro, 0x0⟩, ⟨27, 24, .ro, 0xF⟩, ⟨15, 0, .ro, 0x0⟩]⟩,
  ⟨"AUD_IEC_CS", 0x190108, [(0x40, 8), (0x4, 6)], .const, [⟨31, 0, .rws, 0x0⟩]⟩,
  ⟨"AUD_TDM_CFG", 0x190400, [(0x20, 4)], .const, [⟨31, 31, .rwl, 0x0⟩, ⟨30, 30, .rwl, 0x0⟩, ⟨29, 29, .rwl, 0x1⟩, ⟨28, 27, .rwl, 0x1⟩, ⟨23, 20, .rwl, 0x2⟩]⟩,
  ⟨"AUD_TDM_SLOTS", 0x190404, [(0x20, 4)], .const, [⟨8, 8, .rw, 0x0⟩, ⟨7, 0, .rw, 0x0⟩]⟩,
  ⟨"AUD_TDM_STAT", 0x190408, [(0x20, 4)], .const, [⟨31, 31, .ro, 0x0⟩, ⟨23, 16, .ro, 0x0⟩]⟩,
  ⟨"AUD_AES_CFG", 0x190800, [(0x20, 64)], .const, [⟨31, 31, .rws, 0x0⟩, ⟨30, 30, .rwl, 0x0⟩, ⟨29, 24, .rwl, 0x28⟩, ⟨23, 23, .rwl, 0x0⟩, ⟨18, 16, .rwl, 0x1⟩, ⟨15, 0, .rwl, 0x0⟩]⟩,
  ⟨"AUD_AES_ADDR", 0x190804, [(0x20, 64), (0x4, 4)], .const, [⟨31, 0, .rwl, 0x0⟩]⟩,
  ⟨"AUD_AES_RTP_OFS", 0x190814, [(0x20, 64)], .const, [⟨31, 0, .rwl, 0x0⟩]⟩,
  ⟨"AUD_AES_NET", 0x190818, [(0x20, 64)], .const, [⟨31, 31, .ro, 0x0⟩, ⟨22, 16, .rwl, 0x61⟩, ⟨15, 0, .ro, 0x0⟩]⟩,
  ⟨"AUD_AES_SSRC", 0x19081C, [(0x20, 64)], .const, [⟨31, 0, .rwl, 0x0⟩]⟩,
  ⟨"AUD_RT_EP", 0x191000, [(0x20, 32)], .const, [⟨31, 28, .rwl, 0x0⟩, ⟨27, 16, .rwl, 0x0⟩, ⟨15, 12, .rwl, 0x0⟩, ⟨11, 0, .rwl, 0x0⟩]⟩,
  ⟨"AUD_RT_CTRL", 0x191004, [(0x20, 32)], .const, [⟨31, 31, .rws, 0x0⟩, ⟨30, 30, .rwl, 0x0⟩, ⟨26, 24, .rwl, 0x1⟩, ⟨23, 16, .rwl, 0xFF⟩, ⟨15, 0, .rwl, 0x0⟩]⟩,
  ⟨"AUD_RT_MAP", 0x191008, [(0x20, 32)], .const, [⟨31, 0, .rwl, 0x76543210⟩]⟩,
  ⟨"AUD_RT_STAT", 0x19100C, [(0x20, 32)], .const, [⟨31, 29, .ro, 0x0⟩, ⟨15, 0, .ro, 0x0⟩]⟩,
  ⟨"AUD_RT_ALIGN", 0x191010, [(0x20, 32)], .const, [⟨31, 16, .ro, 0x0⟩, ⟨15, 0, .ro, 0x0⟩]⟩,
  ⟨"AUD_ASRC_RATIO", 0x191800, [(0x8, 16)], .const, [⟨31, 0, .ro, 0x1000000⟩]⟩,
  ⟨"AUD_ASRC_STAT", 0x191804, [(0x8, 16)], .const, [⟨31, 31, .ro, 0x0⟩, ⟨7, 0, .ro, 0xFF⟩]⟩]

/-- Registers of the TCH block. -/
def regsTch : List RegDesc := [
  ⟨"TCH_STATUS", 0x1A0000, [], .const, [⟨15, 12, .w1c, 0x0⟩, ⟨11, 8, .ro, 0x0⟩, ⟨7, 4, .ro, 0x0⟩, ⟨3, 0, .ro, 0x0⟩]⟩,
  ⟨"TCH_RING_BASE", 0x1A0004, [], .const, [⟨31, 0, .rwl, 0x0⟩]⟩,
  ⟨"TCH_RING_SIZE", 0x1A0008, [], .const, [⟨31, 0, .rwl, 0x0⟩]⟩,
  ⟨"TCH_RING_RD", 0x1A000C, [], .const, [⟨31, 0, .rw, 0x0⟩]⟩,
  ⟨"TCH_RING_WR", 0x1A0010, [], .const, [⟨31, 0, .ro, 0x0⟩]⟩,
  ⟨"TCH_NODE_SEL", 0x1A0014, [], .const, [⟨0, 0, .rw, 0x0⟩]⟩,
  ⟨"TCH_OPEN", 0x1A0040, [(0x4, 10)], .const, [⟨31, 0, .ro, 0x0⟩]⟩,
  ⟨"TCH_SHORT", 0x1A0080, [(0x4, 10)], .const, [⟨31, 0, .ro, 0x0⟩]⟩,
  ⟨"TCH_PNL_CTRL", 0x1A0100, [(0x40, 4)], .const, [⟨31, 31, .rws, 0x0⟩, ⟨30, 30, .rws, 0x0⟩, ⟨29, 29, .w1s, 0x0⟩, ⟨28, 28, .w1s, 0x0⟩, ⟨25, 24, .rws, 0x2⟩, ⟨17, 17, .rws, 0x1⟩, ⟨16, 16, .rws, 0x1⟩, ⟨15, 8, .rws, 0x14⟩, ⟨7, 0, .rws, 0xA⟩]⟩,
  ⟨"TCH_PNL_DRIVE", 0x1A0104, [(0x40, 4)], .const, [⟨31, 16, .rwl, 0x1F4⟩, ⟨15, 0, .rwl, 0xC⟩]⟩,
  ⟨"TCH_PNL_QW", 0x1A0108, [(0x40, 4)], .const, [⟨31, 16, .rwl, 0x320⟩, ⟨15, 0, .rwl, 0x708⟩]⟩,
  ⟨"TCH_PNL_THR", 0x1A010C, [(0x40, 4)], .const, [⟨31, 24, .rws, 0x96⟩, ⟨23, 16, .rws, 0x64⟩, ⟨15, 8, .rws, 0x3C⟩, ⟨3, 0, .rws, 0x8⟩]⟩,
  ⟨"TCH_PNL_TEST", 0x1A0110, [(0x40, 4)], .const, [⟨31, 31, .ro, 0x0⟩, ⟨30, 30, .ro, 0x0⟩, ⟨15, 8, .rws, 0x40⟩, ⟨7, 0, .rws, 0x20⟩]⟩,
  ⟨"TCH_PNL_STAT", 0x1A0114, [(0x40, 4)], .const, [⟨31, 29, .ro, 0x0⟩, ⟨28, 28, .ro, 0x0⟩, ⟨15, 0, .ro, 0x0⟩]⟩,
  ⟨"TCH_OVL_MAP", 0x1A0400, [(0x10, 16)], .const, [⟨31, 24, .ro, 0x0⟩, ⟨23, 16, .ro, 0x0⟩, ⟨15, 8, .ro, 0x0⟩, ⟨7, 0, .ro, 0x0⟩]⟩,
  ⟨"TCH_OVL_SURVEY", 0x1A0404, [(0x10, 16)], .const, [⟨23, 16, .ro, 0xF⟩, ⟨15, 8, .ro, 0x0⟩, ⟨7, 0, .ro, 0x0⟩]⟩,
  ⟨"TCH_OVL_STAT", 0x1A0408, [(0x10, 16)], .const, [⟨31, 30, .ro, 0x0⟩, ⟨19, 16, .ro, 0x0⟩, ⟨15, 0, .ro, 0x0⟩]⟩]

/-- Registers of the PWR block. -/
def regsPwr : List RegDesc := [
  ⟨"PWR_STATUS", 0x1B0000, [], .const, [⟨31, 31, .ro, 0x0⟩, ⟨30, 30, .ro, 0x0⟩, ⟨29, 29, .ro, 0x0⟩, ⟨16, 0, .ro, 0x7⟩]⟩,
  ⟨"PWR_DOMAIN_FAULT", 0x1B0004, [], .const, [⟨16, 0, .w1c, 0x0⟩]⟩,
  ⟨"PWR_RST_CAUSE", 0x1B0008, [], .const, [⟨31, 16, .ro, 0x0⟩, ⟨4, 4, .ro, 0x0⟩, ⟨3, 3, .ro, 0x0⟩, ⟨2, 2, .ro, 0x0⟩, ⟨1, 1, .ro, 0x0⟩, ⟨0, 0, .ro, 0x1⟩]⟩,
  ⟨"PWR_BOOT", 0x1B000C, [], .const, [⟨1, 0, .ro, 0x0⟩]⟩,
  ⟨"PWR_RESET", 0x1B0010, [], .const, [⟨31, 16, .wo, 0x0⟩, ⟨0, 0, .wo, 0x0⟩]⟩,
  ⟨"PWR_WAKE", 0x1B0014, [], .const, [⟨31, 31, .w1c, 0x0⟩, ⟨23, 0, .ro, 0x0⟩]⟩,
  ⟨"PWR_MON_CFG", 0x1B0100, [(0x8, 32)], .monWindow, [⟨31, 16, .rws, 0x0⟩, ⟨15, 0, .rws, 0x0⟩]⟩,
  ⟨"PWR_MON_STAT", 0x1B0104, [(0x8, 32)], .const, [⟨31, 31, .ro, 0x0⟩, ⟨30, 24, .ro, 0x0⟩, ⟨15, 0, .ro, 0x0⟩]⟩,
  ⟨"PWR_TEMP", 0x1B0200, [(0x4, 24)], .const, [⟨31, 31, .ro, 0x0⟩, ⟨15, 0, .ro, 0x0⟩]⟩]

/-- Registers of the INJ block. -/
def regsInj : List RegDesc := [
  ⟨"INJ_PERMIT", 0x1C0000, [], .const, [⟨31, 31, .w1c, 0x0⟩, ⟨4, 4, .ro, 0x0⟩, ⟨3, 3, .ro, 0x0⟩, ⟨2, 2, .ro, 0x0⟩, ⟨1, 1, .ro, 0x0⟩, ⟨0, 0, .ro, 0x0⟩]⟩,
  ⟨"INJ_SEED", 0x1C0004, [], .const, [⟨31, 0, .rw, 0x1⟩]⟩,
  ⟨"INJ_RX_CFG", 0x1C0100, [(0x4, 12)], .const, [⟨31, 30, .rw, 0x0⟩, ⟨26, 24, .rw, 0x1⟩, ⟨15, 0, .rw, 0x0⟩]⟩,
  ⟨"INJ_VOTER", 0x1C0200, [], .const, [⟨31, 31, .rw, 0x0⟩, ⟨20, 16, .rw, 0x0⟩, ⟨15, 0, .rw, 0x0⟩]⟩,
  ⟨"INJ_VOTER_XOR", 0x1C0204, [], .const, [⟨31, 0, .rw, 0x1⟩]⟩,
  ⟨"INJ_DRAM", 0x1C0300, [], .const, [⟨31, 31, .rw, 0x0⟩, ⟨25, 24, .rw, 0x1⟩, ⟨20, 16, .rw, 0x0⟩, ⟨15, 0, .rw, 0x0⟩]⟩,
  ⟨"INJ_LANE", 0x1C0400, [], .const, [⟨31, 31, .rw, 0x0⟩, ⟨22, 16, .rw, 0x0⟩, ⟨5, 0, .rw, 0x14⟩]⟩]

/-- Registers of the TILE block. -/
def regsTile : List RegDesc := [
  ⟨"TILE", 0x400000, [(0x10, 262144), (0x4, 4)], .const, [⟨31, 0, .ro, 0x0⟩]⟩]

/-- The registers of the block whose range holds aperture offset `a` (R522). -/
def regsOf (a : Nat) : List RegDesc :=
  if a < 0x10000 then regsGlb
  else if a < 0x20000 then regsTick
  else if a < 0x30000 then regsImg
  else if a < 0x40000 then regsClap
  else if a < 0x80000 then regsLyr
  else if a < 0x90000 then regsCmp
  else if a < 0xA0000 then regsFrs
  else if a < 0xB0000 then regsSnt
  else if a < 0xC0000 then regsCrt
  else if a < 0xD0000 then regsWdn
  else if a < 0xE0000 then regsDmp
  else if a < 0xF0000 then regsTmb
  else if a < 0x100000 then regsChk
  else if a < 0x120000 then regsReel
  else if a < 0x130000 then regsEnc
  else if a < 0x140000 then regsHrt
  else if a < 0x150000 then regsMtx
  else if a < 0x160000 then regsMpu
  else if a < 0x170000 then regsLane
  else if a < 0x180000 then regsPort
  else if a < 0x190000 then regsCrl
  else if a < 0x1A0000 then regsAud
  else if a < 0x1B0000 then regsTch
  else if a < 0x1C0000 then regsPwr
  else if a < 0x1D0000 then regsInj
  else if 0x400000 ≤ a ∧ a < 0x800000 then regsTile
  else []

namespace R

def GLB_ID_PART : Fld := ⟨0x000000, 31, 16⟩
def GLB_ID_STEPPING : Fld := ⟨0x000000, 7, 0⟩
def GLB_STATUS_PKG_FAULT : Fld := ⟨0x000004, 31, 31⟩
def GLB_STATUS_CONFIGURED : Fld := ⟨0x000004, 30, 30⟩
def GLB_STATUS_TICK_RUN : Fld := ⟨0x000004, 29, 29⟩
def GLB_STATUS_HOLDOVER : Fld := ⟨0x000004, 28, 28⟩
def GLB_STATUS_FAULT_HOLD : Fld := ⟨0x000004, 27, 27⟩
def GLB_STATUS_GLASS : Fld := ⟨0x000004, 26, 26⟩
def GLB_STATUS_EMERGENCY : Fld := ⟨0x000004, 25, 25⟩
def GLB_STATUS_EVQ_NONEMPTY : Fld := ⟨0x000004, 24, 24⟩
def GLB_STATUS_EVQ_OVERFLOW : Fld := ⟨0x000004, 23, 23⟩
def GLB_STATUS_STAGE : Fld := ⟨0x000004, 22, 20⟩
def GLB_SCRATCH_VALUE : Fld := ⟨0x000008, 31, 0⟩
def GLB_ACCESS_PARTIAL : Fld := ⟨0x00000C, 31, 24⟩
def GLB_ACCESS_OFFSET : Fld := ⟨0x00000C, 23, 0⟩
def GLB_EVQ_RD_LAP : Fld := ⟨0x000020, 10, 10⟩
def GLB_EVQ_RD_INDEX : Fld := ⟨0x000020, 9, 0⟩
def GLB_EVQ_WR_LAP : Fld := ⟨0x000024, 10, 10⟩
def GLB_EVQ_WR_INDEX : Fld := ⟨0x000024, 9, 0⟩
def GLB_EVQ_STAT_OVERFLOW : Fld := ⟨0x000028, 31, 31⟩
def GLB_EVQ_STAT_UNREAD : Fld := ⟨0x000028, 26, 16⟩
def GLB_EVQ_STAT_LOST : Fld := ⟨0x000028, 15, 0⟩
def GLB_EVQ_CFG_HIWAT : Fld := ⟨0x00002C, 26, 16⟩
def GLB_EVQ_CFG_HIWAT_VEC : Fld := ⟨0x00002C, 5, 0⟩
def GLB_HIER_CNT_UNITS : Fld := ⟨0x000100, 31, 24⟩
def GLB_HIER_CNT_CLUSTERS : Fld := ⟨0x000100, 23, 16⟩
def GLB_HIER_CNT_REGIONS : Fld := ⟨0x000100, 15, 8⟩
def GLB_HIER_CNT_COMPUTE_DIES : Fld := ⟨0x000100, 7, 0⟩
def GLB_PKG_SYS_SIZE : Fld := ⟨0x000104, 19, 16⟩
def GLB_PKG_TICK_MASTER : Fld := ⟨0x000104, 8, 8⟩
def GLB_PKG_PKG_ID : Fld := ⟨0x000104, 2, 0⟩
def GLB_UNIT_SVC_IN_SERVICE : Fld := ⟨0x000108, 31, 0⟩
def GLB_UNIT_STANDIN_IDLE_STANDIN : Fld := ⟨0x00010C, 31, 0⟩
def GLB_CLUSTER_STAT_C7 : Fld := ⟨0x000110, 31, 28⟩
def GLB_CLUSTER_STAT_C6 : Fld := ⟨0x000110, 27, 24⟩
def GLB_CLUSTER_STAT_C5 : Fld := ⟨0x000110, 23, 20⟩
def GLB_CLUSTER_STAT_C4 : Fld := ⟨0x000110, 19, 16⟩
def GLB_CLUSTER_STAT_C3 : Fld := ⟨0x000110, 15, 12⟩
def GLB_CLUSTER_STAT_C2 : Fld := ⟨0x000110, 11, 8⟩
def GLB_CLUSTER_STAT_C1 : Fld := ⟨0x000110, 7, 4⟩
def GLB_CLUSTER_STAT_C0 : Fld := ⟨0x000110, 3, 0⟩
def GLB_REGION_STAT_REGION3 : Fld := ⟨0x000114, 15, 12⟩
def GLB_REGION_STAT_REGION2 : Fld := ⟨0x000114, 11, 8⟩
def GLB_REGION_STAT_REGION1 : Fld := ⟨0x000114, 7, 4⟩
def GLB_REGION_STAT_REGION0 : Fld := ⟨0x000114, 3, 0⟩
def GLB_EVQ_VEC0_ENABLE3 : Fld := ⟨0x000200, 31, 31⟩
def GLB_EVQ_VEC0_VECTOR3 : Fld := ⟨0x000200, 29, 24⟩
def GLB_EVQ_VEC0_ENABLE2 : Fld := ⟨0x000200, 23, 23⟩
def GLB_EVQ_VEC0_VECTOR2 : Fld := ⟨0x000200, 21, 16⟩
def GLB_EVQ_VEC0_ENABLE1 : Fld := ⟨0x000200, 15, 15⟩
def GLB_EVQ_VEC0_VECTOR1 : Fld := ⟨0x000200, 13, 8⟩
def GLB_EVQ_VEC0_ENABLE0 : Fld := ⟨0x000200, 7, 7⟩
def GLB_EVQ_VEC0_VECTOR0 : Fld := ⟨0x000200, 5, 0⟩
def GLB_EVQ_VEC1_ENABLE3 : Fld := ⟨0x000204, 31, 31⟩
def GLB_EVQ_VEC1_VECTOR3 : Fld := ⟨0x000204, 29, 24⟩
def GLB_EVQ_VEC1_ENABLE2 : Fld := ⟨0x000204, 23, 23⟩
def GLB_EVQ_VEC1_VECTOR2 : Fld := ⟨0x000204, 21, 16⟩
def GLB_EVQ_VEC1_ENABLE1 : Fld := ⟨0x000204, 15, 15⟩
def GLB_EVQ_VEC1_VECTOR1 : Fld := ⟨0x000204, 13, 8⟩
def GLB_EVQ_VEC1_ENABLE0 : Fld := ⟨0x000204, 7, 7⟩
def GLB_EVQ_VEC1_VECTOR0 : Fld := ⟨0x000204, 5, 0⟩
def GLB_EVQ_VEC2_ENABLE2 : Fld := ⟨0x000208, 23, 23⟩
def GLB_EVQ_VEC2_VECTOR2 : Fld := ⟨0x000208, 21, 16⟩
def GLB_EVQ_VEC2_ENABLE1 : Fld := ⟨0x000208, 15, 15⟩
def GLB_EVQ_VEC2_VECTOR1 : Fld := ⟨0x000208, 13, 8⟩
def GLB_EVQ_VEC2_ENABLE0 : Fld := ⟨0x000208, 7, 7⟩
def GLB_EVQ_VEC2_VECTOR0 : Fld := ⟨0x000208, 5, 0⟩
def GLB_EVQ_VEC3_ENABLE3 : Fld := ⟨0x00020C, 31, 31⟩
def GLB_EVQ_VEC3_VECTOR3 : Fld := ⟨0x00020C, 29, 24⟩
def GLB_EVQ_VEC3_ENABLE2 : Fld := ⟨0x00020C, 23, 23⟩
def GLB_EVQ_VEC3_VECTOR2 : Fld := ⟨0x00020C, 21, 16⟩
def GLB_EVQ_VEC3_ENABLE1 : Fld := ⟨0x00020C, 15, 15⟩
def GLB_EVQ_VEC3_VECTOR1 : Fld := ⟨0x00020C, 13, 8⟩
def GLB_EVQ_VEC3_ENABLE0 : Fld := ⟨0x00020C, 7, 7⟩
def GLB_EVQ_VEC3_VECTOR0 : Fld := ⟨0x00020C, 5, 0⟩
def GLB_EVQ_VEC4_ENABLE3 : Fld := ⟨0x000210, 31, 31⟩
def GLB_EVQ_VEC4_VECTOR3 : Fld := ⟨0x000210, 29, 24⟩
def GLB_EVQ_VEC4_ENABLE2 : Fld := ⟨0x000210, 23, 23⟩
def GLB_EVQ_VEC4_VECTOR2 : Fld := ⟨0x000210, 21, 16⟩
def GLB_EVQ_VEC4_ENABLE1 : Fld := ⟨0x000210, 15, 15⟩
def GLB_EVQ_VEC4_VECTOR1 : Fld := ⟨0x000210, 13, 8⟩
def GLB_EVQ_VEC4_ENABLE0 : Fld := ⟨0x000210, 7, 7⟩
def GLB_EVQ_VEC4_VECTOR0 : Fld := ⟨0x000210, 5, 0⟩
def GLB_EVQ_VEC5_ENABLE3 : Fld := ⟨0x000214, 31, 31⟩
def GLB_EVQ_VEC5_VECTOR3 : Fld := ⟨0x000214, 29, 24⟩
def GLB_EVQ_VEC5_ENABLE2 : Fld := ⟨0x000214, 23, 23⟩
def GLB_EVQ_VEC5_VECTOR2 : Fld := ⟨0x000214, 21, 16⟩
def GLB_EVQ_VEC5_ENABLE1 : Fld := ⟨0x000214, 15, 15⟩
def GLB_EVQ_VEC5_VECTOR1 : Fld := ⟨0x000214, 13, 8⟩
def GLB_EVQ_VEC5_ENABLE0 : Fld := ⟨0x000214, 7, 7⟩
def GLB_EVQ_VEC5_VECTOR0 : Fld := ⟨0x000214, 5, 0⟩
def GLB_EVQ_VEC6_ENABLE1 : Fld := ⟨0x000218, 15, 15⟩
def GLB_EVQ_VEC6_VECTOR1 : Fld := ⟨0x000218, 13, 8⟩
def GLB_EVQ_VEC6_ENABLE0 : Fld := ⟨0x000218, 7, 7⟩
def GLB_EVQ_VEC6_VECTOR0 : Fld := ⟨0x000218, 5, 0⟩
def GLB_INT_PEND_PENDING (i : Nat) : Fld := ⟨0x000220 + 0x4 * i, 31, 0⟩
def GLB_EVENT_WORD (i : Nat) (j : Nat) : Fld := ⟨0x008000 + 0x10 * i + 0x4 * j, 31, 0⟩
def TICK_CFG_PUB_GUARD : Fld := ⟨0x010000, 15, 8⟩
def TICK_CFG_RATE : Fld := ⟨0x010000, 3, 0⟩
def TICK_CTRL_IN_EDGE : Fld := ⟨0x010004, 24, 24⟩
def TICK_CTRL_SRC_SINK : Fld := ⟨0x010004, 19, 16⟩
def TICK_CTRL_LATE_LIMIT : Fld := ⟨0x010004, 11, 8⟩
def TICK_CTRL_RESYNC : Fld := ⟨0x010004, 2, 2⟩
def TICK_CTRL_SRC : Fld := ⟨0x010004, 1, 0⟩
def TICK_STATUS_RUN : Fld := ⟨0x010008, 31, 31⟩
def TICK_STATUS_LOCKED : Fld := ⟨0x010008, 30, 30⟩
def TICK_STATUS_HOLDOVER : Fld := ⟨0x010008, 29, 29⟩
def TICK_STATUS_SLEWING : Fld := ⟨0x010008, 28, 28⟩
def TICK_STATUS_ACTIVE_SRC : Fld := ⟨0x010008, 27, 26⟩
def TICK_COUNT_COUNT : Fld := ⟨0x01000C, 31, 0⟩
def TICK_EDGE_WUS_WUS : Fld := ⟨0x010010, 31, 0⟩
def TICK_PERIOD_NS_PERIOD : Fld := ⟨0x010014, 31, 0⟩
def TICK_PHASE_ERR_ERR : Fld := ⟨0x010018, 31, 0⟩
def TICK_LATE_TOTAL : Fld := ⟨0x01001C, 31, 16⟩
def TICK_LATE_CONSEC : Fld := ⟨0x01001C, 7, 0⟩
def TICK_BUILD_COMPLETE : Fld := ⟨0x010020, 16, 16⟩
def TICK_BUILD_LAST_BUILD_US : Fld := ⟨0x010020, 15, 0⟩
def IMG_CTRL_WAIT_TICKS : Fld := ⟨0x020000, 31, 16⟩
def IMG_CTRL_SRC : Fld := ⟨0x020000, 9, 8⟩
def IMG_CTRL_CANCEL : Fld := ⟨0x020000, 1, 1⟩
def IMG_CTRL_GO : Fld := ⟨0x020000, 0, 0⟩
def IMG_SRC_LO_ADDR : Fld := ⟨0x020004, 31, 0⟩
def IMG_SRC_HI_ADDR : Fld := ⟨0x020008, 31, 0⟩
def IMG_STATUS_LOAD_STATE : Fld := ⟨0x02000C, 31, 28⟩
def IMG_STATUS_SECTION : Fld := ⟨0x02000C, 27, 24⟩
def IMG_STATUS_CODE : Fld := ⟨0x02000C, 23, 16⟩
def IMG_STATUS_CONFIGURED : Fld := ⟨0x02000C, 5, 5⟩
def IMG_STATUS_FROM_SECONDARY : Fld := ⟨0x02000C, 4, 4⟩
def IMG_STATUS_UNPROVISIONED : Fld := ⟨0x02000C, 3, 3⟩
def IMG_STATUS_INJ_PERMITTED : Fld := ⟨0x02000C, 2, 2⟩
def IMG_STATUS_BUSY_HIT : Fld := ⟨0x02000C, 1, 1⟩
def IMG_DETAIL_OFFSET : Fld := ⟨0x020010, 31, 0⟩
def IMG_BUILD_LO_BUILD : Fld := ⟨0x020014, 31, 0⟩
def IMG_BUILD_HI_BUILD : Fld := ⟨0x020018, 31, 0⟩
def IMG_SVN_IMAGE_SVN : Fld := ⟨0x02001C, 15, 8⟩
def IMG_SVN_FUSE_SVN : Fld := ⟨0x02001C, 7, 0⟩
def IMG_SECT_RELOADED_TYPES : Fld := ⟨0x020020, 14, 1⟩
def IMG_WAITED_EDGES : Fld := ⟨0x020024, 15, 0⟩
def IMG_FUSE_STAT_LAST_RESULT : Fld := ⟨0x020028, 9, 8⟩
def IMG_FUSE_STAT_INJ_FORBID : Fld := ⟨0x020028, 4, 4⟩
def IMG_FUSE_STAT_SLOT1_REVOKED : Fld := ⟨0x020028, 3, 3⟩
def IMG_FUSE_STAT_SLOT1_PROG : Fld := ⟨0x020028, 2, 2⟩
def IMG_FUSE_STAT_SLOT0_REVOKED : Fld := ⟨0x020028, 1, 1⟩
def IMG_FUSE_STAT_SLOT0_PROG : Fld := ⟨0x020028, 0, 0⟩
def IMG_FUSE_PROG_UNLOCK : Fld := ⟨0x02002C, 31, 16⟩
def IMG_FUSE_PROG_OP : Fld := ⟨0x02002C, 3, 0⟩
def IMG_FUSE_DATA_HASH (i : Nat) : Fld := ⟨0x020030 + 0x4 * i, 31, 0⟩
def CLAP_ARM_ARM : Fld := ⟨0x030000, 0, 0⟩
def CLAP_STATUS_ARMED : Fld := ⟨0x030004, 31, 31⟩
def CLAP_STATUS_SEALED : Fld := ⟨0x030004, 30, 30⟩
def CLAP_STATUS_LATE : Fld := ⟨0x030004, 29, 29⟩
def CLAP_STATUS_DIRTY : Fld := ⟨0x030004, 28, 28⟩
def CLAP_STATUS_DISCARD_MISS : Fld := ⟨0x030004, 27, 27⟩
def CLAP_STATUS_TO_CUTOFF_US : Fld := ⟨0x030004, 15, 0⟩
def CLAP_SEQ_COMMITS : Fld := ⟨0x030008, 31, 0⟩
def CLAP_LAST_TICK : Fld := ⟨0x03000C, 31, 0⟩
def CLAP_ARM_WUS_WUS : Fld := ⟨0x030010, 31, 0⟩
def CLAP_LIVEWR_COUNT : Fld := ⟨0x030014, 31, 24⟩
def CLAP_LIVEWR_OFFSET : Fld := ⟨0x030014, 23, 0⟩
def CLAP_VIEW_LIVE : Fld := ⟨0x030018, 0, 0⟩
def CLAP_CTRL_DISCARD : Fld := ⟨0x03001C, 1, 1⟩
def CLAP_CTRL_COMMIT_EVT : Fld := ⟨0x03001C, 0, 0⟩
def LYR_CTRL_ENABLE (i : Nat) : Fld := ⟨0x040000 + 0x40 * i, 31, 31⟩
def LYR_CTRL_CONTENT (i : Nat) : Fld := ⟨0x040000 + 0x40 * i, 30, 30⟩
def LYR_CTRL_CRITICAL (i : Nat) : Fld := ⟨0x040000 + 0x40 * i, 29, 29⟩
def LYR_CTRL_DIRECT (i : Nat) : Fld := ⟨0x040000 + 0x40 * i, 28, 28⟩
def LYR_CTRL_OPAQUE (i : Nat) : Fld := ⟨0x040000 + 0x40 * i, 27, 27⟩
def LYR_CTRL_FLUE (i : Nat) : Fld := ⟨0x040000 + 0x40 * i, 20, 16⟩
def LYR_CTRL_DC (i : Nat) : Fld := ⟨0x040000 + 0x40 * i, 15, 12⟩
def LYR_CTRL_Z (i : Nat) : Fld := ⟨0x040000 + 0x40 * i, 11, 0⟩
def LYR_SRC_KIND (i : Nat) : Fld := ⟨0x040004 + 0x40 * i, 31, 28⟩
def LYR_SRC_FORMAT (i : Nat) : Fld := ⟨0x040004 + 0x40 * i, 27, 24⟩
def LYR_SRC_PITCH (i : Nat) : Fld := ⟨0x040004 + 0x40 * i, 23, 12⟩
def LYR_SRC_INDEX (i : Nat) : Fld := ⟨0x040004 + 0x40 * i, 11, 0⟩
def LYR_SURF_ADDR_ADDR (i : Nat) : Fld := ⟨0x040008 + 0x40 * i, 31, 0⟩
def LYR_SURF_SIZE_HEIGHT_M1 (i : Nat) : Fld := ⟨0x04000C + 0x40 * i, 28, 16⟩
def LYR_SURF_SIZE_WIDTH_M1 (i : Nat) : Fld := ⟨0x04000C + 0x40 * i, 12, 0⟩
def LYR_CROP_POS_Y0 (i : Nat) : Fld := ⟨0x040010 + 0x40 * i, 28, 16⟩
def LYR_CROP_POS_X0 (i : Nat) : Fld := ⟨0x040010 + 0x40 * i, 12, 0⟩
def LYR_CROP_SIZE_HEIGHT_M1 (i : Nat) : Fld := ⟨0x040014 + 0x40 * i, 28, 16⟩
def LYR_CROP_SIZE_WIDTH_M1 (i : Nat) : Fld := ⟨0x040014 + 0x40 * i, 12, 0⟩
def LYR_DST_POS_Y (i : Nat) : Fld := ⟨0x040018 + 0x40 * i, 31, 16⟩
def LYR_DST_POS_X (i : Nat) : Fld := ⟨0x040018 + 0x40 * i, 15, 0⟩
def LYR_DST_SIZE_HEIGHT_M1 (i : Nat) : Fld := ⟨0x04001C + 0x40 * i, 28, 16⟩
def LYR_DST_SIZE_WIDTH_M1 (i : Nat) : Fld := ⟨0x04001C + 0x40 * i, 12, 0⟩
def LYR_MATRIX0_M01 (i : Nat) : Fld := ⟨0x040020 + 0x40 * i, 31, 16⟩
def LYR_MATRIX0_M00 (i : Nat) : Fld := ⟨0x040020 + 0x40 * i, 15, 0⟩
def LYR_MATRIX1_O0 (i : Nat) : Fld := ⟨0x040024 + 0x40 * i, 31, 16⟩
def LYR_MATRIX1_M02 (i : Nat) : Fld := ⟨0x040024 + 0x40 * i, 15, 0⟩
def LYR_MATRIX2_M11 (i : Nat) : Fld := ⟨0x040028 + 0x40 * i, 31, 16⟩
def LYR_MATRIX2_M10 (i : Nat) : Fld := ⟨0x040028 + 0x40 * i, 15, 0⟩
def LYR_MATRIX3_O1 (i : Nat) : Fld := ⟨0x04002C + 0x40 * i, 31, 16⟩
def LYR_MATRIX3_M12 (i : Nat) : Fld := ⟨0x04002C + 0x40 * i, 15, 0⟩
def LYR_MATRIX4_M21 (i : Nat) : Fld := ⟨0x040030 + 0x40 * i, 31, 16⟩
def LYR_MATRIX4_M20 (i : Nat) : Fld := ⟨0x040030 + 0x40 * i, 15, 0⟩
def LYR_MATRIX5_O2 (i : Nat) : Fld := ⟨0x040034 + 0x40 * i, 31, 16⟩
def LYR_MATRIX5_M22 (i : Nat) : Fld := ⟨0x040034 + 0x40 * i, 15, 0⟩
def LYR_BLEND_GLOBAL_ALPHA (i : Nat) : Fld := ⟨0x040038 + 0x40 * i, 31, 24⟩
def LYR_BLEND_ALPHA_MODE (i : Nat) : Fld := ⟨0x040038 + 0x40 * i, 23, 22⟩
def LYR_PROBE_EXPORT_EXPORT (i : Nat) : Fld := ⟨0x04003C + 0x40 * i, 31, 31⟩
def LYR_PROBE_EXPORT_EXPORT_SLOT (i : Nat) : Fld := ⟨0x04003C + 0x40 * i, 21, 16⟩
def LYR_PROBE_EXPORT_PROBE_COUNT (i : Nat) : Fld := ⟨0x04003C + 0x40 * i, 15, 13⟩
def LYR_PROBE_EXPORT_PROBE_BASE (i : Nat) : Fld := ⟨0x04003C + 0x40 * i, 9, 0⟩
def CMP_FLUE_CTRL_ENABLE (i : Nat) : Fld := ⟨0x081000 + 0x80 * i, 31, 31⟩
def CMP_FLUE_CTRL_X2 (i : Nat) : Fld := ⟨0x081000 + 0x80 * i, 30, 30⟩
def CMP_FLUE_CTRL_DEPTH (i : Nat) : Fld := ⟨0x081000 + 0x80 * i, 29, 28⟩
def CMP_FLUE_CTRL_BT2020 (i : Nat) : Fld := ⟨0x081000 + 0x80 * i, 27, 27⟩
def CMP_FLUE_CTRL_PORT (i : Nat) : Fld := ⟨0x081000 + 0x80 * i, 21, 16⟩
def CMP_FLUE_HTIME_H_TOTAL (i : Nat) : Fld := ⟨0x081004 + 0x80 * i, 31, 16⟩
def CMP_FLUE_HTIME_H_ACTIVE (i : Nat) : Fld := ⟨0x081004 + 0x80 * i, 15, 0⟩
def CMP_FLUE_VTIME_V_TOTAL (i : Nat) : Fld := ⟨0x081008 + 0x80 * i, 31, 16⟩
def CMP_FLUE_VTIME_V_ACTIVE (i : Nat) : Fld := ⟨0x081008 + 0x80 * i, 15, 0⟩
def CMP_FLUE_HSYNC_POL (i : Nat) : Fld := ⟨0x08100C + 0x80 * i, 31, 31⟩
def CMP_FLUE_HSYNC_START (i : Nat) : Fld := ⟨0x08100C + 0x80 * i, 27, 16⟩
def CMP_FLUE_HSYNC_WIDTH (i : Nat) : Fld := ⟨0x08100C + 0x80 * i, 11, 0⟩
def CMP_FLUE_VSYNC_POL (i : Nat) : Fld := ⟨0x081010 + 0x80 * i, 31, 31⟩
def CMP_FLUE_VSYNC_START (i : Nat) : Fld := ⟨0x081010 + 0x80 * i, 27, 16⟩
def CMP_FLUE_VSYNC_WIDTH (i : Nat) : Fld := ⟨0x081010 + 0x80 * i, 11, 0⟩
def CMP_FLUE_PHASE_PHASE_NS (i : Nat) : Fld := ⟨0x081014 + 0x80 * i, 31, 0⟩
def CMP_FLUE_BG_R (i : Nat) : Fld := ⟨0x081018 + 0x80 * i, 29, 20⟩
def CMP_FLUE_BG_G (i : Nat) : Fld := ⟨0x081018 + 0x80 * i, 19, 10⟩
def CMP_FLUE_BG_B (i : Nat) : Fld := ⟨0x081018 + 0x80 * i, 9, 0⟩
def CMP_FLUE_DIRECT_UNIT (i : Nat) : Fld := ⟨0x08101C + 0x80 * i, 23, 16⟩
def CMP_FLUE_DIRECT_LINE_OFFSET (i : Nat) : Fld := ⟨0x08101C + 0x80 * i, 2, 0⟩
def CMP_FLUE_DSTAT_HONOURED (i : Nat) : Fld := ⟨0x081020 + 0x80 * i, 31, 31⟩
def CMP_FLUE_DSTAT_LAYER (i : Nat) : Fld := ⟨0x081020 + 0x80 * i, 27, 16⟩
def CMP_FLUE_DSTAT_ERR_NS (i : Nat) : Fld := ⟨0x081020 + 0x80 * i, 15, 0⟩
def CMP_FLUE_STAT_BAND_LATE (i : Nat) : Fld := ⟨0x081024 + 0x80 * i, 31, 16⟩
def CMP_FLUE_STAT_DEPTH_TILES (i : Nat) : Fld := ⟨0x081024 + 0x80 * i, 15, 0⟩
def CMP_FLUE_TILES_TILE_BASE (i : Nat) : Fld := ⟨0x081028 + 0x80 * i, 31, 14⟩
def CMP_FLUE_TILES_COLS_M1 (i : Nat) : Fld := ⟨0x081028 + 0x80 * i, 13, 7⟩
def CMP_FLUE_TILES_ROWS_M1 (i : Nat) : Fld := ⟨0x081028 + 0x80 * i, 6, 0⟩
def CMP_FLUE_HELD_BASE (i : Nat) : Fld := ⟨0x08102C + 0x80 * i, 31, 0⟩
def CMP_FLUE_HELD_IDX_COUNT (i : Nat) : Fld := ⟨0x081030 + 0x80 * i, 31, 24⟩
def CMP_FLUE_HELD_IDX_NEWEST (i : Nat) : Fld := ⟨0x081030 + 0x80 * i, 23, 16⟩
def CMP_FLUE_HELD_IDX_WRITING (i : Nat) : Fld := ⟨0x081030 + 0x80 * i, 15, 8⟩
def CMP_COEF_H_TAP_HI (i : Nat) (j : Nat) (k : Nat) : Fld := ⟨0x082000 + 0x700 * i + 0x10 * j + 0x4 * k, 27, 16⟩
def CMP_COEF_H_TAP_LO (i : Nat) (j : Nat) (k : Nat) : Fld := ⟨0x082000 + 0x700 * i + 0x10 * j + 0x4 * k, 11, 0⟩
def CMP_COEF_V_TAP_HI (i : Nat) (j : Nat) (k : Nat) : Fld := ⟨0x082400 + 0x700 * i + 0xC * j + 0x4 * k, 27, 16⟩
def CMP_COEF_V_TAP_LO (i : Nat) (j : Nat) (k : Nat) : Fld := ⟨0x082400 + 0x700 * i + 0xC * j + 0x4 * k, 11, 0⟩
def CMP_LUT_ENTRY_HI (i : Nat) (j : Nat) : Fld := ⟨0x084000 + 0x800 * i + 0x4 * j, 27, 16⟩
def CMP_LUT_ENTRY_LO (i : Nat) (j : Nat) : Fld := ⟨0x084000 + 0x800 * i + 0x4 * j, 11, 0⟩
def FRS_CTRL_BADGE_EN : Fld := ⟨0x090000, 0, 0⟩
def FRS_SWEEP_LAST_WUS : Fld := ⟨0x090004, 31, 0⟩
def FRS_DC_MAX_MAX_AGE (i : Nat) : Fld := ⟨0x090040 + 0x4 * i, 29, 0⟩
def FRS_FLUE_EMBER_A_R (i : Nat) : Fld := ⟨0x090100 + 0x10 * i, 29, 20⟩
def FRS_FLUE_EMBER_A_G (i : Nat) : Fld := ⟨0x090100 + 0x10 * i, 19, 10⟩
def FRS_FLUE_EMBER_A_B (i : Nat) : Fld := ⟨0x090100 + 0x10 * i, 9, 0⟩
def FRS_FLUE_EMBER_B_R (i : Nat) : Fld := ⟨0x090104 + 0x10 * i, 29, 20⟩
def FRS_FLUE_EMBER_B_G (i : Nat) : Fld := ⟨0x090104 + 0x10 * i, 19, 10⟩
def FRS_FLUE_EMBER_B_B (i : Nat) : Fld := ⟨0x090104 + 0x10 * i, 9, 0⟩
def FRS_FLUE_COUNT0_EMBER (i : Nat) : Fld := ⟨0x090108 + 0x10 * i, 31, 16⟩
def FRS_FLUE_COUNT0_HELD (i : Nat) : Fld := ⟨0x090108 + 0x10 * i, 15, 0⟩
def FRS_FLUE_COUNT1_CONCEALED (i : Nat) : Fld := ⟨0x09010C + 0x10 * i, 31, 16⟩
def FRS_FLUE_COUNT1_FROZEN (i : Nat) : Fld := ⟨0x09010C + 0x10 * i, 15, 0⟩
def FRS_BADGE_WORD_CELL3 (i : Nat) : Fld := ⟨0x090300 + 0x4 * i, 29, 24⟩
def FRS_BADGE_WORD_CELL2 (i : Nat) : Fld := ⟨0x090300 + 0x4 * i, 21, 16⟩
def FRS_BADGE_WORD_CELL1 (i : Nat) : Fld := ⟨0x090300 + 0x4 * i, 13, 8⟩
def FRS_BADGE_WORD_CELL0 (i : Nat) : Fld := ⟨0x090300 + 0x4 * i, 5, 0⟩
def FRS_GLYPH_ROWS (i : Nat) (j : Nat) : Fld := ⟨0x090400 + 0x10 * i + 0x4 * j, 31, 0⟩
def FRS_LAYER_AGE_AGE (i : Nat) : Fld := ⟨0x091000 + 0x4 * i, 31, 0⟩
def FRS_LAYER_STAT_AGE_OVER (i : Nat) : Fld := ⟨0x095000 + 0x4 * i, 31, 31⟩
def FRS_LAYER_STAT_UNTRUSTED (i : Nat) : Fld := ⟨0x095000 + 0x4 * i, 30, 30⟩
def FRS_LAYER_STAT_PROBE_SET (i : Nat) : Fld := ⟨0x095000 + 0x4 * i, 29, 29⟩
def FRS_LAYER_STAT_CONCEALED (i : Nat) : Fld := ⟨0x095000 + 0x4 * i, 28, 28⟩
def FRS_LAYER_STAT_ANCIENT (i : Nat) : Fld := ⟨0x095000 + 0x4 * i, 27, 27⟩
def FRS_LAYER_STAT_AHEAD (i : Nat) : Fld := ⟨0x095000 + 0x4 * i, 26, 26⟩
def FRS_LAYER_STAT_UNBOUND (i : Nat) : Fld := ⟨0x095000 + 0x4 * i, 25, 25⟩
def SNT_GLASS_SUMMARY_UNCONFIRMED : Fld := ⟨0x0A0000, 23, 0⟩
def SNT_FLUE_CFG_ENABLE (i : Nat) : Fld := ⟨0x0A0100 + 0x20 * i, 31, 31⟩
def SNT_FLUE_CFG_CODE (i : Nat) : Fld := ⟨0x0A0100 + 0x20 * i, 27, 24⟩
def SNT_FLUE_CFG_CORNER (i : Nat) : Fld := ⟨0x0A0100 + 0x20 * i, 23, 22⟩
def SNT_FLUE_CFG_THRESH (i : Nat) : Fld := ⟨0x0A0100 + 0x20 * i, 15, 8⟩
def SNT_FLUE_CFG_CHANNEL (i : Nat) : Fld := ⟨0x0A0100 + 0x20 * i, 7, 0⟩
def SNT_FLUE_PATCH_INSET_Y (i : Nat) : Fld := ⟨0x0A0104 + 0x20 * i, 31, 24⟩
def SNT_FLUE_PATCH_INSET_X (i : Nat) : Fld := ⟨0x0A0104 + 0x20 * i, 23, 16⟩
def SNT_FLUE_LEVEL_LEVEL_HI (i : Nat) : Fld := ⟨0x0A0108 + 0x20 * i, 25, 16⟩
def SNT_FLUE_LEVEL_LEVEL_LO (i : Nat) : Fld := ⟨0x0A0108 + 0x20 * i, 9, 0⟩
def SNT_FLUE_LIMIT_CONFIRM_TICKS (i : Nat) : Fld := ⟨0x0A010C + 0x20 * i, 31, 16⟩
def SNT_FLUE_LIMIT_LAT_MAX_100US (i : Nat) : Fld := ⟨0x0A010C + 0x20 * i, 15, 0⟩
def SNT_FLUE_STAT_STATE (i : Nat) : Fld := ⟨0x0A0110 + 0x20 * i, 31, 30⟩
def SNT_FLUE_STAT_SUSPENDED (i : Nat) : Fld := ⟨0x0A0110 + 0x20 * i, 29, 29⟩
def SNT_FLUE_STAT_RHO (i : Nat) : Fld := ⟨0x0A0110 + 0x20 * i, 23, 16⟩
def SNT_FLUE_STAT_LAG (i : Nat) : Fld := ⟨0x0A0110 + 0x20 * i, 2, 0⟩
def SNT_FLUE_LAT_LAT_US (i : Nat) : Fld := ⟨0x0A0114 + 0x20 * i, 19, 0⟩
def SNT_FLUE_LAST_LAST_CONFIRM (i : Nat) : Fld := ⟨0x0A0118 + 0x20 * i, 31, 0⟩
def SNT_PROBE_POS_Y0 (i : Nat) : Fld := ⟨0x0A1000 + 0x10 * i, 28, 16⟩
def SNT_PROBE_POS_X0 (i : Nat) : Fld := ⟨0x0A1000 + 0x10 * i, 12, 0⟩
def SNT_PROBE_SIZE_ANCIENT (i : Nat) : Fld := ⟨0x0A1004 + 0x10 * i, 31, 31⟩
def SNT_PROBE_SIZE_OUTSIDE (i : Nat) : Fld := ⟨0x0A1004 + 0x10 * i, 30, 30⟩
def SNT_PROBE_SIZE_MASK (i : Nat) : Fld := ⟨0x0A1004 + 0x10 * i, 26, 24⟩
def SNT_PROBE_SIZE_HEIGHT_M1 (i : Nat) : Fld := ⟨0x0A1004 + 0x10 * i, 22, 16⟩
def SNT_PROBE_SIZE_WIDTH_M1 (i : Nat) : Fld := ⟨0x0A1004 + 0x10 * i, 6, 0⟩
def SNT_PROBE_SIG_SIG (i : Nat) : Fld := ⟨0x0A1008 + 0x10 * i, 31, 0⟩
def SNT_PROBE_CHANGE_CHANGE_WUS (i : Nat) : Fld := ⟨0x0A100C + 0x10 * i, 31, 0⟩
def CRT_STATUS_CRIT_TILES : Fld := ⟨0x0B0000, 28, 16⟩
def CRT_STATUS_RECTS : Fld := ⟨0x0B0000, 6, 0⟩
def CRT_WVOTE_SPLITS : Fld := ⟨0x0B0004, 31, 24⟩
def CRT_WVOTE_W2_OUT : Fld := ⟨0x0B0004, 23, 16⟩
def CRT_WVOTE_W1_OUT : Fld := ⟨0x0B0004, 15, 8⟩
def CRT_WVOTE_W0_OUT : Fld := ⟨0x0B0004, 7, 0⟩
def CRT_WSTAT_IN_VOTE : Fld := ⟨0x0B0008, 2, 0⟩
def CRT_RECT_POS_VALID (i : Nat) : Fld := ⟨0x0B0100 + 0x10 * i, 31, 31⟩
def CRT_RECT_POS_FLUE (i : Nat) : Fld := ⟨0x0B0100 + 0x10 * i, 20, 16⟩
def CRT_RECT_POS_ROW0 (i : Nat) : Fld := ⟨0x0B0100 + 0x10 * i, 14, 8⟩
def CRT_RECT_POS_COL0 (i : Nat) : Fld := ⟨0x0B0100 + 0x10 * i, 6, 0⟩
def CRT_RECT_SIZE_ROWS_M1 (i : Nat) : Fld := ⟨0x0B0104 + 0x10 * i, 14, 8⟩
def CRT_RECT_SIZE_COLS_M1 (i : Nat) : Fld := ⟨0x0B0104 + 0x10 * i, 6, 0⟩
def CRT_RECT_MEMBERS_MEMBER_C (i : Nat) : Fld := ⟨0x0B0108 + 0x10 * i, 23, 16⟩
def CRT_RECT_MEMBERS_MEMBER_B (i : Nat) : Fld := ⟨0x0B0108 + 0x10 * i, 15, 8⟩
def CRT_RECT_MEMBERS_MEMBER_A (i : Nat) : Fld := ⟨0x0B0108 + 0x10 * i, 7, 0⟩
def CRT_RECT_STAT_FAIL_TOTAL (i : Nat) : Fld := ⟨0x0B010C + 0x10 * i, 31, 16⟩
def CRT_RECT_STAT_FAIL_LAST (i : Nat) : Fld := ⟨0x0B010C + 0x10 * i, 15, 0⟩
def CRT_UNIT_VOTE_OUT_TICKS (i : Nat) : Fld := ⟨0x0B0600 + 0x4 * i, 31, 16⟩
def CRT_UNIT_VOTE_LATE_TICKS (i : Nat) : Fld := ⟨0x0B0600 + 0x4 * i, 15, 8⟩
def CRT_UNIT_VOTE_RECENT (i : Nat) : Fld := ⟨0x0B0600 + 0x4 * i, 1, 0⟩
def CRT_EXP_SUMMARY_MISMATCH (i : Nat) : Fld := ⟨0x0B0700 + 0x4 * i, 31, 0⟩
def CRT_EXP_CTRL_ENABLE (i : Nat) : Fld := ⟨0x0B4000 + 0x10 * i, 31, 31⟩
def CRT_EXP_CTRL_ALT (i : Nat) : Fld := ⟨0x0B4000 + 0x10 * i, 30, 30⟩
def CRT_EXP_CTRL_FLUE (i : Nat) : Fld := ⟨0x0B4000 + 0x10 * i, 20, 16⟩
def CRT_EXP_CTRL_TILE (i : Nat) : Fld := ⟨0x0B4000 + 0x10 * i, 13, 0⟩
def CRT_EXP_SIG_A_SIG (i : Nat) : Fld := ⟨0x0B4004 + 0x10 * i, 31, 0⟩
def CRT_EXP_SIG_B_SIG (i : Nat) : Fld := ⟨0x0B4008 + 0x10 * i, 31, 0⟩
def CRT_EXP_STAT_MISMATCH (i : Nat) : Fld := ⟨0x0B400C + 0x10 * i, 31, 31⟩
def CRT_EXP_STAT_CHECKED (i : Nat) : Fld := ⟨0x0B400C + 0x10 * i, 30, 30⟩
def CRT_EXP_STAT_MISMATCH_FRAMES (i : Nat) : Fld := ⟨0x0B400C + 0x10 * i, 15, 0⟩
def WDN_STATUS_PKG_FAULT : Fld := ⟨0x0C0000, 31, 31⟩
def WDN_STATUS_HOLD : Fld := ⟨0x0C0000, 30, 30⟩
def WDN_STATUS_HANDLING : Fld := ⟨0x0C0000, 29, 29⟩
def WDN_STATUS_OPEN : Fld := ⟨0x0C0000, 23, 16⟩
def WDN_STATUS_QUEUED : Fld := ⟨0x0C0000, 15, 8⟩
def WDN_STATUS_HANDLING_IDX : Fld := ⟨0x0C0000, 7, 0⟩
def WDN_LOG_PTR_WR : Fld := ⟨0x0C0004, 23, 16⟩
def WDN_LOG_PTR_RD : Fld := ⟨0x0C0004, 7, 0⟩
def WDN_LOG_STAT_OVERFLOW : Fld := ⟨0x0C0008, 31, 31⟩
def WDN_LOG_STAT_UNREAD : Fld := ⟨0x0C0008, 24, 16⟩
def WDN_LOG_STAT_LOST : Fld := ⟨0x0C0008, 15, 0⟩
def WDN_HOLD_MAX_NS : Fld := ⟨0x0C000C, 31, 16⟩
def WDN_HOLD_LAST_NS : Fld := ⟨0x0C000C, 15, 0⟩
def WDN_HOLD_FLUES_FLUES : Fld := ⟨0x0C0010, 23, 0⟩
def WDN_HOOK_EN_CODES : Fld := ⟨0x0C0014, 15, 1⟩
def WDN_LOG_W0_STAMP (i : Nat) : Fld := ⟨0x0C1000 + 0x10 * i, 31, 0⟩
def WDN_LOG_W1_CODE (i : Nat) : Fld := ⟨0x0C1004 + 0x10 * i, 31, 24⟩
def WDN_LOG_W1_LEVEL (i : Nat) : Fld := ⟨0x0C1004 + 0x10 * i, 23, 20⟩
def WDN_LOG_W1_OBJECT (i : Nat) : Fld := ⟨0x0C1004 + 0x10 * i, 15, 8⟩
def WDN_LOG_W1_ACTION (i : Nat) : Fld := ⟨0x0C1004 + 0x10 * i, 7, 4⟩
def WDN_LOG_W1_STATE (i : Nat) : Fld := ⟨0x0C1004 + 0x10 * i, 3, 0⟩
def WDN_LOG_W2_HOLD_NS (i : Nat) : Fld := ⟨0x0C1008 + 0x10 * i, 31, 16⟩
def WDN_LOG_W2_PREV (i : Nat) : Fld := ⟨0x0C1008 + 0x10 * i, 15, 8⟩
def WDN_LOG_W2_INJECTED (i : Nat) : Fld := ⟨0x0C1008 + 0x10 * i, 7, 7⟩
def WDN_LOG_W2_HOLD_LONG (i : Nat) : Fld := ⟨0x0C1008 + 0x10 * i, 6, 6⟩
def WDN_LOG_W3_SEQ (i : Nat) : Fld := ⟨0x0C100C + 0x10 * i, 31, 16⟩
def WDN_LOG_W3_DETAIL (i : Nat) : Fld := ⟨0x0C100C + 0x10 * i, 15, 0⟩
def WDN_PROGRAM_WORD (i : Nat) : Fld := ⟨0x0C8000 + 0x4 * i, 31, 0⟩
def DMP_CTRL_ENABLE : Fld := ⟨0x0D0000, 31, 31⟩
def DMP_CTRL_STEP2_LIMIT : Fld := ⟨0x0D0000, 30, 30⟩
def DMP_CTRL_PER_ACTION : Fld := ⟨0x0D0000, 27, 24⟩
def DMP_CTRL_GUARD_100US : Fld := ⟨0x0D0000, 15, 0⟩
def DMP_LIMIT_HYST : Fld := ⟨0x0D0004, 23, 16⟩
def DMP_LIMIT_MARGIN : Fld := ⟨0x0D0004, 15, 8⟩
def DMP_LIMIT_P_LIMIT_W : Fld := ⟨0x0D0004, 7, 0⟩
def DMP_RELAX_RELAX_TICKS : Fld := ⟨0x0D0008, 15, 0⟩
def DMP_THERM_SLOPE_W : Fld := ⟨0x0D000C, 23, 16⟩
def DMP_THERM_RAMP_C : Fld := ⟨0x0D000C, 15, 8⟩
def DMP_THERM_LIMIT_C : Fld := ⟨0x0D000C, 7, 0⟩
def DMP_BUDGET_UJ : Fld := ⟨0x0D0010, 31, 0⟩
def DMP_ENERGY_UJ : Fld := ⟨0x0D0014, 31, 0⟩
def DMP_STATUS_STAGE : Fld := ⟨0x0D0018, 31, 29⟩
def DMP_STATUS_EMERGENCY : Fld := ⟨0x0D0018, 28, 28⟩
def DMP_STATUS_THERMAL : Fld := ⟨0x0D0018, 27, 27⟩
def DMP_STATUS_EXHAUSTED : Fld := ⟨0x0D0018, 26, 26⟩
def DMP_STATUS_BLOCKED : Fld := ⟨0x0D0018, 25, 25⟩
def DMP_STATUS_REELS_REDUCED : Fld := ⟨0x0D0018, 15, 8⟩
def DMP_STATUS_RESTED : Fld := ⟨0x0D0018, 4, 0⟩
def DMP_RESTED_FLUES : Fld := ⟨0x0D001C, 23, 0⟩
def DMP_TEMP_A_HOTTEST : Fld := ⟨0x0D0020, 19, 16⟩
def DMP_TEMP_A_MAX_C : Fld := ⟨0x0D0020, 7, 0⟩
def DMP_TEMP_B_HOTTEST : Fld := ⟨0x0D0024, 19, 16⟩
def DMP_TEMP_B_MAX_C : Fld := ⟨0x0D0024, 7, 0⟩
def DMP_TEMP_IO_HOTTEST : Fld := ⟨0x0D0028, 19, 16⟩
def DMP_TEMP_IO_MAX_C : Fld := ⟨0x0D0028, 7, 0⟩
def DMP_CLASS_SIG_FIRM : Fld := ⟨0x0D002C, 3, 3⟩
def DMP_CLASS_SCRUB_FIRM : Fld := ⟨0x0D002C, 2, 2⟩
def DMP_CLASS_HIDDEN_FIRM : Fld := ⟨0x0D002C, 1, 1⟩
def DMP_CLASS_ENCODE_FIRM : Fld := ⟨0x0D002C, 0, 0⟩
def DMP_SOFT_SKIP_ENC_FRAMES : Fld := ⟨0x0D0030, 31, 16⟩
def DMP_REST_ORDER_VALID3 (i : Nat) : Fld := ⟨0x0D0040 + 0x4 * i, 31, 31⟩
def DMP_REST_ORDER_FLUE3 (i : Nat) : Fld := ⟨0x0D0040 + 0x4 * i, 28, 24⟩
def DMP_REST_ORDER_VALID2 (i : Nat) : Fld := ⟨0x0D0040 + 0x4 * i, 23, 23⟩
def DMP_REST_ORDER_FLUE2 (i : Nat) : Fld := ⟨0x0D0040 + 0x4 * i, 20, 16⟩
def DMP_REST_ORDER_VALID1 (i : Nat) : Fld := ⟨0x0D0040 + 0x4 * i, 15, 15⟩
def DMP_REST_ORDER_FLUE1 (i : Nat) : Fld := ⟨0x0D0040 + 0x4 * i, 12, 8⟩
def DMP_REST_ORDER_VALID0 (i : Nat) : Fld := ⟨0x0D0040 + 0x4 * i, 7, 7⟩
def DMP_REST_ORDER_FLUE0 (i : Nat) : Fld := ⟨0x0D0040 + 0x4 * i, 4, 0⟩
def DMP_REEL_LEVEL_LEVELS (i : Nat) : Fld := ⟨0x0D0100 + 0x4 * i, 31, 0⟩
def TMB_CTRL_STEP : Fld := ⟨0x0E0000, 1, 1⟩
def TMB_CTRL_SNAP : Fld := ⟨0x0E0000, 0, 0⟩
def TMB_STATUS_APLL0_LOCK : Fld := ⟨0x0E0004, 31, 31⟩
def TMB_STATUS_APLL1_LOCK : Fld := ⟨0x0E0004, 30, 30⟩
def TMB_STATUS_INC_CLAMPED : Fld := ⟨0x0E0004, 29, 29⟩
def TMB_STATUS_STEPS : Fld := ⟨0x0E0004, 15, 0⟩
def TMB_INC_INT_INT : Fld := ⟨0x0E0008, 7, 0⟩
def TMB_INC_FRAC_FRAC : Fld := ⟨0x0E000C, 31, 0⟩
def TMB_STEP_S_VALUE : Fld := ⟨0x0E0010, 31, 0⟩
def TMB_STEP_NS_VALUE : Fld := ⟨0x0E0014, 31, 0⟩
def TMB_WUS_WUS : Fld := ⟨0x0E0018, 31, 0⟩
def TMB_SNAP_S_HI_S_HI : Fld := ⟨0x0E0020, 15, 0⟩
def TMB_SNAP_S_LO_S_LO : Fld := ⟨0x0E0024, 31, 0⟩
def TMB_SNAP_NS_NS : Fld := ⟨0x0E0028, 29, 0⟩
def TMB_SNAP_FRAC_FRAC : Fld := ⟨0x0E002C, 31, 0⟩
def TMB_PTP_RX_BASE_ADDR : Fld := ⟨0x0E0040, 31, 0⟩
def TMB_PTP_TX_BASE_ADDR : Fld := ⟨0x0E0044, 31, 0⟩
def TMB_PTP_RX_SIZE_DROPS : Fld := ⟨0x0E0048, 31, 16⟩
def TMB_PTP_RX_SIZE_SIZE_4K : Fld := ⟨0x0E0048, 15, 0⟩
def TMB_PTP_TX_SIZE_DROPS : Fld := ⟨0x0E004C, 31, 16⟩
def TMB_PTP_TX_SIZE_SIZE_4K : Fld := ⟨0x0E004C, 15, 0⟩
def TMB_PTP_RX_RD_OFFSET : Fld := ⟨0x0E0050, 31, 0⟩
def TMB_PTP_RX_WR_OFFSET : Fld := ⟨0x0E0054, 31, 0⟩
def TMB_PTP_TX_RD_OFFSET : Fld := ⟨0x0E0058, 31, 0⟩
def TMB_PTP_TX_WR_OFFSET : Fld := ⟨0x0E005C, 31, 0⟩
def TMB_PTP_PORT_ENABLE (i : Nat) : Fld := ⟨0x0E0080 + 0x4 * i, 31, 31⟩
def TMB_PTP_PORT_TX_LAT (i : Nat) : Fld := ⟨0x0E0080 + 0x4 * i, 27, 16⟩
def TMB_PTP_PORT_RX_LAT (i : Nat) : Fld := ⟨0x0E0080 + 0x4 * i, 11, 0⟩
def TMO_CTRL_ENABLE (i : Nat) : Fld := ⟨0x0E0100 + 0x20 * i, 31, 31⟩
def TMO_CTRL_MODE (i : Nat) : Fld := ⟨0x0E0100 + 0x20 * i, 30, 29⟩
def TMO_CTRL_POL (i : Nat) : Fld := ⟨0x0E0100 + 0x20 * i, 28, 28⟩
def TMO_CTRL_LATE (i : Nat) : Fld := ⟨0x0E0100 + 0x20 * i, 27, 27⟩
def TMO_CTRL_BAD (i : Nat) : Fld := ⟨0x0E0100 + 0x20 * i, 26, 26⟩
def TMO_CTRL_START_S_HI (i : Nat) : Fld := ⟨0x0E0100 + 0x20 * i, 15, 0⟩
def TMO_START_S_LO_VALUE (i : Nat) : Fld := ⟨0x0E0104 + 0x20 * i, 31, 0⟩
def TMO_START_NS_VALUE (i : Nat) : Fld := ⟨0x0E0108 + 0x20 * i, 31, 0⟩
def TMO_PERIOD_NS_VALUE (i : Nat) : Fld := ⟨0x0E010C + 0x20 * i, 31, 0⟩
def TMO_WIDTH_NS_VALUE (i : Nat) : Fld := ⟨0x0E0110 + 0x20 * i, 31, 0⟩
def TMC_CTRL_ENABLE (i : Nat) : Fld := ⟨0x0E0300 + 0x10 * i, 31, 31⟩
def TMC_CTRL_EDGE (i : Nat) : Fld := ⟨0x0E0300 + 0x10 * i, 30, 29⟩
def TMC_CTRL_OVERFLOW (i : Nat) : Fld := ⟨0x0E0300 + 0x10 * i, 28, 28⟩
def TMC_CTRL_COUNT (i : Nat) : Fld := ⟨0x0E0300 + 0x10 * i, 3, 0⟩
def TMC_TS_NS_VALID (i : Nat) : Fld := ⟨0x0E0304 + 0x10 * i, 31, 31⟩
def TMC_TS_NS_FALLING (i : Nat) : Fld := ⟨0x0E0304 + 0x10 * i, 30, 30⟩
def TMC_TS_NS_NS (i : Nat) : Fld := ⟨0x0E0304 + 0x10 * i, 29, 0⟩
def TMC_TS_S_LO_S_LO (i : Nat) : Fld := ⟨0x0E0308 + 0x10 * i, 31, 0⟩
def TMC_TS_S_HI_STEPPED (i : Nat) : Fld := ⟨0x0E030C + 0x10 * i, 31, 31⟩
def TMC_TS_S_HI_S_HI (i : Nat) : Fld := ⟨0x0E030C + 0x10 * i, 15, 0⟩
def CHK_CU_CFG_ENABLE (i : Nat) : Fld := ⟨0x0F0100 + 0x20 * i, 31, 31⟩
def CHK_CU_CFG_MODE (i : Nat) : Fld := ⟨0x0F0100 + 0x20 * i, 30, 29⟩
def CHK_CU_CFG_REFIN (i : Nat) : Fld := ⟨0x0F0100 + 0x20 * i, 28, 28⟩
def CHK_CU_CFG_REFOUT (i : Nat) : Fld := ⟨0x0F0100 + 0x20 * i, 27, 27⟩
def CHK_CU_CFG_ORDER (i : Nat) : Fld := ⟨0x0F0100 + 0x20 * i, 26, 26⟩
def CHK_CU_CFG_DISCARD (i : Nat) : Fld := ⟨0x0F0100 + 0x20 * i, 25, 25⟩
def CHK_CU_CFG_RESTART (i : Nat) : Fld := ⟨0x0F0100 + 0x20 * i, 24, 24⟩
def CHK_CU_CFG_POINT (i : Nat) : Fld := ⟨0x0F0100 + 0x20 * i, 23, 20⟩
def CHK_CU_CFG_INDEX (i : Nat) : Fld := ⟨0x0F0100 + 0x20 * i, 15, 8⟩
def CHK_CU_CFG_WIDTH (i : Nat) : Fld := ⟨0x0F0100 + 0x20 * i, 5, 0⟩
def CHK_CU_POLY_VALUE (i : Nat) : Fld := ⟨0x0F0104 + 0x20 * i, 31, 0⟩
def CHK_CU_INIT_VALUE (i : Nat) : Fld := ⟨0x0F0108 + 0x20 * i, 31, 0⟩
def CHK_CU_XOROUT_VALUE (i : Nat) : Fld := ⟨0x0F010C + 0x20 * i, 31, 0⟩
def CHK_CU_FILTER_UDP_PORT (i : Nat) : Fld := ⟨0x0F0110 + 0x20 * i, 15, 0⟩
def CHK_CU_RESULT_VALUE (i : Nat) : Fld := ⟨0x0F0114 + 0x20 * i, 31, 0⟩
def CHK_CU_RECEIVED_VALUE (i : Nat) : Fld := ⟨0x0F0118 + 0x20 * i, 31, 0⟩
def CHK_CU_COUNT_MISMATCHES (i : Nat) : Fld := ⟨0x0F011C + 0x20 * i, 31, 16⟩
def CHK_CU_COUNT_OVERSIZE (i : Nat) : Fld := ⟨0x0F011C + 0x20 * i, 15, 8⟩
def CHK_CU_COUNT_SKIPPED (i : Nat) : Fld := ⟨0x0F011C + 0x20 * i, 7, 0⟩
def REEL_CFG_ENABLE (i : Nat) : Fld := ⟨0x100000 + 0x400 * i, 31, 31⟩
def REEL_CFG_MODE (i : Nat) : Fld := ⟨0x100000 + 0x400 * i, 30, 30⟩
def REEL_CFG_CODEC (i : Nat) : Fld := ⟨0x100000 + 0x400 * i, 29, 28⟩
def REEL_CFG_DIE (i : Nat) : Fld := ⟨0x100000 + 0x400 * i, 27, 27⟩
def REEL_CFG_START (i : Nat) : Fld := ⟨0x100000 + 0x400 * i, 26, 26⟩
def REEL_CFG_STAMP (i : Nat) : Fld := ⟨0x100000 + 0x400 * i, 25, 25⟩
def REEL_CFG_SSRC_EN (i : Nat) : Fld := ⟨0x100000 + 0x400 * i, 24, 24⟩
def REEL_MAXSIZE_HEIGHT_M1 (i : Nat) : Fld := ⟨0x100004 + 0x400 * i, 28, 16⟩
def REEL_MAXSIZE_WIDTH_M1 (i : Nat) : Fld := ⟨0x100004 + 0x400 * i, 12, 0⟩
def REEL_BUF_BASE_ADDR (i : Nat) : Fld := ⟨0x100008 + 0x400 * i, 31, 0⟩
def REEL_BUF_CFG_DEPTH10 (i : Nat) : Fld := ⟨0x10000C + 0x400 * i, 20, 20⟩
def REEL_BUF_CFG_SLOTS (i : Nat) : Fld := ⟨0x10000C + 0x400 * i, 19, 16⟩
def REEL_NET_PORT (i : Nat) : Fld := ⟨0x100010 + 0x400 * i, 29, 24⟩
def REEL_NET_PT (i : Nat) : Fld := ⟨0x100010 + 0x400 * i, 22, 16⟩
def REEL_NET_UDP_PORT (i : Nat) : Fld := ⟨0x100010 + 0x400 * i, 15, 0⟩
def REEL_SSRC_SSRC (i : Nat) : Fld := ⟨0x100014 + 0x400 * i, 31, 0⟩
def REEL_JB_LOSS_MS (i : Nat) : Fld := ⟨0x100018 + 0x400 * i, 31, 16⟩
def REEL_JB_JB_US (i : Nat) : Fld := ⟨0x100018 + 0x400 * i, 15, 0⟩
def REEL_KEYREQ_PLI_EN (i : Nat) : Fld := ⟨0x10001C + 0x400 * i, 31, 31⟩
def REEL_KEYREQ_FIR_EN (i : Nat) : Fld := ⟨0x10001C + 0x400 * i, 30, 30⟩
def REEL_KEYREQ_FIR_MS (i : Nat) : Fld := ⟨0x10001C + 0x400 * i, 27, 16⟩
def REEL_KEYREQ_PLI_MIN_MS (i : Nat) : Fld := ⟨0x10001C + 0x400 * i, 11, 0⟩
def REEL_GROUP_ADDR (i : Nat) (j : Nat) : Fld := ⟨0x100020 + 0x400 * i + 0x4 * j, 31, 0⟩
def REEL_SR_TIMEOUT_100MS (i : Nat) : Fld := ⟨0x100030 + 0x400 * i, 15, 0⟩
def REEL_STATUS_STATE (i : Nat) : Fld := ⟨0x100040 + 0x400 * i, 31, 29⟩
def REEL_STATUS_LEVEL (i : Nat) : Fld := ⟨0x100040 + 0x400 * i, 28, 27⟩
def REEL_STATUS_MAPPED (i : Nat) : Fld := ⟨0x100040 + 0x400 * i, 26, 26⟩
def REEL_STATUS_SILENT (i : Nat) : Fld := ⟨0x100040 + 0x400 * i, 25, 25⟩
def REEL_STATUS_DAMAGED (i : Nat) : Fld := ⟨0x100040 + 0x400 * i, 24, 24⟩
def REEL_STATUS_PROFILE (i : Nat) : Fld := ⟨0x100040 + 0x400 * i, 23, 20⟩
def REEL_STATUS_LEVEL_IDC (i : Nat) : Fld := ⟨0x100040 + 0x400 * i, 19, 12⟩
def REEL_STATUS_UNSUP (i : Nat) : Fld := ⟨0x100040 + 0x400 * i, 3, 0⟩
def REEL_PICSIZE_HEIGHT_M1 (i : Nat) : Fld := ⟨0x100044 + 0x400 * i, 28, 16⟩
def REEL_PICSIZE_WIDTH_M1 (i : Nat) : Fld := ⟨0x100044 + 0x400 * i, 12, 0⟩
def REEL_LAST_STAMP_WUS (i : Nat) : Fld := ⟨0x100048 + 0x400 * i, 31, 0⟩
def REEL_CSTAMP_WUS (i : Nat) : Fld := ⟨0x10004C + 0x400 * i, 31, 0⟩
def REEL_PKT_LOST (i : Nat) : Fld := ⟨0x100050 + 0x400 * i, 31, 16⟩
def REEL_PKT_LATE (i : Nat) : Fld := ⟨0x100050 + 0x400 * i, 15, 0⟩
def REEL_PICS_DECODED (i : Nat) : Fld := ⟨0x100054 + 0x400 * i, 31, 16⟩
def REEL_PICS_DROPPED (i : Nat) : Fld := ⟨0x100054 + 0x400 * i, 15, 0⟩
def REEL_ERR_SYNTAX (i : Nat) : Fld := ⟨0x100058 + 0x400 * i, 31, 16⟩
def REEL_ERR_REF_MISSING (i : Nat) : Fld := ⟨0x100058 + 0x400 * i, 15, 8⟩
def REEL_ERR_DRAM_UE (i : Nat) : Fld := ⟨0x100058 + 0x400 * i, 7, 0⟩
def REEL_MAPS_UNTRUSTED (i : Nat) : Fld := ⟨0x10005C + 0x400 * i, 31, 16⟩
def REEL_MAPS_CONCEALED (i : Nat) : Fld := ⟨0x10005C + 0x400 * i, 15, 0⟩
def REEL_ENGINE_ENGINE (i : Nat) : Fld := ⟨0x100060 + 0x400 * i, 28, 24⟩
def REEL_ENGINE_DEC_US (i : Nat) : Fld := ⟨0x100060 + 0x400 * i, 15, 0⟩
def ENC_SRC_FLUE (i : Nat) : Fld := ⟨0x120000 + 0x200 * i, 28, 24⟩
def ENC_SRC_DIV (i : Nat) : Fld := ⟨0x120000 + 0x200 * i, 23, 20⟩
def ENC_SRC_SCALE (i : Nat) : Fld := ⟨0x120000 + 0x200 * i, 16, 16⟩
def ENC_RECT_POS_Y0 (i : Nat) : Fld := ⟨0x120004 + 0x200 * i, 28, 16⟩
def ENC_RECT_POS_X0 (i : Nat) : Fld := ⟨0x120004 + 0x200 * i, 12, 0⟩
def ENC_RECT_SIZE_HEIGHT_M1 (i : Nat) : Fld := ⟨0x120008 + 0x200 * i, 28, 16⟩
def ENC_RECT_SIZE_WIDTH_M1 (i : Nat) : Fld := ⟨0x120008 + 0x200 * i, 12, 0⟩
def ENC_GOP_IDR_REQ (i : Nat) : Fld := ⟨0x12000C + 0x200 * i, 31, 31⟩
def ENC_GOP_I_RATIO (i : Nat) : Fld := ⟨0x12000C + 0x200 * i, 23, 16⟩
def ENC_GOP_GOP_LEN (i : Nat) : Fld := ⟨0x12000C + 0x200 * i, 15, 0⟩
def ENC_RATE_BITRATE_KBPS (i : Nat) : Fld := ⟨0x120010 + 0x200 * i, 23, 0⟩
def ENC_CAP_CAP_BYTES (i : Nat) : Fld := ⟨0x120014 + 0x200 * i, 23, 0⟩
def ENC_QP_INIT_QP (i : Nat) : Fld := ⟨0x120018 + 0x200 * i, 29, 24⟩
def ENC_QP_QP_MAX (i : Nat) : Fld := ⟨0x120018 + 0x200 * i, 21, 16⟩
def ENC_QP_QP_MIN (i : Nat) : Fld := ⟨0x120018 + 0x200 * i, 13, 8⟩
def ENC_QP_CRIT_QP (i : Nat) : Fld := ⟨0x120018 + 0x200 * i, 4, 0⟩
def ENC_NET_RTP_EN (i : Nat) : Fld := ⟨0x12001C + 0x200 * i, 31, 31⟩
def ENC_NET_PORT (i : Nat) : Fld := ⟨0x12001C + 0x200 * i, 29, 24⟩
def ENC_NET_PT (i : Nat) : Fld := ⟨0x12001C + 0x200 * i, 22, 16⟩
def ENC_NET_UDP_PORT (i : Nat) : Fld := ⟨0x12001C + 0x200 * i, 15, 0⟩
def ENC_DST_ADDR (i : Nat) (j : Nat) : Fld := ⟨0x120020 + 0x200 * i + 0x4 * j, 31, 0⟩
def ENC_SSRC_SSRC (i : Nat) : Fld := ⟨0x120030 + 0x200 * i, 31, 0⟩
def ENC_RING_BASE_ADDR (i : Nat) : Fld := ⟨0x120034 + 0x200 * i, 31, 0⟩
def ENC_RING_SIZE_SIZE_4K (i : Nat) : Fld := ⟨0x120038 + 0x200 * i, 15, 0⟩
def ENC_RING_RD_OFFSET (i : Nat) : Fld := ⟨0x12003C + 0x200 * i, 31, 0⟩
def ENC_RING_WR_OFFSET (i : Nat) : Fld := ⟨0x120040 + 0x200 * i, 31, 0⟩
def ENC_STATUS_STATE (i : Nat) : Fld := ⟨0x120044 + 0x200 * i, 31, 29⟩
def ENC_STATUS_EXHAUSTED (i : Nat) : Fld := ⟨0x120044 + 0x200 * i, 28, 28⟩
def ENC_STATUS_CAPPED (i : Nat) : Fld := ⟨0x120044 + 0x200 * i, 27, 27⟩
def ENC_STATUS_RING_FULL (i : Nat) : Fld := ⟨0x120044 + 0x200 * i, 26, 26⟩
def ENC_STATUS_LAST_QP (i : Nat) : Fld := ⟨0x120044 + 0x200 * i, 21, 16⟩
def ENC_FRAMES_ENCODED (i : Nat) : Fld := ⟨0x120048 + 0x200 * i, 31, 16⟩
def ENC_FRAMES_SKIPPED (i : Nat) : Fld := ⟨0x120048 + 0x200 * i, 15, 0⟩
def ENC_CARRY_BITS (i : Nat) : Fld := ⟨0x12004C + 0x200 * i, 31, 0⟩
def ENC_ROI_POS_Y0 (i : Nat) (j : Nat) : Fld := ⟨0x120100 + 0x200 * i + 0x10 * j, 28, 16⟩
def ENC_ROI_POS_X0 (i : Nat) (j : Nat) : Fld := ⟨0x120100 + 0x200 * i + 0x10 * j, 12, 0⟩
def ENC_ROI_SIZE_HEIGHT_M1 (i : Nat) (j : Nat) : Fld := ⟨0x120104 + 0x200 * i + 0x10 * j, 28, 16⟩
def ENC_ROI_SIZE_WIDTH_M1 (i : Nat) (j : Nat) : Fld := ⟨0x120104 + 0x200 * i + 0x10 * j, 12, 0⟩
def ENC_ROI_CTRL_ENABLE (i : Nat) (j : Nat) : Fld := ⟨0x120108 + 0x200 * i + 0x10 * j, 31, 31⟩
def ENC_ROI_CTRL_QP_OFF (i : Nat) (j : Nat) : Fld := ⟨0x120108 + 0x200 * i + 0x10 * j, 4, 0⟩
def HRT_CFG_RATE : Fld := ⟨0x130000, 25, 24⟩
def HRT_CFG_FITTED : Fld := ⟨0x130000, 23, 0⟩
def HRT_SCHED_AGE_LIMIT : Fld := ⟨0x130004, 7, 0⟩
def HRT_SCRUB_ENABLE : Fld := ⟨0x130008, 31, 31⟩
def HRT_SCRUB_PERIOD_H : Fld := ⟨0x130008, 7, 0⟩
def HRT_TRAIN_ENABLE : Fld := ⟨0x13000C, 31, 31⟩
def HRT_TRAIN_DRIFT_PS : Fld := ⟨0x13000C, 23, 16⟩
def HRT_TRAIN_TEMP_DELTA_C : Fld := ⟨0x13000C, 15, 8⟩
def HRT_TRAIN_AT_US : Fld := ⟨0x13000C, 7, 0⟩
def HRT_CE_LIMIT_PER_TICK : Fld := ⟨0x130010, 15, 0⟩
def HRT_CH_STAT_STATE (i : Nat) : Fld := ⟨0x130100 + 0x20 * i, 31, 29⟩
def HRT_CH_STAT_OWED (i : Nat) : Fld := ⟨0x130100 + 0x20 * i, 23, 20⟩
def HRT_CH_STAT_DERATE (i : Nat) : Fld := ⟨0x130100 + 0x20 * i, 19, 18⟩
def HRT_CH_STAT_FORCED (i : Nat) : Fld := ⟨0x130100 + 0x20 * i, 15, 0⟩
def HRT_CH_ECC_CE (i : Nat) : Fld := ⟨0x130104 + 0x20 * i, 31, 16⟩
def HRT_CH_ECC_UE (i : Nat) : Fld := ⟨0x130104 + 0x20 * i, 15, 0⟩
def HRT_CH_ERRADDR_ADDR (i : Nat) : Fld := ⟨0x130108 + 0x20 * i, 31, 0⟩
def HRT_CH_ERRSRC_UE (i : Nat) : Fld := ⟨0x13010C + 0x20 * i, 31, 31⟩
def HRT_CH_ERRSRC_SCRUB (i : Nat) : Fld := ⟨0x13010C + 0x20 * i, 30, 30⟩
def HRT_CH_ERRSRC_SOURCE (i : Nat) : Fld := ⟨0x13010C + 0x20 * i, 7, 0⟩
def HRT_CH_TRAIN_AGE_S (i : Nat) : Fld := ⟨0x130110 + 0x20 * i, 31, 16⟩
def HRT_CH_TRAIN_TEMP_C (i : Nat) : Fld := ⟨0x130110 + 0x20 * i, 15, 8⟩
def HRT_CH_TRAIN_FAILS (i : Nat) : Fld := ⟨0x130110 + 0x20 * i, 7, 0⟩
def HRT_CH_TRAFFIC_RD_MB (i : Nat) : Fld := ⟨0x130114 + 0x20 * i, 31, 16⟩
def HRT_CH_TRAFFIC_WR_MB (i : Nat) : Fld := ⟨0x130114 + 0x20 * i, 15, 0⟩
def HRT_CH_PANIC_PANIC_US (i : Nat) : Fld := ⟨0x130118 + 0x20 * i, 31, 16⟩
def HRT_CH_PANIC_POSTPONED (i : Nat) : Fld := ⟨0x130118 + 0x20 * i, 15, 0⟩
def HRT_RT_PORT_PANIC (i : Nat) : Fld := ⟨0x130800 + 0x4 * i, 31, 31⟩
def HRT_RT_PORT_COUNT (i : Nat) : Fld := ⟨0x130800 + 0x4 * i, 23, 16⟩
def HRT_RT_PORT_PANIC_FILL (i : Nat) : Fld := ⟨0x130800 + 0x4 * i, 3, 0⟩
def MTX_SLICE_MASK : Fld := ⟨0x140000, 15, 0⟩
def MTX_STARVE_CYCLES : Fld := ⟨0x140004, 15, 0⟩
def MTX_FENCE_DONE : Fld := ⟨0x140008, 31, 0⟩
def MTX_LINK_STAT_RESENDS (i : Nat) : Fld := ⟨0x140020 + 0x4 * i, 31, 16⟩
def MTX_LINK_STAT_DROPPED (i : Nat) : Fld := ⟨0x140020 + 0x4 * i, 15, 0⟩
def MTX_PRIO_APERTURE (i : Nat) : Fld := ⟨0x141000 + 0x4 * i, 23, 20⟩
def MTX_PRIO_SRAM_IO (i : Nat) : Fld := ⟨0x141000 + 0x4 * i, 19, 16⟩
def MTX_PRIO_SRAM_B (i : Nat) : Fld := ⟨0x141000 + 0x4 * i, 15, 12⟩
def MTX_PRIO_SRAM_A (i : Nat) : Fld := ⟨0x141000 + 0x4 * i, 11, 8⟩
def MTX_PRIO_MEM_B (i : Nat) : Fld := ⟨0x141000 + 0x4 * i, 7, 4⟩
def MTX_PRIO_MEM_A (i : Nat) : Fld := ⟨0x141000 + 0x4 * i, 3, 0⟩
def MPU_EPOCH_EPOCH (i : Nat) : Fld := ⟨0x150000 + 0x4000 * i, 15, 0⟩
def MPU_UPD_START_VALUE (i : Nat) : Fld := ⟨0x150010 + 0x4000 * i, 31, 0⟩
def MPU_UPD_END_VALUE (i : Nat) : Fld := ⟨0x150014 + 0x4000 * i, 31, 0⟩
def MPU_UPD_PERM_VALUE (i : Nat) : Fld := ⟨0x150018 + 0x4000 * i, 31, 0⟩
def MPU_UPD_CTRL_VALUE (i : Nat) : Fld := ⟨0x15001C + 0x4000 * i, 31, 0⟩
def MPU_UPD_GO_GO (i : Nat) : Fld := ⟨0x150020 + 0x4000 * i, 31, 31⟩
def MPU_UPD_GO_INDEX (i : Nat) : Fld := ⟨0x150020 + 0x4000 * i, 7, 0⟩
def MPU_UPD_STAT_PENDING (i : Nat) : Fld := ⟨0x150024 + 0x4000 * i, 31, 31⟩
def MPU_UPD_STAT_REFUSED_LOCKED (i : Nat) : Fld := ⟨0x150024 + 0x4000 * i, 30, 30⟩
def MPU_UPD_STAT_BAD_RANGE (i : Nat) : Fld := ⟨0x150024 + 0x4000 * i, 29, 29⟩
def MPU_UPD_STAT_BUSY_HIT (i : Nat) : Fld := ⟨0x150024 + 0x4000 * i, 28, 28⟩
def MPU_UPD_STAT_DRAIN_US (i : Nat) : Fld := ⟨0x150024 + 0x4000 * i, 15, 0⟩
def MPU_VIOL_ADDR_LINE (i : Nat) : Fld := ⟨0x150030 + 0x4000 * i, 31, 0⟩
def MPU_VIOL_INFO_REGION (i : Nat) : Fld := ⟨0x150034 + 0x4000 * i, 24, 16⟩
def MPU_VIOL_INFO_KIND (i : Nat) : Fld := ⟨0x150034 + 0x4000 * i, 10, 8⟩
def MPU_VIOL_INFO_SOURCE (i : Nat) : Fld := ⟨0x150034 + 0x4000 * i, 7, 0⟩
def MPU_VIOL_COUNT_COUNT (i : Nat) : Fld := ⟨0x150038 + 0x4000 * i, 31, 0⟩
def MPU_RGN_START_LINE (i : Nat) (j : Nat) : Fld := ⟨0x151000 + 0x4000 * i + 0x10 * j, 31, 0⟩
def MPU_RGN_END_LINE (i : Nat) (j : Nat) : Fld := ⟨0x151004 + 0x4000 * i + 0x10 * j, 31, 0⟩
def MPU_RGN_PERM_RIGHTS (i : Nat) (j : Nat) : Fld := ⟨0x151008 + 0x4000 * i + 0x10 * j, 17, 0⟩
def MPU_RGN_CTRL_ENABLE (i : Nat) (j : Nat) : Fld := ⟨0x15100C + 0x4000 * i + 0x10 * j, 31, 31⟩
def MPU_RGN_CTRL_LOCK (i : Nat) (j : Nat) : Fld := ⟨0x15100C + 0x4000 * i + 0x10 * j, 30, 30⟩
def MPU_RGN_CTRL_COLOUR (i : Nat) (j : Nat) : Fld := ⟨0x15100C + 0x4000 * i + 0x10 * j, 8, 0⟩
def LANE_QUAD_Q3 : Fld := ⟨0x160000, 31, 24⟩
def LANE_QUAD_Q2 : Fld := ⟨0x160000, 23, 16⟩
def LANE_QUAD_Q1 : Fld := ⟨0x160000, 15, 8⟩
def LANE_QUAD_Q0 : Fld := ⟨0x160000, 7, 0⟩
def LANE_TRAIN_CFG_RETRY_S : Fld := ⟨0x160004, 23, 16⟩
def LANE_TRAIN_CFG_EYE_MIN : Fld := ⟨0x160004, 7, 0⟩
def LANE_UP_UP (i : Nat) : Fld := ⟨0x160010 + 0x4 * i, 31, 0⟩
def LANE_CFG_PORT (i : Nat) : Fld := ⟨0x161000 + 0x40 * i, 29, 24⟩
def LANE_CFG_INDEX (i : Nat) : Fld := ⟨0x161000 + 0x40 * i, 21, 20⟩
def LANE_CFG_MAX_RATE (i : Nat) : Fld := ⟨0x161000 + 0x40 * i, 19, 16⟩
def LANE_CFG_CABLE (i : Nat) : Fld := ⟨0x161000 + 0x40 * i, 11, 8⟩
def LANE_CFG_RX_INV (i : Nat) : Fld := ⟨0x161000 + 0x40 * i, 1, 1⟩
def LANE_CFG_TX_INV (i : Nat) : Fld := ⟨0x161000 + 0x40 * i, 0, 0⟩
def LANE_CTRL_SURVEY (i : Nat) : Fld := ⟨0x161004 + 0x40 * i, 31, 31⟩
def LANE_CTRL_AWAKE (i : Nat) : Fld := ⟨0x161004 + 0x40 * i, 30, 30⟩
def LANE_CTRL_EYE_WARN (i : Nat) : Fld := ⟨0x161004 + 0x40 * i, 7, 0⟩
def LANE_STATUS_STATE (i : Nat) : Fld := ⟨0x161008 + 0x40 * i, 31, 28⟩
def LANE_STATUS_RATE (i : Nat) : Fld := ⟨0x161008 + 0x40 * i, 27, 24⟩
def LANE_STATUS_LOCK (i : Nat) : Fld := ⟨0x161008 + 0x40 * i, 23, 23⟩
def LANE_STATUS_ALIGNED (i : Nat) : Fld := ⟨0x161008 + 0x40 * i, 22, 22⟩
def LANE_STATUS_TRAIN_FAIL (i : Nat) : Fld := ⟨0x161008 + 0x40 * i, 21, 21⟩
def LANE_STATUS_ATTEMPT (i : Nat) : Fld := ⟨0x161008 + 0x40 * i, 20, 18⟩
def LANE_STATUS_EYE (i : Nat) : Fld := ⟨0x161008 + 0x40 * i, 7, 0⟩
def LANE_TXEQ_PRESET (i : Nat) : Fld := ⟨0x16100C + 0x40 * i, 31, 28⟩
def LANE_TXEQ_MAIN (i : Nat) : Fld := ⟨0x16100C + 0x40 * i, 23, 16⟩
def LANE_TXEQ_POST (i : Nat) : Fld := ⟨0x16100C + 0x40 * i, 12, 8⟩
def LANE_TXEQ_PRE (i : Nat) : Fld := ⟨0x16100C + 0x40 * i, 3, 0⟩
def LANE_RXEQ_PEAK (i : Nat) : Fld := ⟨0x161010 + 0x40 * i, 27, 24⟩
def LANE_RXEQ_DC_GAIN (i : Nat) : Fld := ⟨0x161010 + 0x40 * i, 18, 16⟩
def LANE_RXEQ_DFE1 (i : Nat) : Fld := ⟨0x161010 + 0x40 * i, 7, 0⟩
def LANE_DFE_DFE5 (i : Nat) : Fld := ⟨0x161014 + 0x40 * i, 31, 24⟩
def LANE_DFE_DFE4 (i : Nat) : Fld := ⟨0x161014 + 0x40 * i, 23, 16⟩
def LANE_DFE_DFE3 (i : Nat) : Fld := ⟨0x161014 + 0x40 * i, 15, 8⟩
def LANE_DFE_DFE2 (i : Nat) : Fld := ⟨0x161014 + 0x40 * i, 7, 0⟩
def LANE_EYE_V (i : Nat) : Fld := ⟨0x161018 + 0x40 * i, 23, 16⟩
def LANE_EYE_H (i : Nat) : Fld := ⟨0x161018 + 0x40 * i, 14, 8⟩
def LANE_EYE_EYE (i : Nat) : Fld := ⟨0x161018 + 0x40 * i, 7, 0⟩
def LANE_SURVEY_DONE (i : Nat) : Fld := ⟨0x16101C + 0x40 * i, 31, 31⟩
def LANE_SURVEY_VALID (i : Nat) : Fld := ⟨0x16101C + 0x40 * i, 30, 30⟩
def LANE_SURVEY_LEN_DM (i : Nat) : Fld := ⟨0x16101C + 0x40 * i, 23, 12⟩
def LANE_SURVEY_IL_QDB (i : Nat) : Fld := ⟨0x16101C + 0x40 * i, 7, 0⟩
def LANE_TEST_MODE (i : Nat) : Fld := ⟨0x161020 + 0x40 * i, 31, 29⟩
def LANE_TEST_PATTERN (i : Nat) : Fld := ⟨0x161020 + 0x40 * i, 26, 24⟩
def LANE_TEST_ERR_ONE (i : Nat) : Fld := ⟨0x161020 + 0x40 * i, 23, 23⟩
def LANE_TEST_PRBS_LOCK (i : Nat) : Fld := ⟨0x161020 + 0x40 * i, 22, 22⟩
def LANE_TEST_TEST_RATE (i : Nat) : Fld := ⟨0x161020 + 0x40 * i, 15, 12⟩
def LANE_TEST_ERR_EXP (i : Nat) : Fld := ⟨0x161020 + 0x40 * i, 5, 0⟩
def LANE_PRBS_ERR_ERRORS (i : Nat) : Fld := ⟨0x161024 + 0x40 * i, 31, 0⟩
def LANE_PRBS_BITS_BITS_64K (i : Nat) : Fld := ⟨0x161028 + 0x40 * i, 31, 0⟩
def LANE_COUNTS_TRAINS (i : Nat) : Fld := ⟨0x16102C + 0x40 * i, 31, 24⟩
def LANE_COUNTS_STEP_DOWNS (i : Nat) : Fld := ⟨0x16102C + 0x40 * i, 23, 16⟩
def LANE_COUNTS_ALIGN_LOST (i : Nat) : Fld := ⟨0x16102C + 0x40 * i, 15, 8⟩
def LANE_COUNTS_LP_EXITS (i : Nat) : Fld := ⟨0x16102C + 0x40 * i, 7, 0⟩
def LANE_SKEW_PEER_INDEX (i : Nat) : Fld := ⟨0x161030 + 0x40 * i, 25, 24⟩
def LANE_SKEW_SKEW_UI (i : Nat) : Fld := ⟨0x161030 + 0x40 * i, 15, 0⟩
def PORT_CFG_ENABLE (i : Nat) : Fld := ⟨0x171000 + 0x100 * i, 31, 31⟩
def PORT_CFG_TYPE (i : Nat) : Fld := ⟨0x171000 + 0x100 * i, 30, 28⟩
def PORT_CFG_LANES (i : Nat) : Fld := ⟨0x171000 + 0x100 * i, 25, 24⟩
def PORT_CFG_MAX_RATE (i : Nat) : Fld := ⟨0x171000 + 0x100 * i, 23, 20⟩
def PORT_STATUS_STATE (i : Nat) : Fld := ⟨0x171004 + 0x100 * i, 31, 28⟩
def PORT_STATUS_RATE (i : Nat) : Fld := ⟨0x171004 + 0x100 * i, 27, 24⟩
def PORT_STATUS_LANES (i : Nat) : Fld := ⟨0x171004 + 0x100 * i, 23, 22⟩
def PORT_STATUS_PARTNER (i : Nat) : Fld := ⟨0x171004 + 0x100 * i, 21, 21⟩
def PORT_STATUS_TRAINS (i : Nat) : Fld := ⟨0x171004 + 0x100 * i, 15, 0⟩
def PORT_SINK_TOTAL_V_TOTAL (i : Nat) : Fld := ⟨0x171010 + 0x100 * i, 31, 16⟩
def PORT_SINK_TOTAL_H_TOTAL (i : Nat) : Fld := ⟨0x171010 + 0x100 * i, 15, 0⟩
def PORT_SINK_ACTIVE_V_ACTIVE (i : Nat) : Fld := ⟨0x171014 + 0x100 * i, 31, 16⟩
def PORT_SINK_ACTIVE_H_ACTIVE (i : Nat) : Fld := ⟨0x171014 + 0x100 * i, 15, 0⟩
def PORT_SINK_FMT_SIGNAL (i : Nat) : Fld := ⟨0x171018 + 0x100 * i, 31, 31⟩
def PORT_SINK_FMT_GENLOCK (i : Nat) : Fld := ⟨0x171018 + 0x100 * i, 30, 30⟩
def PORT_SINK_FMT_FORMAT (i : Nat) : Fld := ⟨0x171018 + 0x100 * i, 27, 24⟩
def PORT_SINK_FMT_COLORIMETRY (i : Nat) : Fld := ⟨0x171018 + 0x100 * i, 23, 20⟩
def PORT_SINK_FMT_LIMITED (i : Nat) : Fld := ⟨0x171018 + 0x100 * i, 19, 19⟩
def PORT_SINK_FMT_AUDIO_CH (i : Nat) : Fld := ⟨0x171018 + 0x100 * i, 11, 8⟩
def PORT_SINK_PERIOD_PERIOD_NS (i : Nat) : Fld := ⟨0x17101C + 0x100 * i, 31, 0⟩
def PORT_SRC_CAP_DPCD_REV (i : Nat) : Fld := ⟨0x172010 + 0x100 * i, 31, 24⟩
def PORT_SRC_CAP_MAX_RATE (i : Nat) : Fld := ⟨0x172010 + 0x100 * i, 23, 20⟩
def PORT_SRC_CAP_MAX_LANES (i : Nat) : Fld := ⟨0x172010 + 0x100 * i, 19, 17⟩
def PORT_SRC_CAP_EDID_OK (i : Nat) : Fld := ⟨0x172010 + 0x100 * i, 16, 16⟩
def PORT_SRC_CAP_EDID_BLOCKS (i : Nat) : Fld := ⟨0x172010 + 0x100 * i, 2, 0⟩
def PORT_SRC_PREF_V_ACTIVE (i : Nat) : Fld := ⟨0x172014 + 0x100 * i, 31, 16⟩
def PORT_SRC_PREF_H_ACTIVE (i : Nat) : Fld := ⟨0x172014 + 0x100 * i, 15, 0⟩
def PORT_SRC_PREF_CLK_CLK_KHZ (i : Nat) : Fld := ⟨0x172018 + 0x100 * i, 31, 0⟩
def PORT_SRC_LEVEL_LEVELS (i : Nat) : Fld := ⟨0x17201C + 0x100 * i, 31, 0⟩
def PORT_ETH_CTRL_RS_FEC (i : Nat) : Fld := ⟨0x173810 + 0x100 * i, 31, 31⟩
def PORT_ETH_CTRL_IPV6 (i : Nat) : Fld := ⟨0x173810 + 0x100 * i, 30, 30⟩
def PORT_ETH_CTRL_PCP (i : Nat) : Fld := ⟨0x173810 + 0x100 * i, 15, 13⟩
def PORT_ETH_CTRL_VLAN_EN (i : Nat) : Fld := ⟨0x173810 + 0x100 * i, 12, 12⟩
def PORT_ETH_CTRL_VID (i : Nat) : Fld := ⟨0x173810 + 0x100 * i, 11, 0⟩
def PORT_ETH_IP4_ADDR (i : Nat) : Fld := ⟨0x173814 + 0x100 * i, 31, 0⟩
def PORT_ETH_GW4_ADDR (i : Nat) : Fld := ⟨0x173818 + 0x100 * i, 31, 0⟩
def PORT_ETH_PREFIX_PREFIX6 (i : Nat) : Fld := ⟨0x17381C + 0x100 * i, 15, 8⟩
def PORT_ETH_PREFIX_PREFIX4 (i : Nat) : Fld := ⟨0x17381C + 0x100 * i, 7, 0⟩
def PORT_ETH_IP6_ADDR (i : Nat) (j : Nat) : Fld := ⟨0x173820 + 0x100 * i + 0x4 * j, 31, 0⟩
def PORT_ETH_GW6_ADDR (i : Nat) (j : Nat) : Fld := ⟨0x173830 + 0x100 * i + 0x4 * j, 31, 0⟩
def PORT_ETH_DSCP_PTP (i : Nat) : Fld := ⟨0x173840 + 0x100 * i, 29, 24⟩
def PORT_ETH_DSCP_AUDIO (i : Nat) : Fld := ⟨0x173840 + 0x100 * i, 21, 16⟩
def PORT_ETH_DSCP_VIDEO (i : Nat) : Fld := ⟨0x173840 + 0x100 * i, 13, 8⟩
def PORT_ETH_DROP_RX (i : Nat) : Fld := ⟨0x173844 + 0x100 * i, 31, 16⟩
def PORT_ETH_DROP_TX (i : Nat) : Fld := ⟨0x173844 + 0x100 * i, 15, 0⟩
def PORT_ETH_FEC_UNCORR (i : Nat) : Fld := ⟨0x173848 + 0x100 * i, 31, 16⟩
def PORT_ETH_FEC_CORR (i : Nat) : Fld := ⟨0x173848 + 0x100 * i, 15, 0⟩
def PORT_PCIE_LINK_GEN : Fld := ⟨0x174010, 31, 28⟩
def PORT_PCIE_LINK_WIDTH : Fld := ⟨0x174010, 27, 24⟩
def PORT_PCIE_LINK_RESETS : Fld := ⟨0x174010, 23, 16⟩
def PORT_PCIE_LINK_UNCORR : Fld := ⟨0x174010, 15, 8⟩
def PORT_PCIE_LINK_CORR : Fld := ⟨0x174010, 7, 0⟩
def PORT_PCIE_WIN_BASE_64K : Fld := ⟨0x174014, 21, 0⟩
def PORT_EDID_BYTES (i : Nat) (j : Nat) : Fld := ⟨0x178000 + 0x200 * i + 0x4 * j, 31, 0⟩
def CRL_SYS_MASTER_VALID : Fld := ⟨0x180000, 31, 31⟩
def CRL_SYS_MASTER_ID : Fld := ⟨0x180000, 26, 24⟩
def CRL_SYS_MASTER_PRIO : Fld := ⟨0x180000, 23, 16⟩
def CRL_SYS_PEERS : Fld := ⟨0x180000, 7, 0⟩
def CRL_CFG_RETRY_US : Fld := ⟨0x180004, 23, 16⟩
def CRL_CFG_IMPORT_CUT_US : Fld := ⟨0x180004, 15, 0⟩
def CRL_LINK_STATUS_STATE (i : Nat) : Fld := ⟨0x180100 + 0x40 * i, 31, 28⟩
def CRL_LINK_STATUS_PEER_ID (i : Nat) : Fld := ⟨0x180100 + 0x40 * i, 26, 24⟩
def CRL_LINK_STATUS_RATE (i : Nat) : Fld := ⟨0x180100 + 0x40 * i, 15, 12⟩
def CRL_LINK_STATUS_UNACKED (i : Nat) : Fld := ⟨0x180100 + 0x40 * i, 11, 0⟩
def CRL_LINK_DELAY_DELAY_NS (i : Nat) : Fld := ⟨0x180104 + 0x40 * i, 15, 0⟩
def CRL_LINK_CREDIT_BULK (i : Nat) : Fld := ⟨0x180108 + 0x40 * i, 31, 16⟩
def CRL_LINK_CREDIT_CONTROL (i : Nat) : Fld := ⟨0x180108 + 0x40 * i, 15, 0⟩
def CRL_LINK_RETRY_REWINDS (i : Nat) : Fld := ⟨0x18010C + 0x40 * i, 31, 16⟩
def CRL_LINK_RETRY_CRC_ERRORS (i : Nat) : Fld := ⟨0x18010C + 0x40 * i, 15, 0⟩
def CRL_LINK_LATE_STALE (i : Nat) : Fld := ⟨0x180110 + 0x40 * i, 31, 16⟩
def CRL_LINK_LATE_LATE (i : Nat) : Fld := ⟨0x180110 + 0x40 * i, 15, 0⟩
def CRL_IMP_CFG_ENABLE (i : Nat) : Fld := ⟨0x180400 + 0x10 * i, 31, 31⟩
def CRL_IMP_CFG_PKG_ID (i : Nat) : Fld := ⟨0x180400 + 0x10 * i, 26, 24⟩
def CRL_IMP_CFG_EXPORT_SLOT (i : Nat) : Fld := ⟨0x180400 + 0x10 * i, 21, 16⟩
def CRL_IMP_BUF_ADDR (i : Nat) : Fld := ⟨0x180404 + 0x10 * i, 31, 0⟩
def CRL_IMP_SIZE_FRAME_4K (i : Nat) : Fld := ⟨0x180408 + 0x10 * i, 15, 0⟩
def CRL_IMP_STAT_HELD (i : Nat) : Fld := ⟨0x18040C + 0x10 * i, 31, 16⟩
def CRL_IMP_STAT_FRAMES (i : Nat) : Fld := ⟨0x18040C + 0x10 * i, 15, 0⟩
def CRL_EXP_CFG_LINKS (i : Nat) : Fld := ⟨0x180800 + 0x4 * i, 3, 0⟩
def CRL_REG_CMD_GO : Fld := ⟨0x180C00, 31, 31⟩
def CRL_REG_CMD_BUSY : Fld := ⟨0x180C00, 30, 30⟩
def CRL_REG_CMD_STATUS : Fld := ⟨0x180C00, 29, 28⟩
def CRL_REG_CMD_WRITE : Fld := ⟨0x180C00, 27, 27⟩
def CRL_REG_CMD_LINK : Fld := ⟨0x180C00, 25, 24⟩
def CRL_REG_CMD_COUNT : Fld := ⟨0x180C00, 20, 16⟩
def CRL_REG_ADDR_OFFSET : Fld := ⟨0x180C04, 23, 0⟩
def CRL_REG_DATA_DATA (i : Nat) : Fld := ⟨0x180C40 + 0x4 * i, 31, 0⟩
def AUD_GRP_FOLLOW (i : Nat) : Fld := ⟨0x190000 + 0x4 * i, 31, 31⟩
def AUD_GRP_REF (i : Nat) : Fld := ⟨0x190000 + 0x4 * i, 27, 24⟩
def AUD_GRP_LOCKED (i : Nat) : Fld := ⟨0x190000 + 0x4 * i, 20, 20⟩
def AUD_GRP_RATE_HZ (i : Nat) : Fld := ⟨0x190000 + 0x4 * i, 17, 0⟩
def AUD_IEC_CFG_MODE (i : Nat) : Fld := ⟨0x190100 + 0x40 * i, 31, 30⟩
def AUD_IEC_CFG_PRO (i : Nat) : Fld := ⟨0x190100 + 0x40 * i, 29, 29⟩
def AUD_IEC_CFG_CS_AUTO (i : Nat) : Fld := ⟨0x190100 + 0x40 * i, 28, 28⟩
def AUD_IEC_CFG_RATE (i : Nat) : Fld := ⟨0x190100 + 0x40 * i, 27, 24⟩
def AUD_IEC_CFG_WORD (i : Nat) : Fld := ⟨0x190100 + 0x40 * i, 21, 20⟩
def AUD_IEC_STAT_LOCK (i : Nat) : Fld := ⟨0x190104 + 0x40 * i, 31, 31⟩
def AUD_IEC_STAT_NON_AUDIO (i : Nat) : Fld := ⟨0x190104 + 0x40 * i, 30, 30⟩
def AUD_IEC_STAT_LOAD (i : Nat) : Fld := ⟨0x190104 + 0x40 * i, 29, 28⟩
def AUD_IEC_STAT_RATE (i : Nat) : Fld := ⟨0x190104 + 0x40 * i, 27, 24⟩
def AUD_IEC_STAT_ERRORS (i : Nat) : Fld := ⟨0x190104 + 0x40 * i, 15, 0⟩
def AUD_IEC_CS_BYTES (i : Nat) (j : Nat) : Fld := ⟨0x190108 + 0x40 * i + 0x4 * j, 31, 0⟩
def AUD_TDM_CFG_DIR (i : Nat) : Fld := ⟨0x190400 + 0x20 * i, 31, 31⟩
def AUD_TDM_CFG_FORMAT (i : Nat) : Fld := ⟨0x190400 + 0x20 * i, 30, 30⟩
def AUD_TDM_CFG_MASTER (i : Nat) : Fld := ⟨0x190400 + 0x20 * i, 29, 29⟩
def AUD_TDM_CFG_WORD (i : Nat) : Fld := ⟨0x190400 + 0x20 * i, 28, 27⟩
def AUD_TDM_CFG_RATE (i : Nat) : Fld := ⟨0x190400 + 0x20 * i, 23, 20⟩
def AUD_TDM_SLOTS_TRISTATE (i : Nat) : Fld := ⟨0x190404 + 0x20 * i, 8, 8⟩
def AUD_TDM_SLOTS_SLOT_MASK (i : Nat) : Fld := ⟨0x190404 + 0x20 * i, 7, 0⟩
def AUD_TDM_STAT_LOCK (i : Nat) : Fld := ⟨0x190408 + 0x20 * i, 31, 31⟩
def AUD_TDM_STAT_ACTIVE_MASK (i : Nat) : Fld := ⟨0x190408 + 0x20 * i, 23, 16⟩
def AUD_AES_CFG_ENABLE (i : Nat) : Fld := ⟨0x190800 + 0x20 * i, 31, 31⟩
def AUD_AES_CFG_PTP (i : Nat) : Fld := ⟨0x190800 + 0x20 * i, 30, 30⟩
def AUD_AES_CFG_PORT (i : Nat) : Fld := ⟨0x190800 + 0x20 * i, 29, 24⟩
def AUD_AES_CFG_PTIME (i : Nat) : Fld := ⟨0x190800 + 0x20 * i, 23, 23⟩
def AUD_AES_CFG_CH_M1 (i : Nat) : Fld := ⟨0x190800 + 0x20 * i, 18, 16⟩
def AUD_AES_CFG_UDP_PORT (i : Nat) : Fld := ⟨0x190800 + 0x20 * i, 15, 0⟩
def AUD_AES_ADDR_ADDR (i : Nat) (j : Nat) : Fld := ⟨0x190804 + 0x20 * i + 0x4 * j, 31, 0⟩
def AUD_AES_RTP_OFS_RTP_OFS (i : Nat) : Fld := ⟨0x190814 + 0x20 * i, 31, 0⟩
def AUD_AES_NET_ACTIVE (i : Nat) : Fld := ⟨0x190818 + 0x20 * i, 31, 31⟩
def AUD_AES_NET_PT (i : Nat) : Fld := ⟨0x190818 + 0x20 * i, 22, 16⟩
def AUD_AES_NET_LOST (i : Nat) : Fld := ⟨0x190818 + 0x20 * i, 15, 0⟩
def AUD_AES_SSRC_SSRC (i : Nat) : Fld := ⟨0x19081C + 0x20 * i, 31, 0⟩
def AUD_RT_EP_SRC_KIND (i : Nat) : Fld := ⟨0x191000 + 0x20 * i, 31, 28⟩
def AUD_RT_EP_SRC_INDEX (i : Nat) : Fld := ⟨0x191000 + 0x20 * i, 27, 16⟩
def AUD_RT_EP_DST_KIND (i : Nat) : Fld := ⟨0x191000 + 0x20 * i, 15, 12⟩
def AUD_RT_EP_DST_INDEX (i : Nat) : Fld := ⟨0x191000 + 0x20 * i, 11, 0⟩
def AUD_RT_CTRL_ENABLE (i : Nat) : Fld := ⟨0x191004 + 0x20 * i, 31, 31⟩
def AUD_RT_CTRL_ALIGN (i : Nat) : Fld := ⟨0x191004 + 0x20 * i, 30, 30⟩
def AUD_RT_CTRL_CH_M1 (i : Nat) : Fld := ⟨0x191004 + 0x20 * i, 26, 24⟩
def AUD_RT_CTRL_ASRC (i : Nat) : Fld := ⟨0x191004 + 0x20 * i, 23, 16⟩
def AUD_RT_CTRL_DELAY_US (i : Nat) : Fld := ⟨0x191004 + 0x20 * i, 15, 0⟩
def AUD_RT_MAP_MAP (i : Nat) : Fld := ⟨0x191008 + 0x20 * i, 31, 0⟩
def AUD_RT_STAT_STATE (i : Nat) : Fld := ⟨0x19100C + 0x20 * i, 31, 29⟩
def AUD_RT_STAT_UNDERRUNS (i : Nat) : Fld := ⟨0x19100C + 0x20 * i, 15, 0⟩
def AUD_RT_ALIGN_DROPPED (i : Nat) : Fld := ⟨0x191010 + 0x20 * i, 31, 16⟩
def AUD_RT_ALIGN_INSERTED (i : Nat) : Fld := ⟨0x191010 + 0x20 * i, 15, 0⟩
def AUD_ASRC_RATIO_RATIO (i : Nat) : Fld := ⟨0x191800 + 0x8 * i, 31, 0⟩
def AUD_ASRC_STAT_LOCKED (i : Nat) : Fld := ⟨0x191804 + 0x8 * i, 31, 31⟩
def AUD_ASRC_STAT_ROUTE (i : Nat) : Fld := ⟨0x191804 + 0x8 * i, 7, 0⟩
def TCH_STATUS_WAKE : Fld := ⟨0x1A0000, 15, 12⟩
def TCH_STATUS_LOW_POWER : Fld := ⟨0x1A0000, 11, 8⟩
def TCH_STATUS_SCANNING : Fld := ⟨0x1A0000, 7, 4⟩
def TCH_STATUS_CONFIGURED : Fld := ⟨0x1A0000, 3, 0⟩
def TCH_RING_BASE_VALUE : Fld := ⟨0x1A0004, 31, 0⟩
def TCH_RING_SIZE_VALUE : Fld := ⟨0x1A0008, 31, 0⟩
def TCH_RING_RD_VALUE : Fld := ⟨0x1A000C, 31, 0⟩
def TCH_RING_WR_VALUE : Fld := ⟨0x1A0010, 31, 0⟩
def TCH_NODE_SEL_BASELINE : Fld := ⟨0x1A0014, 0, 0⟩
def TCH_OPEN_LINES (i : Nat) : Fld := ⟨0x1A0040 + 0x4 * i, 31, 0⟩
def TCH_SHORT_LINES (i : Nat) : Fld := ⟨0x1A0080 + 0x4 * i, 31, 0⟩
def TCH_PNL_CTRL_ENABLE (i : Nat) : Fld := ⟨0x1A0100 + 0x40 * i, 31, 31⟩
def TCH_PNL_CTRL_MODE (i : Nat) : Fld := ⟨0x1A0100 + 0x40 * i, 30, 30⟩
def TCH_PNL_CTRL_TEST (i : Nat) : Fld := ⟨0x1A0100 + 0x40 * i, 29, 29⟩
def TCH_PNL_CTRL_SURVEY (i : Nat) : Fld := ⟨0x1A0100 + 0x40 * i, 28, 28⟩
def TCH_PNL_CTRL_RPT (i : Nat) : Fld := ⟨0x1A0100 + 0x40 * i, 25, 24⟩
def TCH_PNL_CTRL_WAKE_PRESS (i : Nat) : Fld := ⟨0x1A0100 + 0x40 * i, 17, 17⟩
def TCH_PNL_CTRL_WAKE_TAP (i : Nat) : Fld := ⟨0x1A0100 + 0x40 * i, 16, 16⟩
def TCH_PNL_CTRL_LP_HZ (i : Nat) : Fld := ⟨0x1A0100 + 0x40 * i, 15, 8⟩
def TCH_PNL_CTRL_PROV_S (i : Nat) : Fld := ⟨0x1A0100 + 0x40 * i, 7, 0⟩
def TCH_PNL_DRIVE_F_TX_KHZ (i : Nat) : Fld := ⟨0x1A0104 + 0x40 * i, 31, 16⟩
def TCH_PNL_DRIVE_PULSES (i : Nat) : Fld := ⟨0x1A0104 + 0x40 * i, 15, 0⟩
def TCH_PNL_QW_QW_START (i : Nat) : Fld := ⟨0x1A0108 + 0x40 * i, 31, 16⟩
def TCH_PNL_QW_QW_LEN (i : Nat) : Fld := ⟨0x1A0108 + 0x40 * i, 15, 0⟩
def TCH_PNL_THR_TOUCH_THR (i : Nat) : Fld := ⟨0x1A010C + 0x40 * i, 31, 24⟩
def TCH_PNL_THR_RELEASE_THR (i : Nat) : Fld := ⟨0x1A010C + 0x40 * i, 23, 16⟩
def TCH_PNL_THR_ANTI_THR (i : Nat) : Fld := ⟨0x1A010C + 0x40 * i, 15, 8⟩
def TCH_PNL_THR_DRIFT_SHIFT (i : Nat) : Fld := ⟨0x1A010C + 0x40 * i, 3, 0⟩
def TCH_PNL_TEST_TEST_DONE (i : Nat) : Fld := ⟨0x1A0110 + 0x40 * i, 31, 31⟩
def TCH_PNL_TEST_ABORTED (i : Nat) : Fld := ⟨0x1A0110 + 0x40 * i, 30, 30⟩
def TCH_PNL_TEST_SHORT_MIN (i : Nat) : Fld := ⟨0x1A0110 + 0x40 * i, 15, 8⟩
def TCH_PNL_TEST_OPEN_MIN (i : Nat) : Fld := ⟨0x1A0110 + 0x40 * i, 7, 0⟩
def TCH_PNL_STAT_STATE (i : Nat) : Fld := ⟨0x1A0114 + 0x40 * i, 31, 29⟩
def TCH_PNL_STAT_PROVISIONAL (i : Nat) : Fld := ⟨0x1A0114 + 0x40 * i, 28, 28⟩
def TCH_PNL_STAT_LATE (i : Nat) : Fld := ⟨0x1A0114 + 0x40 * i, 15, 0⟩
def TCH_OVL_MAP_FLUE (i : Nat) : Fld := ⟨0x1A0400 + 0x10 * i, 31, 24⟩
def TCH_OVL_MAP_SENSE_FIRST (i : Nat) : Fld := ⟨0x1A0400 + 0x10 * i, 23, 16⟩
def TCH_OVL_MAP_SENSE_COUNT (i : Nat) : Fld := ⟨0x1A0400 + 0x10 * i, 15, 8⟩
def TCH_OVL_MAP_PROFILE (i : Nat) : Fld := ⟨0x1A0400 + 0x10 * i, 7, 0⟩
def TCH_OVL_SURVEY_IDENT (i : Nat) : Fld := ⟨0x1A0404 + 0x10 * i, 23, 16⟩
def TCH_OVL_SURVEY_SENSE_PF10 (i : Nat) : Fld := ⟨0x1A0404 + 0x10 * i, 15, 8⟩
def TCH_OVL_SURVEY_DRIVE_PF10 (i : Nat) : Fld := ⟨0x1A0404 + 0x10 * i, 7, 0⟩
def TCH_OVL_STAT_STATE (i : Nat) : Fld := ⟨0x1A0408 + 0x10 * i, 31, 30⟩
def TCH_OVL_STAT_CONTACTS (i : Nat) : Fld := ⟨0x1A0408 + 0x10 * i, 19, 16⟩
def TCH_OVL_STAT_REBASES (i : Nat) : Fld := ⟨0x1A0408 + 0x10 * i, 15, 0⟩
def PWR_STATUS_PKG_FAULT : Fld := ⟨0x1B0000, 31, 31⟩
def PWR_STATUS_THERMTRIP : Fld := ⟨0x1B0000, 30, 30⟩
def PWR_STATUS_SEQ_BUSY : Fld := ⟨0x1B0000, 29, 29⟩
def PWR_STATUS_POWERED : Fld := ⟨0x1B0000, 16, 0⟩
def PWR_DOMAIN_FAULT_TRIPPED : Fld := ⟨0x1B0004, 16, 0⟩
def PWR_RST_CAUSE_WARM_COUNT : Fld := ⟨0x1B0008, 31, 16⟩
def PWR_RST_CAUSE_THERMTRIP : Fld := ⟨0x1B0008, 4, 4⟩
def PWR_RST_CAUSE_AFTER_FAULT : Fld := ⟨0x1B0008, 3, 3⟩
def PWR_RST_CAUSE_WARM_REG : Fld := ⟨0x1B0008, 2, 2⟩
def PWR_RST_CAUSE_WARM_BALL : Fld := ⟨0x1B0008, 1, 1⟩
def PWR_RST_CAUSE_PORST : Fld := ⟨0x1B0008, 0, 0⟩
def PWR_BOOT_BOOTSEL : Fld := ⟨0x1B000C, 1, 0⟩
def PWR_RESET_KEY : Fld := ⟨0x1B0010, 31, 16⟩
def PWR_RESET_WARM : Fld := ⟨0x1B0010, 0, 0⟩
def PWR_WAKE_PENDING : Fld := ⟨0x1B0014, 31, 31⟩
def PWR_WAKE_FLUES : Fld := ⟨0x1B0014, 23, 0⟩
def PWR_MON_CFG_HIGH_MV (i : Nat) : Fld := ⟨0x1B0100 + 0x8 * i, 31, 16⟩
def PWR_MON_CFG_LOW_MV (i : Nat) : Fld := ⟨0x1B0100 + 0x8 * i, 15, 0⟩
def PWR_MON_STAT_IN_WINDOW (i : Nat) : Fld := ⟨0x1B0104 + 0x8 * i, 31, 31⟩
def PWR_MON_STAT_TRIPS (i : Nat) : Fld := ⟨0x1B0104 + 0x8 * i, 30, 24⟩
def PWR_MON_STAT_MV (i : Nat) : Fld := ⟨0x1B0104 + 0x8 * i, 15, 0⟩
def PWR_TEMP_VALID (i : Nat) : Fld := ⟨0x1B0200 + 0x4 * i, 31, 31⟩
def PWR_TEMP_TEMP (i : Nat) : Fld := ⟨0x1B0200 + 0x4 * i, 15, 0⟩
def INJ_PERMIT_DENIED : Fld := ⟨0x1C0000, 31, 31⟩
def INJ_PERMIT_LANE : Fld := ⟨0x1C0000, 4, 4⟩
def INJ_PERMIT_DRAM : Fld := ⟨0x1C0000, 3, 3⟩
def INJ_PERMIT_VOTER : Fld := ⟨0x1C0000, 2, 2⟩
def INJ_PERMIT_ETH_RX : Fld := ⟨0x1C0000, 1, 1⟩
def INJ_PERMIT_CRL_RX : Fld := ⟨0x1C0000, 0, 0⟩
def INJ_SEED_SEED : Fld := ⟨0x1C0004, 31, 0⟩
def INJ_RX_CFG_MODE (i : Nat) : Fld := ⟨0x1C0100 + 0x4 * i, 31, 30⟩
def INJ_RX_CFG_DIST (i : Nat) : Fld := ⟨0x1C0100 + 0x4 * i, 26, 24⟩
def INJ_RX_CFG_RATE (i : Nat) : Fld := ⟨0x1C0100 + 0x4 * i, 15, 0⟩
def INJ_VOTER_ENABLE : Fld := ⟨0x1C0200, 31, 31⟩
def INJ_VOTER_UNIT : Fld := ⟨0x1C0200, 20, 16⟩
def INJ_VOTER_COUNT : Fld := ⟨0x1C0200, 15, 0⟩
def INJ_VOTER_XOR_MASK : Fld := ⟨0x1C0204, 31, 0⟩
def INJ_DRAM_ENABLE : Fld := ⟨0x1C0300, 31, 31⟩
def INJ_DRAM_BITS : Fld := ⟨0x1C0300, 25, 24⟩
def INJ_DRAM_CHANNEL : Fld := ⟨0x1C0300, 20, 16⟩
def INJ_DRAM_COUNT : Fld := ⟨0x1C0300, 15, 0⟩
def INJ_LANE_ENABLE : Fld := ⟨0x1C0400, 31, 31⟩
def INJ_LANE_LANE : Fld := ⟨0x1C0400, 22, 16⟩
def INJ_LANE_EXP : Fld := ⟨0x1C0400, 5, 0⟩
def TILE_WORD (i : Nat) (j : Nat) : Fld := ⟨0x400000 + 0x10 * i + 0x4 * j, 31, 0⟩

end R

end Sys2Proof.Machine
end

