-- ==== Sys2Proof/Machine/Rom.lean ====
section
/-!
DEFINITION. The reset contents that the spec gives by a formula: the coefficient ROM of R551, the identity table of R138,
the panic thresholds of R338 and the supply windows of R514; and the reset word of every register from them (R527).
-/
namespace Sys2Proof.Machine

/-- The scale of the fixed-point numbers in which the sines of R551 are taken: 2^96 units to one. R551 computes in exact
arithmetic; at this scale no coefficient lies near enough to a rounding boundary for the difference to show. -/
def romOne : Int := 2 ^ 96

/-- π in units of 2^-96, from its decimal expansion to 36 places. -/
def romPi : Int := 3141592653589793238462643383279502884 * romOne / 10 ^ 36

/-- The alternating series of the sine at an argument whose square is `y2`: `n` more terms after `term`, the `k`-th. -/
def sinSeries : Nat → Int → Int → Int → Int
  | 0, _, _, _ => 0
  | n + 1, k, y2, term =>
    term + sinSeries n (k + 1) y2 (-(term * y2 / romOne) / ((2 * k) * (2 * k + 1)))

/-- sin(π · n / d) in units of 2^-96, for a positive `d`. -/
def sinPi (n : Int) (d : Nat) : Int :=
  let r := n.emod (2 * d)
  let sgn : Int := if r ≥ d then -1 else 1
  let r := if r ≥ d then r - d else r
  let r := if 2 * r > d then d - r else r
  let y := r * romPi / d
  sgn * sinSeries 18 1 (y * y / romOne) y

/-- sinc(n / d) = sin(π n/d) / (π n/d), and 1 at 0, in units of 2^-96. -/
def sincRat (n : Int) (d : Nat) : Int :=
  if n = 0 then romOne else sinPi n d * romOne / (n * romPi / d)

/-- The window function of R551 at distance `m`/64, for set `s` and support `w`. -/
def lanczos (s w : Nat) (m : Int) : Int :=
  if m.natAbs < 64 * w then
    -- c is 1, 3/2, 3 or 6, so d / c is `m`·2 over 64·(2, 3, 6, 12)
    let c2 := if s = 0 then 2 else if s = 1 then 3 else if s = 2 then 6 else 12
    sincRat (2 * m) (64 * c2) * sincRat m (64 * w) / romOne
  else 0

/-- A quotient rounded to the nearest whole number, halves away from zero. -/
def roundAway (n d : Int) : Int :=
  let (n, d) := if d < 0 then (-n, -d) else (n, d)
  if n ≥ 0 then (2 * n + d) / (2 * d) else -((2 * -n + d) / (2 * d))

/-- Add `e` to the largest element, the first of equal ones. -/
def addToMax (ks : List Int) (e : Int) : List Int :=
  let m := ks.foldl max (ks.headD 0)
  let i := ks.findIdx (· = m)
  ks.zipIdx.map fun (k, j) => if j = i then k + e else k

/-- The taps of one phase of the ROM (R551): set 0–3, phase 0–63, `n` taps (8 horizontal, 6 vertical), the centre tap
number `ctr` (3 or 2) and the support (4 or 3). -/
def romPhase (n ctr w s p : Nat) : List Int :=
  let hs := (List.range n).map fun (t : Nat) => lanczos s w (64 * ((t : Int) - ctr) - p)
  let sum := hs.foldl (· + ·) 0
  let ks := hs.map fun h => roundAway (1024 * h) sum
  let e := 1024 - ks.foldl (· + ·) 0
  if e = 0 then ks else addToMax ks e

/-- A tap as its 12-bit two's-complement field. -/
def tapCode (k : Int) : Nat := (k.emod 4096).toNat

/-- Word `w` of a phase: tap 2w in bits [11:0], tap 2w + 1 in bits [27:16] (R151). -/
def tapWord (ks : List Int) (w : Nat) : Nat :=
  tapCode (ks.getD (2 * w) 0) + tapCode (ks.getD (2 * w + 1) 0) * 2 ^ 16

/-- Entry `i` of the identity table of R138: round(i × 4095 / 1023). -/
def lutIdentity (i : Nat) : Nat := (2 * i * 4095 + 1023) / (2 * 1023)

/-- Reset PANIC_FILL of real-time port `n` (R338): writers 0xC, readers 0x4. -/
def panicFillReset (n : Nat) : Nat := if n < 16 then 0xC else if n < 40 then 0x4 else 0xC

/-- The reset window of monitor `m` in mV, low and high (R514). -/
def monWindow (m : Nat) : Nat × Nat :=
  if m = 0 ∨ m = 1 then (700, 800)
  else if m ≤ 5 then (855, 945)
  else if m ≤ 19 then (700, 800)
  else if m ≤ 22 then (750, 850)
  else if m ≤ 26 then (855, 945)
  else if m = 27 then (1140, 1260)
  else if m ≤ 29 then (1710, 1890)
  else if m = 30 then (3135, 3465)
  else (1710, 1890)

/-- The reset word of a register whose reset the spec gives by constants: every field at its reset value, reserved bits
zero (R11). A reset entry 'image', 'fuses' or 'balls' is 0 here (R527). -/
def RegDesc.constReset (d : RegDesc) : Nat :=
  d.fields.foldl (fun w f => w + f.reset * 2 ^ f.lo) 0

/-- The reset word of the register with indices `ix` (R527). -/
def RegDesc.resetAt (d : RegDesc) (ix : List Nat) : Nat :=
  match d.rule with
  | .const => d.constReset
  | .coefRom =>
    if d.base = 0x082000 then tapWord (romPhase 8 3 4 (ix.getD 0 0) (ix.getD 1 0)) (ix.getD 2 0)
    else tapWord (romPhase 6 2 3 (ix.getD 0 0) (ix.getD 1 0)) (ix.getD 2 0)
  | .lutIdentity => lutIdentity (2 * ix.getD 1 0) + lutIdentity (2 * ix.getD 1 0 + 1) * 2 ^ 16
  | .panicFill => panicFillReset (ix.getD 0 0)
  | .monWindow => (monWindow (ix.getD 0 0)).1 + (monWindow (ix.getD 0 0)).2 * 2 ^ 16

/-- The whole position of an offset in an array whose strides are `dims`: the indices, outermost first, or none when the
offset lies between two registers. -/
def dimIndex : List (Nat × Nat) → Nat → Option (List Nat)
  | [], off => if off = 0 then some [] else none
  | (st, n) :: ds, off =>
    if off / st < n then (dimIndex ds (off % st)).map (off / st :: ·) else none

/-- The register at aperture offset `a` and its indices, if the map has one there (R522). -/
def findReg (a : Nat) : Option (RegDesc × List Nat) :=
  (regsOf a).findSome? fun d =>
    if a < d.base then none else (dimIndex d.dims (a - d.base)).map fun ix => (d, ix)

/-- The reset word at aperture offset `a`; a reserved offset reads zero (R523). -/
def resetWord (a : Nat) : Word :=
  match findReg a with
  | some (d, ix) => BitVec.ofNat 32 (d.resetAt ix)
  | none => 0

/-- The bits of the register at `a` whose fields have access type `t`. -/
def accMask (t : Acc) (a : Nat) : Nat :=
  match findReg a with
  | some (d, _) =>
    d.fields.foldl (fun m f => if f.acc = t then m + (2 ^ (f.hi + 1) - 2 ^ f.lo) else m) 0
  | none => 0

end Sys2Proof.Machine
end

