-- ==== Sys2Proof/Machine/Ops.lean ====
section
/-!
DEFINITION. The named operations over the state that every meaning is written with: bit fields, the sparse table, reads
and writes of register fields (R522 to R528), the present time (R441), hearth memory, the event queue (R530 to R535), and
the guard that answers a command.
-/
namespace Sys2Proof

/-- Bits [hi:lo] of a number. -/
def bits (x hi lo : Nat) : Nat := x / 2 ^ lo % 2 ^ (hi + 1 - lo)

/-- `x` with bits [hi:lo] replaced by the low bits of `v`. -/
def putBits (x hi lo v : Nat) : Nat :=
  x / 2 ^ (hi + 1) * 2 ^ (hi + 1) + v % 2 ^ (hi + 1 - lo) * 2 ^ lo + x % 2 ^ lo

/-- Bit `i` of a number, as a truth value. -/
def bitOf (x i : Nat) : Bool := x / 2 ^ i % 2 == 1

/-- The number 1 for true, 0 for false. -/
def b2n (b : Bool) : Nat := if b then 1 else 0

/-- The two's-complement value of the low `n` bits of `x`. -/
def signed (n x : Nat) : Int :=
  if x % 2 ^ n < 2 ^ (n - 1) then (x % 2 ^ n : Nat) else (x % 2 ^ n : Nat) - (2 ^ n : Nat)

/-- A count that saturates at the largest value of `n` bits. -/
def satTo (n x : Nat) : Nat := min x (2 ^ n - 1)

/-- A number as `n` bytes, least significant first. -/
def leBytes : Nat → Nat → List Byte
  | 0, _ => []
  | n + 1, x => BitVec.ofNat 8 x :: leBytes n (x / 256)

/-- `n` bytes of a number, most significant first. -/
def beBytes (n x : Nat) : List Byte := (leBytes n x).reverse

/-- The number that bytes spell, least significant first. -/
def ofLeBytes (bs : List Byte) : Nat := bs.foldr (fun b x => b.toNat + 256 * x) 0

/-- `n` consecutive numbers from `a`. -/
def span (a n : Nat) : List Nat := (List.range n).map (a + ·)

/-- The entry of a sparse table at key `k`; the default `d k` where none is listed. -/
def Tab.get {α : Type} (d : Nat → α) : Tab α → Nat → α
  | [], k => d k
  | (j, v) :: t, k => if j = k then v else Tab.get d t k

/-- Leave out every entry of key `k`. -/
def Tab.drop {α : Type} : Tab α → Nat → Tab α
  | [], _ => []
  | (j, w) :: t, k => if j = k then Tab.drop t k else (j, w) :: Tab.drop t k

/-- Put an entry of key `k` into a table, keeping the keys rising. -/
def Tab.put {α : Type} : Tab α → Nat → α → Tab α
  | [], k, v => [(k, v)]
  | (j, w) :: t, k, v =>
    if k < j then (k, v) :: (j, w) :: t
    else if j = k then (k, v) :: t
    else (j, w) :: Tab.put t k v

/-- Set the entry at key `k`, keeping the keys rising and listing no entry equal to the default. -/
def Tab.set {α : Type} [DecidableEq α] (d : Nat → α) (t : Tab α) (k : Nat) (v : α) : Tab α :=
  if v = d k then Tab.drop t k else Tab.put t k v

/-- The keys of a sparse table rise strictly from above `lo`, and no entry equals the default. -/
def Tab.wfAbove {α : Type} [DecidableEq α] (d : Nat → α) : Option Nat → Tab α → Bool
  | _, [] => true
  | lo, (j, v) :: t =>
    (match lo with | none => true | some l => decide (l < j)) && decide (v ≠ d j) && Tab.wfAbove d (some j) t

/-- The canonical form of a sparse table. -/
def Tab.wf {α : Type} [DecidableEq α] (d : Nat → α) (t : Tab α) : Bool := Tab.wfAbove d none t

/-- The largest x, built from its bits below bit `n`, whose `k`-th power does not exceed `t`. -/
def rootFrom (k t : Nat) : Nat → Nat → Nat
  | 0, x => x
  | n + 1, x => rootFrom k t n (if (x + 2 ^ n) ^ k ≤ t then x + 2 ^ n else x)

/-- The tick rates of R12 as reduced fractions N / D. -/
def rateFrac (rate : Nat) : Nat × Nat :=
  [(24, 1), (25, 1), (30000, 1001), (30, 1), (50, 1), (60000, 1001), (60, 1), (100, 1), (120000, 1001), (120, 1),
    (144, 1), (240, 1)].getD rate (60, 1)

/-- Grid point `k` of the tick rate in ns from timebase time zero, to the nearest 2 ns cycle (R12, R452). -/
def gridNs (rate k : Nat) : Nat :=
  (k * (rateFrac rate).2 * 1000000000 + (rateFrac rate).1) / (2 * (rateFrac rate).1) * 2

/-- What the exact time of grid point `k` lies past `gridNs`, in units of 1/(2000 N) ns. -/
def gridRest (rate k : Nat) : Int :=
  (k * (2000 * (rateFrac rate).2 * 1000000000) : Nat) - (gridNs rate k * (2000 * (rateFrac rate).1) : Nat)

/-- The tick period of R12 in ns, rounded to the nearest. -/
def nominalPeriodNs (rate : Nat) : Nat :=
  (2 * (rateFrac rate).2 * 1000000000 + (rateFrac rate).1) / (2 * (rateFrac rate).1)

namespace Machine

/-- What a meaning answers. -/
abbrev Out := Host.Outcome State Fault Refusal

/-! ### Registers -/

/-- The live word at aperture offset `a`. -/
def State.word (s : State) (a : Nat) : Word := s.regs.get resetWord a

/-- The live value of a field. -/
def State.rd (s : State) (f : Fld) : Nat := bits (s.word f.addr).toNat f.hi f.lo

/-- A one-bit field is 1. -/
def State.rdb (s : State) (f : Fld) : Bool := s.rd f == 1

/-- The device sets the live value of a field; the value is cut to the field's width. -/
def State.wr (s : State) (f : Fld) (v : Nat) : State :=
  { s with regs := s.regs.set resetWord f.addr (BitVec.ofNat 32 (putBits (s.word f.addr).toNat f.hi f.lo v)) }

/-- The shadow word at aperture offset `a` (R217). -/
def State.shadowWord (s : State) (a : Nat) : Word := s.shadow.get resetWord a

/-- The shadow value of a field. -/
def State.rdShadow (s : State) (f : Fld) : Nat := bits (s.shadowWord f.addr).toNat f.hi f.lo

/-- Set the shadow value of a field. -/
def State.wrShadow (s : State) (f : Fld) (v : Nat) : State :=
  { s with shadow := s.shadow.set resetWord f.addr (BitVec.ofNat 32 (putBits (s.shadowWord f.addr).toNat f.hi f.lo v)) }

/-- The device sets both the live value and the shadow of a field (R525). -/
def State.wrBoth (s : State) (f : Fld) (v : Nat) : State := (s.wr f v).wrShadow f v

/-! ### Time -/

/-- The timebase time in whole ns. -/
def State.nowNs (s : State) : Nat := s.time.sec * 1000000000 + s.time.ns

/-- The wall-µs value of a timebase time in ns (R441). -/
def wusOf (ns : Nat) : Nat := ns / 1000 % 2 ^ 32

/-- The present wall-µs value (R441). -/
def State.wus (s : State) : Nat := wusOf s.nowNs

/-- The time in ns with every step since PORST_N taken off: what durations are measured in. -/
def State.monoNs (s : State) : Nat := ((s.nowNs : Int) - s.time.offset).toNat

/-- The timebase moved by `d` ns, modulo 2^48 seconds (R439, R442). -/
def State.addNs (s : State) (d : Int) : State :=
  let t := (((s.nowNs : Int) + d).emod ((2 : Int) ^ 48 * 1000000000)).toNat
  { s with time := { s.time with sec := t / 1000000000, ns := t % 1000000000 } }

/-! ### Memory -/

/-- What a byte of memory that is not listed reads as: the zero that R328 writes to every data line (log 5). -/
def memDefault (_ : Nat) : Byte := 0

/-- `n` bytes from address `a`. -/
def State.memRead (s : State) (a n : Nat) : List Byte := (span a n).map fun i => s.mem.bytes.get memDefault i

/-- The cells of bytes stored from address `a` upward: a byte equal to what an unlisted address reads as is not listed. -/
def newCells : Nat → List Byte → Tab Byte
  | _, [] => []
  | a, b :: bs => if b = memDefault a then newCells (a + 1) bs else (a, b) :: newCells (a + 1) bs

/-- Cells with bytes `bs` stored from address `a` upward. -/
def storeCells (t : Tab Byte) (a : Nat) (bs : List Byte) : Tab Byte :=
  t.filter (fun (p : Nat × Byte) => decide (p.1 < a)) ++ newCells a bs
    ++ t.filter (fun (p : Nat × Byte) => decide (a + bs.length ≤ p.1))

/-- A line is poisoned: a half's code reports an uncorrectable error, or a merged write marked it (R329, R330). -/
def isPoisoned (e : LineErr) : Bool := e.poison || decide (2 ≤ e.half0) || decide (2 ≤ e.half1)

/-- Store bytes from address `a` upward; a line written whole holds no error any more (R330). -/
def State.memWrite (s : State) (a : Nat) (bs : List Byte) : State :=
  { s with mem := { s.mem with
    bytes := storeCells s.mem.bytes a bs
    lines := s.mem.lines.filter fun (p : Nat × LineErr) => !(decide (a ≤ 64 * p.1) && decide (64 * p.1 + 64 ≤ a + bs.length)) } }

/-! ### Hidden state by object -/

def State.tmo (s : State) (k : Nat) : TmoState := s.time.tmo.get (fun _ => {}) k
def State.setTmo (s : State) (k : Nat) (o : TmoState) : State :=
  { s with time := { s.time with tmo := s.time.tmo.set (fun _ => {}) k o } }
def State.tmc (s : State) (k : Nat) : TmcState := s.time.tmc.get (fun _ => {}) k
def State.setTmc (s : State) (k : Nat) (o : TmcState) : State :=
  { s with time := { s.time with tmc := s.time.tmc.set (fun _ => {}) k o } }
def State.route (s : State) (r : Nat) : RouteState := s.audio.routes.get (fun _ => {}) r
def State.setAesNs (s : State) (k t : Nat) : State := { s with audio := { s.audio with aesNs := s.audio.aesNs.set (fun _ => 0) k t } }
def State.setRoute (s : State) (r : Nat) (o : RouteState) : State :=
  { s with audio := { s.audio with routes := s.audio.routes.set (fun _ => {}) r o } }
def State.nonAudio (s : State) (k : Nat) : NonAudio := s.audio.nonAudio.get (fun _ => {}) k
def State.setNonAudio (s : State) (k : Nat) (o : NonAudio) : State :=
  { s with audio := { s.audio with nonAudio := s.audio.nonAudio.set (fun _ => {}) k o } }
def State.tdmPort (s : State) (t : Nat) : TdmState := s.audio.tdm.get (fun _ => {}) t
def State.setTdmPort (s : State) (t : Nat) (o : TdmState) : State :=
  { s with audio := { s.audio with tdm := s.audio.tdm.set (fun _ => {}) t o } }
def State.panel (s : State) (p : Nat) : PanelState := s.touch.panels.get (fun _ => {}) p
def State.setPanel (s : State) (p : Nat) (o : PanelState) : State :=
  { s with touch := { s.touch with panels := s.touch.panels.set (fun _ => {}) p o } }
def State.overlay (s : State) (o : Nat) : OverlayState := s.touch.overlays.get (fun _ => {}) o
def State.setOverlay (s : State) (o : Nat) (v : OverlayState) : State :=
  { s with touch := { s.touch with overlays := s.touch.overlays.set (fun _ => {}) o v } }
def State.profile (s : State) (q : Nat) : Profile := s.touch.profiles.get (fun _ => {}) q
def State.rawNode (s : State) (i : Nat) : Nat := s.touch.raw.get (fun _ => 0) i
def State.setRawNode (s : State) (i v : Nat) : State :=
  { s with touch := { s.touch with raw := s.touch.raw.set (fun _ => 0) i v } }
def State.baseline (s : State) (i : Nat) : Nat := s.touch.base.get (fun _ => 0) i
def State.setBaseline (s : State) (i v : Nat) : State :=
  { s with touch := { s.touch with base := s.touch.base.set (fun _ => 0) i v } }
def State.antiSince (s : State) (i : Nat) : Nat := s.touch.anti.get (fun _ => 0) i
def State.setAntiSince (s : State) (i v : Nat) : State :=
  { s with touch := { s.touch with anti := s.touch.anti.set (fun _ => 0) i v } }
def State.line (s : State) (n : Nat) : LineErr := s.mem.lines.get (fun _ => {}) n
def State.setLine (s : State) (n : Nat) (e : LineErr) : State :=
  { s with mem := { s.mem with lines := s.mem.lines.set (fun _ => {}) n e } }
def State.chan (s : State) (c : Nat) : ChanState := s.mem.chans.get (fun _ => {}) c
def State.setChan (s : State) (c : Nat) (o : ChanState) : State :=
  { s with mem := { s.mem with chans := s.mem.chans.set (fun _ => {}) c o } }

def State.lane (s : State) (n : Nat) : LaneState := s.lanes.get (fun _ => {}) n
def State.setLane (s : State) (n : Nat) (o : LaneState) : State := { s with lanes := s.lanes.set (fun _ => {}) n o }

/-- The rates of R371 in kb/s (or kT/s) by code; 0 for the reserved one. -/
def rateKbps (code : Nat) : Nat :=
  [1250000, 2500000, 2700000, 5000000, 5400000, 7031250, 8000000, 8100000, 10000000, 10312500, 13500000, 14062500,
    16000000, 25781250, 28125000].getD code 0

/-- Something leaves the device. -/
def State.send (s : State) (m : Sent) : State := { s with sent := s.sent ++ [m] }

/-! ### The event queue -/

/-- Power domain `d` is powered (R503). -/
def State.powered (s : State) (d : Nat) : Bool := bitOf (s.rd R.PWR_STATUS_POWERED) d

/-- Records in the queue that firmware has not read: pointers equal in INDEX are an empty queue when LAP agrees and a full
one when it differs (R531). -/
def State.unread (s : State) : Nat :=
  (s.rd R.GLB_EVQ_WR_INDEX + 1024 * s.rd R.GLB_EVQ_WR_LAP + 2048
    - (s.rd R.GLB_EVQ_RD_INDEX + 1024 * s.rd R.GLB_EVQ_RD_LAP)) % 2048

/-- ENABLE of an event class in GLB_EVQ_VEC (R529); the reserved classes have none. -/
def State.classEnabled (s : State) (cls : Nat) : Bool :=
  decide (cls ≠ 0x0B) && decide (cls < 0x1A)
    && bitOf (s.word (0x200 + cls / 4 * 4)).toNat (8 * (cls % 4) + 7)

/-- VECTOR of an event class. -/
def State.classVector (s : State) (cls : Nat) : Nat :=
  bits (s.word (0x200 + cls / 4 * 4)).toNat (8 * (cls % 4) + 5) (8 * (cls % 4))

/-- A vector's MSI-X message is sent, or its pending bit in the endpoint's structures is set while it is masked (R411). -/
def State.sendVector (s : State) (v : Nat) : State :=
  if s.evq.msixEnabled then
    if v ∈ s.evq.msixMasked then
      { s with evq := { s.evq with msixPending := if v ∈ s.evq.msixPending then s.evq.msixPending else v :: s.evq.msixPending } }
    else s.send (.msix v)
  else s

/-- The pending bit of vector `v`. -/
def vectorBit (v : Nat) : Fld := { R.GLB_INT_PEND_PENDING (v / 32) with hi := v % 32, lo := v % 32 }

/-- Vector `v` becomes pending; its message is sent on the bit's change from 0 to 1 (R535). -/
def State.makePending (s : State) (v : Nat) : State :=
  if s.rdb (vectorBit v) then s else (s.wr (vectorBit v) 1).sendVector v

/-- Write one record at GLB_EVQ_WR, advance the pointer, and make the vectors pending that R535 names. -/
def State.pushRecord (s : State) (stamp code object : Nat) : State :=
  let i := s.rd R.GLB_EVQ_WR_INDEX
  let s := s.wr (R.GLB_EVENT_WORD i 0) stamp
  let s := s.wr (R.GLB_EVENT_WORD i 1) (code * 2 ^ 16 + code / 256 * 256)
  let s := s.wr (R.GLB_EVENT_WORD i 2) object
  let s := s.wr (R.GLB_EVENT_WORD i 3) (s.evq.seq % 65536 * 2 ^ 16 + s.rd R.TICK_COUNT_COUNT % 65536)
  let s := s.wr R.GLB_EVQ_WR_INDEX (i + 1)
  let s := if i = 1023 then s.wr R.GLB_EVQ_WR_LAP (1 - s.rd R.GLB_EVQ_WR_LAP) else s
  let s := { s with evq := { s.evq with seq := s.evq.seq + 1 } }
  let s := if s.classEnabled (code / 256) then s.makePending (s.classVector (code / 256)) else s
  if s.rd R.GLB_EVQ_CFG_HIWAT ≠ 0 ∧ s.unread = s.rd R.GLB_EVQ_CFG_HIWAT
  then s.makePending (s.rd R.GLB_EVQ_CFG_HIWAT_VEC) else s

/-- The EVQ_LOST record is written at the first moment a slot is free after a drop (R532). -/
def State.flushLost (s : State) : State :=
  if s.evq.lostSince = 0 ∨ 1024 ≤ s.unread then s
  else { s with evq := { s.evq with lostSince := 0 } }.pushRecord s.wus 0x0001 (satTo 32 s.evq.lostSince)

/-- An event enters the queue, or is dropped while the queue is full (R530 to R532). -/
def State.enterEvent (s : State) (e : Nat × Nat × Nat) : State :=
  let s := s.flushLost
  if 1024 ≤ s.unread then
    let s := (s.wr R.GLB_EVQ_STAT_OVERFLOW 1).wr R.GLB_EVQ_STAT_LOST (satTo 16 (s.rd R.GLB_EVQ_STAT_LOST + 1))
    { s with evq := { s.evq with lostSince := s.evq.lostSince + 1 } }
  else s.pushRecord e.1 e.2.1 e.2.2

/-- Insert an event among others in ascending order of code and then of object. -/
def insertEvent (e : Nat × Nat × Nat) : List (Nat × Nat × Nat) → List (Nat × Nat × Nat)
  | [] => [e]
  | x :: xs => if e.2.1 < x.2.1 ∨ (e.2.1 = x.2.1 ∧ e.2.2 < x.2.2) then e :: x :: xs else x :: insertEvent e xs

/-- The events of a list in ascending order of code and object, those that arose first before their equals. -/
def sortEvents (es : List (Nat × Nat × Nat)) : List (Nat × Nat × Nat) := es.foldl (fun l e => insertEvent e l) []

/-- Word `j` of the record of an event (R530). -/
def eventWord (e : Nat × Nat × Nat) (j : Nat) : Nat := if j = 0 then e.1 else if j = 1 then e.2.1 * 2 ^ 16 + e.2.1 / 256 * 256 else e.2.2

/-- The last records of the queue are those of the events `es`, in their order; SEQ and TICK stay with the places. -/
def State.reorderTail (s : State) (es : List (Nat × Nat × Nat)) : State :=
  es.zipIdx.foldl (fun t p =>
    let i := (s.rd R.GLB_EVQ_WR_INDEX + 1024 * (1 + es.length) - es.length + p.2) % 1024
    (List.range 3).foldl (fun t j => t.wr (R.GLB_EVENT_WORD i j) (eventWord p.1 j)) t) s

/-- The events of the present command enter the queue, those of one cycle in ascending order of code and object (R533): when earlier
commands of the same cycle have entered events, which firmware has not read, the records of all of them are in that order. Of an
edge's blocks this is the order of R533 too. -/
def State.flushEvents (s : State) : State :=
  if s.evq.cycle.isEmpty then s
  else
    let new := sortEvents s.evq.cycle
    let at_ := (s.monoNs, s.rd R.TICK_COUNT_COUNT)
    let before := if s.evq.enteredAt = at_ then s.evq.entered else []
    let t := new.foldl State.enterEvent { s with evq := { s.evq with cycle := [] } }
    let whole := decide (t.evq.seq = s.evq.seq + new.length) && decide (before.length + new.length ≤ 1024)
    let all := if whole then sortEvents (before ++ new) else []
    let t := if before.isEmpty then t else t.reorderTail all
    { t with evq := { t.evq with entered := all, enteredAt := at_ } }

/-- An event with a given stamp arises; without power in PD1 there is no queue (R521). -/
def State.raiseAt (s : State) (stamp code object : Nat) : State :=
  if s.powered 1 = false then s
  else { s with evq := { s.evq with cycle := s.evq.cycle ++ [(stamp, code, object)] } }

/-- An event that arises now. -/
def State.raise (s : State) (code object : Nat) : State := s.raiseAt s.wus code object

/-- An event that arises at the present tick edge's actions: its stamp is TICK_EDGE_WUS (R530). -/
def State.raiseEdge (s : State) (code object : Nat) : State := s.raiseAt (s.rd R.TICK_EDGE_WUS_WUS) code object

/-- An event that is raised at most once per tick for one object. -/
def State.raiseOnce (s : State) (code object : Nat) : State :=
  if (code, object) ∈ s.evq.raisedTick then s
  else { s with evq := { s.evq with raisedTick := (code, object) :: s.evq.raisedTick } }.raise code object

/-! ### Answers -/

/-- A command answers the state of its effect, its events in the queue; one that names hardware the block does not have is a
fault. -/
def checked (i : Instr) (t : State) : Out := if i.wf then .next t.flushEvents else .fault .noSuchObject

/-- Apply an effect when a condition holds. -/
def State.when (s : State) (c : Bool) (f : State → State) : State := if c then f s else s

end Machine
end Sys2Proof
end

