-- ==== Sys2Proof/Machine/Regs.lean ====
section
/-!
DEFINITION. What an access does to a register without behaviour of its own (R217, R226, R522 to R528): the access types, the
run conditions of the blocks, the shadows, and the values that a read computes.
-/
namespace Sys2Proof.Machine

/-! ### Hidden state of composition by object -/

def State.unit (s : State) (u : Nat) : UnitState := s.comp.units.get (fun _ => {}) u
def State.setUnit (s : State) (u : Nat) (o : UnitState) : State :=
  { s with comp := { s.comp with units := s.comp.units.set (fun _ => {}) u o } }
def State.flue (s : State) (f : Nat) : FlueState := s.comp.flues.get (fun _ => {}) f
def State.setFlue (s : State) (f : Nat) (o : FlueState) : State :=
  { s with comp := { s.comp with flues := s.comp.flues.set (fun _ => {}) f o } }
def State.source (s : State) (k : Nat) : SourceState := s.comp.sources.get (fun _ => {}) k
def State.setSource (s : State) (k : Nat) (o : SourceState) : State :=
  { s with comp := { s.comp with sources := s.comp.sources.set (fun _ => {}) k o } }
def State.layer (s : State) (l : Nat) : LayerState := s.comp.layers.get (fun _ => {}) l
def State.setLayer (s : State) (l : Nat) (o : LayerState) : State :=
  { s with comp := { s.comp with layers := s.comp.layers.set (fun _ => {}) l o } }
def State.rect (s : State) (n : Nat) : RectState := s.comp.rects.get (fun _ => {}) n
def State.setFrect (s : State) (n : Nat) (o : RectState) : State :=
  { s with comp := { s.comp with rects := s.comp.rects.set (fun _ => {}) n o } }
def State.frec (s : State) (i : Nat) : RecState := s.faults.recs.get (fun _ => {}) i
def State.setFrec (s : State) (i : Nat) (o : RecState) : State :=
  { s with faults := { s.faults with recs := s.faults.recs.set (fun _ => {}) i o } }

def State.reel (s : State) (r : Nat) : ReelState := s.codec.reels.get (fun _ => {}) r
def State.setReel (s : State) (r : Nat) (o : ReelState) : State :=
  { s with codec := { s.codec with reels := s.codec.reels.set (fun _ => {}) r o } }
def State.enc (s : State) (e : Nat) : EncState := s.codec.encs.get (fun _ => {}) e
def State.setEnc (s : State) (e : Nat) (o : EncState) : State :=
  { s with codec := { s.codec with encs := s.codec.encs.set (fun _ => {}) e o } }
def State.engine (s : State) (v : Nat) : EngineState := s.codec.engines.get (fun _ => {}) v
def State.setEngine (s : State) (v : Nat) (o : EngineState) : State :=
  { s with codec := { s.codec with engines := s.codec.engines.set (fun _ => {}) v o } }

/-- A frame of the source with key `k` has completed at time `t` (R91). -/
def completeSourceAt (t k : Nat) (fr : Frame) (s : State) : State :=
  let o := s.source k
  s.setSource k { o with
    newest := some fr
    prior := if o.newest.isSome && o.doneNs == t then o.prior else o.newest
    doneNs := t }

/-- A frame of the source with key `k` completes now (R91). -/
def completeSource (k : Nat) (fr : Frame) (s : State) : State := completeSourceAt s.monoNs k fr s

/-- The newest frame of a source that was complete earlier than the present edge (R91): a frame that completes in the edge's
own cycle counts at the next one. -/
def newestAt (s : State) (k : Nat) : Option Frame :=
  let o := s.source k
  if (s.tick.lastEdgeNs : Int) - s.time.offset ≤ (o.doneNs : Int) then o.prior else o.newest

/-- The key of a source of layers: kind and index (R90). -/
def sourceKey (kind ix : Nat) : Nat := kind * 4096 + ix

/-- A word of the registers that a sheet was built from. -/
def Sheet.word (sh : Sheet) (a : Nat) : Nat := (sh.regs.get resetWord a).toNat

/-- A field of the registers that a sheet was built from. -/
def Sheet.rd (sh : Sheet) (f : Fld) : Nat := bits (sh.word f.addr) f.hi f.lo

/-- The end of the active video of a frame, in ns of step-free time, counted in the 2 ns cycle it falls in (R118, R122). -/
def FrameRun.endNs (r : FrameRun) : Nat := (r.startNs + r.periodNs) / 2 * 2

/-- The sheets in use or being built: a published sheet stays in use until the last band of every frame that began in its tick
has been scanned out (R93, R120). -/
def sheetsHeld (s : State) : List Sheet :=
  s.tick.building.toList ++ s.tick.current.toList
    ++ s.comp.flues.flatMap fun p => (p.2.frames.filter fun r => decide (s.monoNs < r.endNs)).map FrameRun.sheet

/-- The source of layer `l` as a sheet's registers name it. -/
def Sheet.layerKey (sh : Sheet) (l : Nat) : Nat :=
  sourceKey (sh.rd (R.LYR_SRC_KIND l)) (sh.rd (R.LYR_SRC_INDEX l))

/-- The buffer of the ring of five of the source with key `key` that a new frame goes into: the one written longest ago that no sheet
in use or being built binds, that does not hold the newest complete frame, and that no other frame is being written to (R93, R429). -/
def ringBuffer (s : State) (key : Nat) (busy : List Nat) : Nat :=
  let o := s.source key
  let bound (n : Nat) : Bool := (sheetsHeld s).any fun sh => sh.layers.any fun l =>
    sh.layerKey l.num == key && l.frame.any (·.serial == n)
  let free := o.ring.zipIdx.filter fun p =>
    !busy.contains p.2 && (p.1 == 0 || (!bound p.1 && !(o.newest.any (·.serial == p.1))))
  ((free.foldl (fun (b : Option (Nat × Nat)) p =>
    match b with | none => some p | some q => if p.1 < q.1 then some p else b) none).map Prod.snd).getD 0

/-- A sheet binds a frame of the source with key `k`. -/
def bindsSource (sh : Sheet) (k : Nat) : Bool :=
  sh.layers.any fun l => l.frame.isSome && sh.layerKey l.num == k

/-! ### Run conditions (R226) -/

/-- A decode reel runs from the commit of its ENABLE until no sheet binds a picture of it; an encode reel until its frame on
an engine ends (R299, ch. 13). -/
def reelRuns (s : State) (r : Nat) : Bool :=
  s.rdb (R.REEL_CFG_ENABLE r)
    || (s.rd (R.REEL_CFG_MODE r) == 0 && (sheetsHeld s).any fun sh => bindsSource sh (sourceKey 2 r))
    || (s.rd (R.REEL_CFG_MODE r) == 1 && s.codec.engines.any fun e => e.2.reel == r && e.2.busy)

/-- The sheets from which frames of flue `f` are sent or are still to be sent: the published one counts only while no built
sheet stands ready to follow it. -/
def sheetsAhead (s : State) (f : Nat) : List Sheet :=
  s.tick.building.toList ++ (if s.tick.complete then [] else s.tick.current.toList)
    ++ ((s.flue f).frames.filter fun r => decide (s.monoNs < r.endNs)).map FrameRun.sheet

/-- Flue `f` runs from the commit of its ENABLE until the end of active video of the last frame composed with ENABLE = 1
(R226). -/
def flueRuns (s : State) (f : Nat) : Bool :=
  s.rdb (R.CMP_FLUE_CTRL_ENABLE f) || (sheetsAhead s f).any fun sh => sh.rd (R.CMP_FLUE_CTRL_ENABLE f) == 1

/-- An audio port or stream is named by an enabled route (R473). -/
def audNamed (s : State) (kind ix : Nat) : Bool :=
  (List.range 32).any fun r => s.rdb (R.AUD_RT_CTRL_ENABLE r)
    && ((s.rd (R.AUD_RT_EP_SRC_KIND r) == kind && s.rd (R.AUD_RT_EP_SRC_INDEX r) == ix)
      || (s.rd (R.AUD_RT_EP_DST_KIND r) == kind && s.rd (R.AUD_RT_EP_DST_INDEX r) == ix))

/-- Some slot of TDM port `t` is named by an enabled route. -/
def tdmNamed (s : State) (t : Nat) : Bool := (span (8 * t) 8).any (audNamed s 5)

/-- The block runs, for the RWL fields of the register at aperture offset `a` (R226 and the chapters that own the blocks). -/
def blockRuns (s : State) (a : Nat) : Bool :=
  if a = 0x10000 then s.rdb R.TICK_STATUS_RUN
  else if 0x81000 ≤ a ∧ a < 0x82000 then flueRuns s ((a - 0x81000) / 0x80)
  else if 0xC8000 ≤ a ∧ a < 0xD0000 then s.rd R.WDN_HOOK_EN_CODES != 0
  else if 0xE0040 ≤ a ∧ a < 0xE0050 then (List.range 8).any fun p => s.rdb (R.TMB_PTP_PORT_ENABLE p)
  else if 0xE0100 ≤ a ∧ a < 0xE0300 then s.rdb (R.TMO_CTRL_ENABLE ((a - 0xE0100) / 0x20))
  else if 0xF0100 ≤ a ∧ a < 0xF0300 then s.rdb (R.CHK_CU_CFG_ENABLE ((a - 0xF0100) / 0x20))
  else if 0x100000 ≤ a ∧ a < 0x120000 then reelRuns s ((a - 0x100000) / 0x400)
  else if 0x120000 ≤ a ∧ a < 0x130000 then reelRuns s ((a - 0x120000) / 0x200)
  else if 0x161000 ≤ a ∧ a < 0x163000 then
    let p := s.rd (R.LANE_CFG_PORT ((a - 0x161000) / 0x40))
    decide (p < 53) && s.rdb (R.PORT_CFG_ENABLE p)
  else if 0x180400 ≤ a ∧ a < 0x180800 then
    let j := (a - 0x180400) / 0x10
    s.rdb (R.CRL_IMP_CFG_ENABLE j) || (sheetsHeld s).any fun sh => bindsSource sh (sourceKey 4 j)
  else if 0x190000 ≤ a ∧ a < 0x19000C then
    let g := (a - 0x190000) / 4
    if g < 2 then (span (4 * g) 4).any (audNamed s 4) else (List.range 4).any (tdmNamed s)
  else if 0x190100 ≤ a ∧ a < 0x190300 then audNamed s 4 ((a - 0x190100) / 0x40)
  else if 0x190400 ≤ a ∧ a < 0x190480 then tdmNamed s ((a - 0x190400) / 0x20)
  else if 0x190800 ≤ a ∧ a < 0x191000 then audNamed s 3 ((a - 0x190800) / 0x20)
  else if 0x191000 ≤ a ∧ a < 0x191400 then s.rdb (R.AUD_RT_CTRL_ENABLE ((a - 0x191000) / 0x20))
  else if 0x1A0004 ≤ a ∧ a < 0x1A000C then (List.range 4).any fun p => s.rdb (R.TCH_PNL_CTRL_ENABLE p)
  else if 0x1A0100 ≤ a ∧ a < 0x1A0200 then s.rdb (R.TCH_PNL_CTRL_ENABLE ((a - 0x1A0100) / 0x40))
  else false

/-! ### Writes -/

/-- A refused write of an RWL field (R226). -/
def refuseLive (a : Nat) (s : State) : State :=
  ((s.wr R.CLAP_LIVEWR_COUNT (satTo 8 (s.rd R.CLAP_LIVEWR_COUNT + 1))).wr R.CLAP_LIVEWR_OFFSET a).raise 0x0301 a

/-- Every bit of a word: what an ordinary write touches. -/
def allBits : Nat := 0xFFFFFFFF

/-- A mask touches a field (R64). -/
def touches (t : Nat) (f : FieldDesc) : Bool := bits t f.hi f.lo != 0

/-- What a write of word `w` does to one field of the register at `a` that it touches, W1S and WO apart (R524); for an RWL field
whose block runs the write is refused, which is reported once for the register (R226). -/
def writeField (runs : Bool) (t a w : Nat) (s : State) (f : FieldDesc) : State :=
  let fl : Fld := ⟨a, f.hi, f.lo⟩
  let v := bits w f.hi f.lo
  if touches t f = false then s
  else match f.acc with
  | .rw => s.wr fl v
  | .w1c => s.wr fl (s.rd fl - (s.rd fl &&& v))
  | .rws => (s.wrShadow fl v).wr R.CLAP_STATUS_DIRTY 1
  | .rwl => if runs then s else s.wr fl v
  | .ro | .w1s | .wo => s

/-- A write of `w` to the fields of the register at `a` that mask `t` touches, by their access types alone (R64, R524, R525). -/
def applyTouched (t a w : Nat) (s : State) : State :=
  match findReg a with
  | none => s
  | some (d, _) =>
    let runs := blockRuns s a
    let refused := runs && d.fields.any fun f => f.acc == .rwl && touches t f
    let s := d.fields.foldl (writeField runs t a w) s
    if refused then refuseLive a s else s

/-- A write of `w` to the register at `a` by the access types of its fields alone (R524, R525). -/
def applyWrite (a w : Nat) (s : State) : State := applyTouched allBits a w s

/-- A record of the initial register sets at boot: it writes each field it touches, live and shadow (R64, R74). -/
def initField (a mask w : Nat) (s : State) (f : FieldDesc) : State :=
  let fl : Fld := ⟨a, f.hi, f.lo⟩
  let m := bits mask f.hi f.lo
  if m = 0 then s
  else
    let merge (old : Nat) := (old - (old &&& m)) + (bits w f.hi f.lo &&& m)
    match f.acc with
    | .rw | .rwl => s.wr fl (merge (s.rd fl))
    | .rws => s.wrBoth fl (merge (s.rdShadow fl))
    | .w1c => s.wr fl (s.rd fl - (s.rd fl &&& merge 0))
    | .ro | .w1s | .wo => s

/-- Apply a record of the initial register sets at boot (R74). -/
def initRecord (a mask w : Nat) (s : State) : State :=
  match findReg a with
  | none => s
  | some (d, _) => d.fields.foldl (initField a mask w) s

/-- The bits of the fields of the register at `a`, of the access types `ok`, that a mask touches (R64). -/
def touchedBits (ok : Acc → Bool) (a mask : Nat) : Nat :=
  match findReg a with
  | none => 0
  | some (d, _) => (d.fields.filter fun f => ok f.acc && touches mask f).foldl (fun x f =>
      x + (2 ^ (f.hi + 1 - f.lo) - 1) * 2 ^ f.lo) 0

/-- The word that an initial-register record writes to a register: each bit of a touched field takes
(old & ~mask) | (value & mask), the other fields hold what they hold (R64, R86). -/
def reloadWord (a mask w : Nat) (s : State) : Nat :=
  match findReg a with
  | none => 0
  | some (d, _) =>
    d.fields.foldl (fun acc f =>
      let m := bits mask f.hi f.lo
      let old := if f.acc = .rws then s.rdShadow ⟨a, f.hi, f.lo⟩
        else if f.acc = .rw ∨ f.acc = .rwl then s.rd ⟨a, f.hi, f.lo⟩ else 0
      let base := if f.acc = .w1c then 0 else old
      acc + ((base - (base &&& m)) + (bits w f.hi f.lo &&& m)) * 2 ^ f.lo) 0

/-! ### Reads -/

/-- The time to the next cut-off that lies ahead, in whole µs (R218, R228). -/
def toCutoffUs (s : State) : Nat :=
  if s.rdb R.TICK_STATUS_RUN = false then 0xFFFF
  else
    let e := s.tick.nextEdgeNs
    let e := if s.nowNs < e - 50000 then e else e + s.rd R.TICK_PERIOD_NS_PERIOD
    satTo 16 ((e - 50000 - s.nowNs) / 1000)

/-- GLB_STATUS gathers its bits from the blocks that own them (R529). -/
def glbStatus (s : State) : Nat :=
  s.rd R.WDN_STATUS_PKG_FAULT * 2 ^ 31 + s.rd R.IMG_STATUS_CONFIGURED * 2 ^ 30
    + s.rd R.TICK_STATUS_RUN * 2 ^ 29 + s.rd R.TICK_STATUS_HOLDOVER * 2 ^ 28
    + s.rd R.WDN_STATUS_HOLD * 2 ^ 27 + b2n (s.rd R.SNT_GLASS_SUMMARY_UNCONFIRMED != 0) * 2 ^ 26
    + s.rd R.DMP_STATUS_EMERGENCY * 2 ^ 25 + b2n (s.unread != 0) * 2 ^ 24
    + s.rd R.GLB_EVQ_STAT_OVERFLOW * 2 ^ 23 + s.rd R.DMP_STATUS_STAGE * 2 ^ 20

/-- A word of the node window: raw counts, or the integer parts of the baselines (R492). -/
def nodeWord (s : State) (a : Nat) : Nat :=
  let k := (a - 0x1A4000) / 4
  let v (i : Nat) := if s.rdb R.TCH_NODE_SEL_BASELINE then s.baseline i / 256 else s.rawNode i
  satTo 16 (v (2 * k)) + satTo 16 (v (2 * k + 1)) * 2 ^ 16

/-- The bits that the PRBS checker of lane `n` has checked while locked (R386). -/
def prbsBits (s : State) (n : Nat) : Nat :=
  let o := s.lane n
  o.prbsBits + match o.lockNs with
    | none => 0
    | some t => (s.monoNs - t) * rateKbps (s.rd (R.LANE_TEST_TEST_RATE n)) / 1000000

/-- Seconds since channel `c`'s last completed training (R346); 0 for a channel never trained. -/
def trainAge (s : State) (c : Nat) : Nat :=
  if s.rd (R.HRT_CH_STAT_STATE c) = 2 ∨ s.rd (R.HRT_CH_STAT_STATE c) = 4
  then satTo 16 ((s.monoNs - (s.chan c).trainedNs) / 1000000000) else 0

/-- The bits of the register at `a` that a read returns as they are: all but W1S and WO fields (R524). -/
def readMask (a : Nat) : Nat := 0xFFFFFFFF - (accMask .w1s a + accMask .wo a)

/-- What a read of aperture offset `a` answers, `bar0` when it comes through BAR0 (R217, R523 to R526). -/
def readReg (bar0 : Bool) (a : Nat) (s : State) : Nat :=
  if a = 0x4 then glbStatus s
  else if a = 0x28 then putBits (s.word a).toNat 26 16 s.unread
  else if a = 0x30004 then putBits (s.word a).toNat 15 0 (toCutoffUs s)
  else if a = 0xE0018 then s.wus
  else if 0x1A4000 ≤ a ∧ a < 0x1B0000 then nodeWord s a
  else if 0x161000 ≤ a ∧ a < 0x163000 ∧ a % 0x40 = 0x28 then satTo 32 (prbsBits s ((a - 0x161000) / 0x40) / 65536)
  else if 0x130100 ≤ a ∧ a < 0x130400 ∧ a % 0x20 = 0x10 then putBits (s.word a).toNat 31 16 (trainAge s ((a - 0x130100) / 0x20))
  else
    let m := accMask .rws a
    let live := (s.word a).toNat
    let v := if bar0 ∧ s.rdb R.CLAP_VIEW_LIVE = false
      then (live - (live &&& m)) + ((s.shadowWord a).toNat &&& m) else live
    v &&& readMask a

end Sys2Proof.Machine
end

