-- ==== Sys2Proof/Machine/Clapper.lean ====
section
/-!
DEFINITION. The clapper (R217 to R229): arms, the cut-off and its seal, the commit, discard; and what firmware does to the
event queue and its vectors (R531, R532, R535) and to the tick's resync (R16).
-/
namespace Sys2Proof.Machine

/-! ### Arms and seals -/

def modClap (g : ClapState → ClapState) (s : State) : State := { s with clap := g s.clap }

/-- ARMED follows the arms that wait. -/
def refreshArmed (s : State) : State := s.wr R.CLAP_STATUS_ARMED (b2n (s.clap.armNext || s.clap.armAfter))

/-- The cut-off of the next edge has passed (R218); while the tick does not run there is none (R224). -/
def pastCutoff (s : State) : Bool := s.rdb R.TICK_STATUS_RUN && decide (s.tick.nextEdgeNs ≤ s.nowNs + 50000)

/-- CLAP_ARM: an arm reaches the device; a late one is for the edge after the next (R218). -/
def clapArm (s : State) : State :=
  let s := s.wr R.CLAP_ARM_WUS_WUS s.wus
  if pastCutoff s then
    let s := if s.clap.armAfter then s
      else s.raise 0x0302 ((s.rd R.TICK_COUNT_COUNT + 2) % 2 ^ 32)
    refreshArmed ((modClap (fun o => { o with armAfter := true }) s).wr R.CLAP_STATUS_LATE 1)
  else refreshArmed (modClap (fun o => { o with armNext := true }) s)

/-- The seal: a copy of every shadow (R219). -/
def takeSeal (s : State) : State :=
  let s := modClap (fun o => { o with armNext := false, contentSince := [] }) { s with sealed := some s.shadow }
  let s := ((s.wr R.CLAP_STATUS_SEALED 1).wr R.CLAP_STATUS_DIRTY 0).wr R.CLAP_STATUS_LATE (b2n s.clap.armAfter)
  refreshArmed s

/-- CUT_OFF: at the cut-off of the next edge an arm that waits for it is sealed. -/
def cutOff (s : State) : State :=
  if pastCutoff s && s.clap.armNext && s.sealed.isNone then takeSeal s else s

/-- The offsets at which live values, shadows or a seal are listed. -/
def listedOffsets (s : State) (t : Tab Word) : List Nat := (s.regs.map Prod.fst ++ t.map Prod.fst).eraseDups

/-- The word `x` with its RWS fields taken from `y`. -/
def takeRws (a : Nat) (x y : Word) : Word := (x &&& ~~~ BitVec.ofNat 32 (accMask .rws a)) ||| (y &&& BitVec.ofNat 32 (accMask .rws a))

/-- The commit of an edge (R220): every RWS field takes its sealed value. Whether there was one, and the state. -/
def commitSeal (s : State) : Bool × State :=
  let s := s.when (s.clap.armNext && s.sealed.isNone) takeSeal
  match s.sealed with
  | none => (false, s)
  | some t =>
    let regs := (listedOffsets s t).foldl (fun (r : Tab Word) a =>
      if accMask .rws a = 0 then r else r.set resetWord a (takeRws a (r.get resetWord a) (t.get resetWord a))) s.regs
    let s := ({ s with regs := regs, sealed := none }.wr R.CLAP_STATUS_SEALED 0).wr R.CLAP_SEQ_COMMITS (s.rd R.CLAP_SEQ_COMMITS + 1)
    (true, s.wr R.CLAP_LAST_TICK (s.rd R.TICK_COUNT_COUNT))

/-- After an edge an arm that came late for it waits for the next cut-off. -/
def clapAfterEdge (s : State) : State :=
  refreshArmed (modClap (fun o => { o with armNext := o.armNext || o.armAfter, armAfter := false, contentSince := [] }) s)

/-- CLAP_DISCARD (R225). -/
def clapDiscard (s : State) : State :=
  if s.sealed.isSome then s.wr R.CLAP_STATUS_DISCARD_MISS 1
  else
    let sh := (listedOffsets s s.shadow).foldl (fun (r : Tab Word) a =>
      if accMask .rws a = 0 then r else r.set resetWord a (takeRws a (r.get resetWord a) (s.word a))) s.shadow
    let s := modClap (fun o => { o with armNext := false, armAfter := false }) { s with shadow := sh }
    refreshArmed ((s.wr R.CLAP_STATUS_LATE 0).wr R.CLAP_STATUS_DIRTY 0)

/-- RESYNC: a resync waits for the next tick edge (R16). -/
def resync (s : State) : State := { s with tick := { s.tick with resyncPending := true } }

/-! ### Event queue -/

/-- GLB_EVQ_RD_WRITE: firmware advances the read pointer; a place beyond GLB_EVQ_WR is ignored (R531). An EVQ_LOST that was
waiting for a free slot is written (R532). -/
def glbEvqRdWrite (w : Nat) (s : State) : State :=
  let new := w % 2048
  let old := s.rd R.GLB_EVQ_RD_INDEX + 1024 * s.rd R.GLB_EVQ_RD_LAP
  if s.unread < (new + 2048 - old) % 2048 then s
  else
    let s := (s.wr R.GLB_EVQ_RD_INDEX (new % 1024)).wr R.GLB_EVQ_RD_LAP (new / 1024)
    { s with evq := { s.evq with entered := [] } }.flushLost

/-- An unread record of a class mapped to vector `v`, with its ENABLE, remains in the queue, or the queue is at HIWAT. -/
def vectorWanted (s : State) (v : Nat) : Bool :=
  ((List.range s.unread).any fun k =>
    let cls := s.rd (R.GLB_EVENT_WORD ((s.rd R.GLB_EVQ_RD_INDEX + k) % 1024) 1) / 2 ^ 24
    s.classEnabled cls && s.classVector cls == v)
  || (v == s.rd R.GLB_EVQ_CFG_HIWAT_VEC && s.rd R.GLB_EVQ_CFG_HIWAT != 0 && decide (s.rd R.GLB_EVQ_CFG_HIWAT ≤ s.unread))

/-- INT_PEND_CLEAR: a clearing write of `w` to GLB_INT_PEND `k` (R535). -/
def intPendClear (k w : Nat) (s : State) : State :=
  (span (32 * k) 32).foldl (fun s v =>
    if bitOf w (v % 32) && s.rdb (vectorBit v) then
      let s := s.wr (vectorBit v) 0
      if vectorWanted s v then s.makePending v else s
    else s) s

end Sys2Proof.Machine
end

