-- ==== Sys2Proof/Machine/Pixel.lean ====
section
/-!
DEFINITION. The arithmetic from source pixel to output code (R105, R106, R129 to R139), the signature of R197, the ember
pattern of R167 and R168, and the age badge of R170, R171 and R557.
-/
namespace Sys2Proof.Machine

/-! ### Source formats (R105, R129) -/

/-- Bits per component of a format of R105. -/
def fmtDepth (fmt : Nat) : Nat := [8, 10, 12].getD (fmt % 3) 8

/-- The format carries luma and chroma. -/
def fmtYcc (fmt : Nat) : Bool := decide (3 ≤ fmt)

/-- Horizontal and vertical chroma subsampling of a format. -/
def fmtSubX (fmt : Nat) : Bool := decide (6 ≤ fmt)
def fmtSubY (fmt : Nat) : Bool := decide (9 ≤ fmt)

/-- Bytes of one pixel, or of one luma sample, of a format. -/
def fmtBytes (fmt : Nat) : Nat :=
  if fmt < 6 then (if fmt % 3 = 2 then 8 else 4) else if fmt % 3 = 0 then 1 else 2

/-- Expansion of a colour component to 12 bits (R106). -/
def expand12 (depth v : Nat) : Nat := v * 2 ^ (12 - depth)

/-- A source frame as the fetch sees it: the bytes, the pitch in bytes, the offset of the chroma plane, the size and the
format. -/
structure Fetch where
  byte : Nat → Nat
  pitch : Nat
  uv : Nat
  w : Nat
  h : Nat
  fmt : Nat

/-- Little-endian number of `n` bytes at offset `o`. -/
def Fetch.le (f : Fetch) (o : Nat) : Nat → Nat
  | 0 => 0
  | n + 1 => f.byte o + 256 * Fetch.le f (o + 1) n

/-- A planar sample at byte offset `o`, expanded to 12 bits. -/
def Fetch.planar (f : Fetch) (o : Nat) : Nat :=
  if f.fmt % 3 = 0 then f.byte o * 16 else f.le o 2 / 2 ^ (16 - fmtDepth f.fmt) * 2 ^ (12 - fmtDepth f.fmt)

/-- Component `c` of a packed pixel (0–2 in the order (R, G, B) or (Y, Cb, Cr)), expanded to 12 bits; 3 is alpha under R129.
Without an alpha field alpha is 4095; `alpha` says that the source is a host surface. -/
def Fetch.packed (f : Fetch) (alpha : Bool) (x y c : Nat) : Nat :=
  let o := y * f.pitch + x * fmtBytes f.fmt
  let place := if c = 3 then 3 else if fmtYcc f.fmt then [1, 0, 2].getD c 0 else 2 - c
  if c = 3 ∧ alpha = false then 4095
  else if f.fmt % 3 = 0 then
    let v := f.byte (o + place)
    if c = 3 then v * 16 + v / 16 else v * 16
  else if f.fmt % 3 = 1 then
    let v := f.le o 4
    if c = 3 then [0, 1365, 2730, 4095].getD (v / 2 ^ 30) 0 else bits v (10 * place + 9) (10 * place) * 4
  else f.le (o + 2 * place) 2 / 16

/-- Component `c` at source position (x, y) of its own plane; a position outside the frame is transparent black (R104). In a
YCbCr frame black is taken as code 0 in Y, Cb and Cr (DESIGN CHOICE, log 113). -/
def Fetch.at_ (f : Fetch) (alpha : Bool) (c : Nat) (x y : Int) : Nat :=
  let sub := fmtSubX f.fmt && (c == 1 || c == 2)
  let pw := if sub then (f.w + 1) / 2 else f.w
  let ph := if sub && fmtSubY f.fmt then (f.h + 1) / 2 else f.h
  if 0 ≤ x ∧ 0 ≤ y ∧ x < pw ∧ y < ph then
    if fmtSubX f.fmt then
      let b := fmtBytes f.fmt
      if c = 3 then 4095
      else if c = 0 then f.planar (y.toNat * f.pitch + x.toNat * b)
      else f.planar (f.uv + y.toNat * f.pitch + (2 * x.toNat + (c - 1)) * b)
    else f.packed alpha x.toNat y.toNat c
  else 0

/-! ### Scaling (R130 to R134) -/

/-- The scale step of R130. -/
def scaleStep (crop dst : Nat) : Nat := (2 * crop * 2 ^ 20 + dst) / (2 * dst)

/-- The source position of destination column or row `j` (R130). -/
def srcPos (p0 crop dst : Nat) (j : Int) : Int :=
  (p0 : Int) * 2 ^ 20 + j * scaleStep crop dst + ((scaleStep crop dst : Int) - 2 ^ 20) / 2

/-- The coefficient set of a plane's own factor (R132): `crop` source samples to `dst`. -/
def coefSet (crop dst : Nat) : Nat :=
  if crop ≤ dst then 0 else if crop ≤ 2 * dst then 1 else if crop ≤ 4 * dst then 2 else 3

/-- Coefficient `t` of a phase in the window of a sheet's registers (R132). -/
def coefAt (sh : Sheet) (vert : Bool) (set phase t : Nat) : Int :=
  let f := if vert then
      (if t % 2 = 0 then R.CMP_COEF_V_TAP_LO set phase (t / 2) else R.CMP_COEF_V_TAP_HI set phase (t / 2))
    else (if t % 2 = 0 then R.CMP_COEF_H_TAP_LO set phase (t / 2) else R.CMP_COEF_H_TAP_HI set phase (t / 2))
  signed 12 (sh.rd f)

/-- One axis of a plane: source taps with coefficients (R131, R133). `p` is the position, `lo` and `n` the crop on this axis in
the plane's samples, `filt` whether the axis is filtered. -/
def axisTaps (sh : Sheet) (vert : Bool) (p : Int) (lo n set : Nat) (filt : Bool) : List (Int × Int) :=
  let i := p / 2 ^ 20
  let clamp (x : Int) : Int := max lo (min x (lo + n - 1))
  if filt then
    let ph := ((p / 2 ^ 14).emod 64).toNat
    let (k, back) := if vert then (6, 2) else (8, 3)
    (List.range k).map fun (t : Nat) => (clamp (i + t - (back : Int)), coefAt sh vert set ph t)
  else [(clamp i, 1024)]

/-- One filter pass (R134): clamp(round(sum / 1024), 0, 4095). -/
def filterPass (l : List (Int × Int)) : Int :=
  max 0 (min 4095 (roundAway (l.foldl (fun a t => a + t.1 * t.2) 0) 1024))

/-- The geometry of a layer in a sheet. -/
structure LayerGeo where
  x0 : Nat
  y0 : Nat
  cw : Nat
  ch : Nat
  x : Int
  y : Int
  dw : Nat
  dh : Nat
  deriving DecidableEq, Repr

/-- The geometry that a sheet's registers give layer `l`. -/
def layerGeo (sh : Sheet) (l : Nat) : LayerGeo where
  x0 := sh.rd (R.LYR_CROP_POS_X0 l)
  y0 := sh.rd (R.LYR_CROP_POS_Y0 l)
  cw := sh.rd (R.LYR_CROP_SIZE_WIDTH_M1 l) + 1
  ch := sh.rd (R.LYR_CROP_SIZE_HEIGHT_M1 l) + 1
  x := signed 16 (sh.rd (R.LYR_DST_POS_X l))
  y := signed 16 (sh.rd (R.LYR_DST_POS_Y l))
  dw := sh.rd (R.LYR_DST_SIZE_WIDTH_M1 l) + 1
  dh := sh.rd (R.LYR_DST_SIZE_HEIGHT_M1 l) + 1

/-- The taps of component `c` of layer geometry `g` on both axes at destination column `j` and row `k`. -/
def compTaps (sh : Sheet) (fmt : Nat) (g : LayerGeo) (c : Nat) (j k : Int) : List (Int × Int) × List (Int × Int) :=
  let chroma := fmtSubX fmt && (c == 1 || c == 2)
  let px := srcPos g.x0 g.cw g.dw j
  let py := srcPos g.y0 g.ch g.dh k
  let h :=
    if chroma then axisTaps sh false (px / 2) (g.x0 / 2) ((g.x0 + g.cw) / 2 - g.x0 / 2) (coefSet (g.cw / 2) g.dw) true
    else axisTaps sh false px g.x0 g.cw (coefSet g.cw g.dw) (g.cw != g.dw)
  let v :=
    if chroma && fmtSubY fmt then
      axisTaps sh true ((py - 2 ^ 19) / 2) (g.y0 / 2) ((g.y0 + g.ch) / 2 - g.y0 / 2) (coefSet (g.ch / 2) g.dh) true
    else axisTaps sh true py g.y0 g.ch (coefSet g.ch g.dh) (g.ch != g.dh)
  (h, v)

/-- The filtered component `c` at destination column `j` and row `k` of a layer: vertical pass, then horizontal (R134). -/
def scaledComp (sh : Sheet) (f : Fetch) (alpha : Bool) (g : LayerGeo) (c : Nat) (j k : Int) : Int :=
  let (h, v) := compTaps sh f.fmt g c j k
  filterPass (h.map fun a => (filterPass (v.map fun b => ((f.at_ alpha c a.1 b.1 : Nat), b.2)), a.2))

/-- Output component `i` of the layer matrix (R106). -/
def matrixOut (sh : Sheet) (l i : Nat) (inp : List Int) : Int :=
  let m := match i with
    | 0 => [R.LYR_MATRIX0_M00 l, R.LYR_MATRIX0_M01 l, R.LYR_MATRIX1_M02 l, R.LYR_MATRIX1_O0 l]
    | 1 => [R.LYR_MATRIX2_M10 l, R.LYR_MATRIX2_M11 l, R.LYR_MATRIX3_M12 l, R.LYR_MATRIX3_O1 l]
    | _ => [R.LYR_MATRIX4_M20 l, R.LYR_MATRIX4_M21 l, R.LYR_MATRIX5_M22 l, R.LYR_MATRIX5_O2 l]
  let cs := m.map fun f => signed 16 (sh.rd f)
  let sum := ((cs.zip inp).take 3).foldl (fun a p => a + p.1 * p.2) 0
  max 0 (min 4095 (roundAway sum 4096 + cs.getD 3 0))

/-! ### Blending and output (R135 to R139) -/

/-- round() with halves upward of a non-negative quotient. -/
def roundUp (n d : Nat) : Nat := (2 * n + d) / (2 * d)

/-- The effective alpha of R136 from the filtered alpha `a`. -/
def effAlpha (sh : Sheet) (l a : Nat) : Nat :=
  let ga := sh.rd (R.LYR_BLEND_GLOBAL_ALPHA l)
  if sh.rd (R.LYR_CTRL_OPAQUE l) = 1 then 4095
  else if sh.rd (R.LYR_BLEND_ALPHA_MODE l) = 0 then roundUp (ga * 4095) 255
  else roundUp (ga * a) 255

/-- One component blended over `c` (R137). -/
def blendComp (sh : Sheet) (l a src c : Nat) : Nat :=
  if sh.rd (R.LYR_BLEND_ALPHA_MODE l) = 1 ∧ sh.rd (R.LYR_CTRL_OPAQUE l) = 0 then
    min 4095 (roundUp (sh.rd (R.LYR_BLEND_GLOBAL_ALPHA l) * src) 255 + roundUp ((4095 - a) * c) 4095)
  else roundUp (a * src + (4095 - a) * c) 4095

/-- Entry `i` of flue `f`'s output LUT; entry 1024 is entry 1023 (R138). -/
def lutEntry (sh : Sheet) (f i : Nat) : Nat :=
  let i := min i 1023
  sh.rd (if i % 2 = 0 then R.CMP_LUT_ENTRY_LO f (i / 2) else R.CMP_LUT_ENTRY_HI f (i / 2))

/-- The output transfer of R138. -/
def lutOut (sh : Sheet) (f v : Nat) : Nat :=
  let i := v * 1023 / 4095
  let fr := v * 1023 % 4095 * 256 / 4095
  let e0 := (lutEntry sh f i : Int)
  let e1 := (lutEntry sh f (i + 1) : Int)
  -- halves up
  ((512 * e0 + 2 * fr * (e1 - e0) + 256) / 512).toNat

/-- The depth in bits of flue `f` (R139). -/
def flueDepth (sh : Sheet) (f : Nat) : Nat := [8, 10, 12].getD (sh.rd (R.CMP_FLUE_CTRL_DEPTH f)) 10

/-- The output code of R139. -/
def outCode (d u : Nat) : Nat := if d = 12 then u else min ((u + 2 ^ (11 - d)) / 2 ^ (12 - d)) (2 ^ d - 1)

/-- A pixel of output codes in one number, 12 bits a component, red highest. -/
def packCodes (r g b : Nat) : Nat := r * 2 ^ 24 + g * 2 ^ 12 + b

/-- The red, green and blue codes of a packed pixel. -/
def unpackCodes (p : Nat) : List Nat := [p / 2 ^ 24, p / 2 ^ 12 % 2 ^ 12, p % 2 ^ 12]

/-! ### Signatures (R177, R197) -/

/-- CRC-32C: polynomial 0x1EDC6F41, reflected, initial value and final XOR all ones; 0x82F63B78 is the polynomial reflected. -/
def crc32cByte (c m : Nat) : Nat :=
  (List.range 8).foldl (fun c _ => if c % 2 = 1 then (c / 2) ^^^ 0x82F63B78 else c / 2) (c ^^^ m)

/-- CRC-32C over 16-bit little-endian words. -/
def crc32cWords (ws : List Nat) : Nat :=
  (ws.foldl (fun c w => crc32cByte (crc32cByte c (w % 256)) (w / 256 % 256)) 0xFFFFFFFF) ^^^ 0xFFFFFFFF

/-- The signature of a tile's pixels in raster order (R197). -/
def tileSig (px : List Nat) : Nat := crc32cWords (px.flatMap unpackCodes)

/-! ### Ember and badges (R167 to R171, R557) -/

/-- An ember colour of a flue (10-bit codes) at the flue's depth (R168). -/
def scale10 (d c : Nat) : Nat := if d = 8 then c / 4 else if d = 12 then c * 4 else c

/-- Ember colour A (`second` false) or B of flue `f`. -/
def emberColour (sh : Sheet) (f : Nat) (second : Bool) : Nat :=
  let d := flueDepth sh f
  let c (g : Fld) := scale10 d (sh.rd g)
  if second then packCodes (c (R.FRS_FLUE_EMBER_B_R f)) (c (R.FRS_FLUE_EMBER_B_G f)) (c (R.FRS_FLUE_EMBER_B_B f))
  else packCodes (c (R.FRS_FLUE_EMBER_A_R f)) (c (R.FRS_FLUE_EMBER_A_G f)) (c (R.FRS_FLUE_EMBER_A_B f))

/-- The ember pattern at flue pixel (x, y) (R167). -/
def emberPixel (sh : Sheet) (f x y : Nat) : Nat := emberColour sh f (decide (8 ≤ (x + y) % 16))

/-- Glyph ROM (R557): the 16 rows of a character; characters outside it are blank. -/
def glyphRom (c : Char) : List Nat :=
  match c with
  | '0' => [0x00, 0x00, 0x3C, 0x42, 0x42, 0x42, 0x42, 0x42, 0x42, 0x42, 0x42, 0x42, 0x42, 0x3C, 0x00, 0x00]
  | '1' => [0x00, 0x00, 0x08, 0x18, 0x28, 0x08, 0x08, 0x08, 0x08, 0x08, 0x08, 0x08, 0x08, 0x3E, 0x00, 0x00]
  | '2' => [0x00, 0x00, 0x3C, 0x42, 0x02, 0x02, 0x04, 0x08, 0x10, 0x20, 0x40, 0x40, 0x40, 0x7E, 0x00, 0x00]
  | '3' => [0x00, 0x00, 0x3C, 0x42, 0x02, 0x02, 0x02, 0x1C, 0x02, 0x02, 0x02, 0x02, 0x42, 0x3C, 0x00, 0x00]
  | '4' => [0x00, 0x00, 0x04, 0x0C, 0x14, 0x24, 0x44, 0x44, 0x7E, 0x04, 0x04, 0x04, 0x04, 0x04, 0x00, 0x00]
  | '5' => [0x00, 0x00, 0x7E, 0x40, 0x40, 0x40, 0x7C, 0x02, 0x02, 0x02, 0x02, 0x02, 0x42, 0x3C, 0x00, 0x00]
  | '6' => [0x00, 0x00, 0x1C, 0x20, 0x40, 0x40, 0x7C, 0x42, 0x42, 0x42, 0x42, 0x42, 0x42, 0x3C, 0x00, 0x00]
  | '7' => [0x00, 0x00, 0x7E, 0x02, 0x02, 0x04, 0x04, 0x08, 0x08, 0x10, 0x10, 0x10, 0x10, 0x10, 0x00, 0x00]
  | '8' => [0x00, 0x00, 0x3C, 0x42, 0x42, 0x42, 0x42, 0x3C, 0x42, 0x42, 0x42, 0x42, 0x42, 0x3C, 0x00, 0x00]
  | '9' => [0x00, 0x00, 0x3C, 0x42, 0x42, 0x42, 0x42, 0x42, 0x3E, 0x02, 0x02, 0x02, 0x04, 0x38, 0x00, 0x00]
  | '.' => [0x00, 0x00, 0x00, 0x00, 0x00, 0x00, 0x00, 0x00, 0x00, 0x00, 0x00, 0x00, 0x18, 0x18, 0x00, 0x00]
  | ':' => [0x00, 0x00, 0x00, 0x00, 0x00, 0x18, 0x18, 0x00, 0x00, 0x00, 0x18, 0x18, 0x00, 0x00, 0x00, 0x00]
  | 'm' => [0x00, 0x00, 0x00, 0x00, 0x00, 0x00, 0x7C, 0x54, 0x54, 0x54, 0x54, 0x54, 0x54, 0x54, 0x00, 0x00]
  | 's' => [0x00, 0x00, 0x00, 0x00, 0x00, 0x00, 0x3E, 0x40, 0x40, 0x3C, 0x02, 0x02, 0x02, 0x7C, 0x00, 0x00]
  | '>' => [0x00, 0x00, 0x00, 0x00, 0x40, 0x20, 0x10, 0x08, 0x04, 0x08, 0x10, 0x20, 0x40, 0x00, 0x00, 0x00]
  | _ => []

/-- The decimal digit of a number below ten. -/
def digitChar (n : Nat) : Char := Char.ofNat (48 + n % 10)

/-- A number of at most three digits in decimal, without leading zeros. -/
def decimal (n : Nat) : List Char :=
  if n < 10 then [digitChar n] else if n < 100 then [digitChar (n / 10), digitChar n]
  else [digitChar (n / 100), digitChar (n / 10), digitChar n]

/-- The age text of R171. -/
def badgeText (a : Nat) : List Char :=
  if 2 ^ 30 ≤ a then ['>', '1', '7', ':', '5', '3']
  else if a < 1000000 then decimal (a / 1000) ++ ['m', 's']
  else if a < 60000000 then decimal (a / 1000000) ++ ['.', digitChar (a % 1000000 / 100000), 's']
  else decimal (a / 60000000) ++ [':', digitChar (a % 60000000 / 10000000), digitChar (a % 10000000 / 1000000)]

/-- The rows of glyph `g` of glyph RAM, from the top. -/
def glyphRam (sh : Sheet) (g : Nat) : List Nat :=
  (List.range 16).map fun r => bits (sh.rd (R.FRS_GLYPH_ROWS g (r / 4))) (8 * (r % 4) + 7) (8 * (r % 4))

/-- The glyph rows of cell `c` of a badge that shows age `a` (R171). -/
def badgeCell (sh : Sheet) (a c : Nat) : List Nat :=
  if c < 8 then
    let w := c / 4
    glyphRam sh (sh.rd ([R.FRS_BADGE_WORD_CELL0 w, R.FRS_BADGE_WORD_CELL1 w, R.FRS_BADGE_WORD_CELL2 w,
      R.FRS_BADGE_WORD_CELL3 w].getD (c % 4) (R.FRS_BADGE_WORD_CELL0 w)))
  else if c = 8 then []
  else
    let t := badgeText a
    if 15 - t.length ≤ c then glyphRom (t.getD (c - (15 - t.length)) ' ') else []

/-- The pixel at offset (dx, dy) of the 124 × 20 badge box of flue `f` for age `a` (R170, R171). -/
def badgePixel (sh : Sheet) (f a dx dy : Nat) : Nat :=
  let inCells := decide (2 ≤ dx) && decide (dx < 122) && decide (2 ≤ dy) && decide (dy < 18)
  let lit := inCells && bitOf ((badgeCell sh a ((dx - 2) / 8)).getD (dy - 2) 0) (7 - (dx - 2) % 8)
  emberColour sh f (!lit)

end Sys2Proof.Machine
end

