-- ==== Sys2Proof/Machine/Sheet.lean ====
section
/-!
DEFINITION. What a cue sheet gives: flue geometry and timing (R118 to R121), layers and their rectangles (R101 to R104), the
candidates and visible lists of tiles (R124 to R128), the critical set (R191, R193), the pixels of a tile (R129 to R140),
and the trust and concealment of a tile (R161).
-/
namespace Sys2Proof.Machine

/-! ### Flues -/

def hActive (sh : Sheet) (f : Nat) : Nat := sh.rd (R.CMP_FLUE_HTIME_H_ACTIVE f)
def hTotal (sh : Sheet) (f : Nat) : Nat := sh.rd (R.CMP_FLUE_HTIME_H_TOTAL f)
def vActive (sh : Sheet) (f : Nat) : Nat := sh.rd (R.CMP_FLUE_VTIME_V_ACTIVE f)
def vTotal (sh : Sheet) (f : Nat) : Nat := sh.rd (R.CMP_FLUE_VTIME_V_TOTAL f)

/-- Columns and rows of tiles (R121). -/
def tileCols (sh : Sheet) (f : Nat) : Nat := (hActive sh f + 31) / 32
def tileRows (sh : Sheet) (f : Nat) : Nat := (vActive sh f + 31) / 32

/-- The wall geometry defines flue `f` (R553): its raster is not empty. -/
def flueDefined (sh : Sheet) (f : Nat) : Bool := vTotal sh f != 0

/-- Flue `f` is enabled in the sheet, an undefined flue counting as disabled (R553). -/
def flueOn (sh : Sheet) (f : Nat) : Bool := sh.rd (R.CMP_FLUE_CTRL_ENABLE f) == 1 && flueDefined sh f

/-- The tile-table index of tile `t` of flue `f` (R121). -/
def tileIndex (sh : Sheet) (f t : Nat) : Nat := sh.rd (R.CMP_FLUE_TILES_TILE_BASE f) + t

/-- Line `n` lines after the frame start, in ns, for a frame period (R118). -/
def lineNs (sh : Sheet) (f period n : Nat) : Nat := n * period / max 1 (vTotal sh f)

/-- The deadline of band `k` of a frame that starts at `start` (R120). -/
def bandDeadline (sh : Sheet) (f start period k : Nat) : Nat :=
  start + lineNs sh f period (vTotal sh f - vActive sh f + 32 * k)

/-! ### Layers -/

/-- Place order of two layers (R101): `a` lies in front of `b`. -/
def inFront (sh : Sheet) (a b : Nat) : Bool :=
  let za := sh.rd (R.LYR_CTRL_Z a)
  let zb := sh.rd (R.LYR_CTRL_Z b)
  decide (zb < za) || (za == zb && decide (b < a))

/-- A layer's rectangle clipped to the active area (R102), as (left, top, right, bottom) with exclusive ends; empty when
right ≤ left or bottom ≤ top. -/
def clipped (sh : Sheet) (l : Nat) : Int × Int × Int × Int :=
  let g := layerGeo sh l
  let f := sh.rd (R.LYR_CTRL_FLUE l)
  (max 0 g.x, max 0 g.y, min (hActive sh f) (g.x + g.dw), min (vActive sh f) (g.y + g.dh))

/-- Active pixels of tile `t` of flue `f` as (left, top, right, bottom), exclusive ends. -/
def tileBox (sh : Sheet) (f t : Nat) : Int × Int × Int × Int :=
  let c := t % max 1 (tileCols sh f)
  let r := t / max 1 (tileCols sh f)
  (32 * c, 32 * r, min (hActive sh f) (32 * c + 32 : Nat), min (vActive sh f) (32 * r + 32 : Nat))

/-- Two boxes share a pixel. -/
def boxesMeet (a b : Int × Int × Int × Int) : Bool :=
  decide (max a.1 b.1 < min a.2.2.1 b.2.2.1) && decide (max a.2.1 b.2.1 < min a.2.2.2 b.2.2.2)

/-- Box `a` contains box `b`. -/
def boxCovers (a b : Int × Int × Int × Int) : Bool :=
  decide (a.1 ≤ b.1) && decide (a.2.1 ≤ b.2.1) && decide (b.2.2.1 ≤ a.2.2.1) && decide (b.2.2.2 ≤ a.2.2.2)

/-- The frame that layer `l` binds in the sheet. -/
def boundFrame (sh : Sheet) (l : Nat) : Option Frame := (sh.layers.find? (·.num == l)).bind (·.frame)

/-- The crop of layer `l` lies within its bound frame (R104). -/
def cropInside (sh : Sheet) (l : Nat) : Bool :=
  match boundFrame sh l with
  | none => false
  | some fr => let g := layerGeo sh l; decide (g.x0 + g.cw ≤ fr.w) && decide (g.y0 + g.ch ≤ fr.h)

/-- Layer `l` stops the visible list of tile `t` (R125). -/
def stopsList (sh : Sheet) (f t l : Nat) : Bool :=
  sh.rd (R.LYR_CTRL_OPAQUE l) == 1 && cropInside sh l && boxCovers (clipped sh l) (tileBox sh f t)

/-- Insert a layer into a list kept front to back. -/
def insertFront (sh : Sheet) (l : Nat) : List Nat → List Nat
  | [] => [l]
  | m :: ms => if inFront sh l m then l :: m :: ms else m :: insertFront sh l ms

/-- The layer is unbound in the sheet (R94). -/
def unbound (sh : Sheet) (l : Nat) : Bool := (boundFrame sh l).isNone

/-- The layers of flue `f` that may be candidates, front to back: enabled, valid, KIND not 0x0, not unbound in DC15 (R90,
R94, R124). -/
def flueLayers (sh : Sheet) (f : Nat) : List Nat :=
  (sh.layers.filterMap fun l =>
    if sh.rd (R.LYR_CTRL_FLUE l.num) = f ∧ sh.rd (R.LYR_SRC_KIND l.num) ≠ 0
        ∧ ¬(l.frame = none ∧ sh.rd (R.LYR_CTRL_DC l.num) = 15)
    then some l.num else none).foldl (fun acc l => insertFront sh l acc) []

/-- The candidates of tile `t`, front to back (R124). -/
def candidates (sh : Sheet) (f t : Nat) : List Nat :=
  (flueLayers sh f).filter fun l => boxesMeet (clipped sh l) (tileBox sh f t)

/-- Take candidates up to and with the first that stops the list (R125). -/
def takeList (sh : Sheet) (f t : Nat) : List Nat → List Nat
  | [] => []
  | l :: ls => if stopsList sh f t l then [l] else l :: takeList sh f t ls

/-- The visible list before the depth limit. -/
def fullList (sh : Sheet) (f t : Nat) : List Nat := takeList sh f t (candidates sh f t)

/-- The visible list of tile `t` of flue `f`, front to back, at most 16 entries (R125, R128). -/
def visibleList (sh : Sheet) (f t : Nat) : List Nat := (fullList sh f t).take 16

/-- Entries were dropped under R128. -/
def overDepth (sh : Sheet) (f t : Nat) : Bool := decide (16 < (fullList sh f t).length)

/-! ### The critical set (R191, R193) -/

/-- The rectangles of the set in force in a sheet's registers. -/
def rectsOf (sh : Sheet) (f : Nat) : List Nat :=
  (List.range 64).filter fun n => sh.rd (R.CRT_RECT_POS_VALID n) == 1 && sh.rd (R.CRT_RECT_POS_FLUE n) == f

/-- Tile column and row lie in rectangle `n`. -/
def inRect (sh : Sheet) (n c r : Nat) : Bool :=
  let c0 := sh.rd (R.CRT_RECT_POS_COL0 n)
  let r0 := sh.rd (R.CRT_RECT_POS_ROW0 n)
  decide (c0 ≤ c) && decide (c ≤ c0 + sh.rd (R.CRT_RECT_SIZE_COLS_M1 n))
    && decide (r0 ≤ r) && decide (r ≤ r0 + sh.rd (R.CRT_RECT_SIZE_ROWS_M1 n))

/-- The rectangle that holds tile `t` of flue `f`, when the tile is critical: the flue is enabled, and not rested (R193,
R268). -/
def criticalRect (sh : Sheet) (f t : Nat) : Option Nat :=
  if flueOn sh f && !bitOf sh.rested f then
    (rectsOf sh f).find? fun n => inRect sh n (t % max 1 (tileCols sh f)) (t / max 1 (tileCols sh f))
  else none

/-- The band of a tile. -/
def bandOf (sh : Sheet) (f t : Nat) : Nat := t / max 1 (tileCols sh f)

/-- The tiles of band `k` of flue `f`. -/
def bandTiles (sh : Sheet) (f k : Nat) : List Nat := span (k * tileCols sh f) (tileCols sh f)

/-- The tiles of rectangle `n` in band `k` of flue `f`, in raster order (R195). -/
def memberTiles (sh : Sheet) (f n k : Nat) : List Nat :=
  (bandTiles sh f k).filter fun t => criticalRect sh f t == some n

/-! ### The direct path (R144) -/

/-- The layer honoured as direct on flue `f` in the sheet. -/
def directLayer (sh : Sheet) (f : Nat) : Option Nat := (sh.direct.find? (·.1 == f)).map Prod.snd

/-- Tile `t` is touched by the honoured direct layer; and covered completely. -/
def directTouches (sh : Sheet) (f t : Nat) : Bool :=
  match directLayer sh f with | none => false | some l => boxesMeet (clipped sh l) (tileBox sh f t)
def directCovers (sh : Sheet) (f t : Nat) : Bool :=
  match directLayer sh f with | none => false | some l => boxCovers (clipped sh l) (tileBox sh f t)

/-- Flue pixel (x, y) lies in the clipped rectangle of the honoured direct layer. -/
def inDirect (sh : Sheet) (f x y : Nat) : Bool :=
  match directLayer sh f with
  | none => false
  | some l =>
    let b := clipped sh l
    decide (b.1 ≤ x) && decide ((x : Int) < b.2.2.1) && decide (b.2.1 ≤ y) && decide ((y : Int) < b.2.2.2)

/-! ### Pixels -/

/-- The fetch view of the frame layer `l` binds: a host surface or a held copy in hearth memory, or the frame's own bytes. -/
def frameFetch (mem : Tab Byte) (fr : Frame) : Fetch where
  byte := match fr.place with
    | some p => fun o => (mem.get memDefault (p.1 + o)).toNat
    | none => fun o => (fr.bytes.getD o 0).toNat
  pitch := match fr.place with | some p => p.2 | none => fr.w * fmtBytes fr.fmt
  uv := match fr.place, fr.chroma with
    | some p, some c => c - p.1
    | some p, none => fr.h * p.2
    | none, _ => fr.h * (fr.w * fmtBytes fr.fmt)
  w := fr.w
  h := fr.h
  fmt := fr.fmt

/-- One layer blended over working components `c` at flue pixel (x, y) (R126, R136, R137). -/
def blendLayer (mem : Tab Byte) (sh : Sheet) (x y : Int) (c : List Nat) (l : Nat) : List Nat :=
  match boundFrame sh l with
  | none => c
  | some fr =>
    let b := clipped sh l
    if b.1 ≤ x ∧ x < b.2.2.1 ∧ b.2.1 ≤ y ∧ y < b.2.2.2 then
      let g := layerGeo sh l
      let ft := frameFetch mem fr
      let host := sh.rd (R.LYR_SRC_KIND l) == 3
      let comp (i : Nat) := scaledComp sh ft host g i (x - g.x) (y - g.y)
      let a := effAlpha sh l (comp 3).toNat
      let inp := [comp 0, comp 1, comp 2]
      (List.range 3).map fun i => blendComp sh l a (matrixOut sh l i inp).toNat (c.getD i 0)
    else c

/-- The background of flue `f` as working components (R137). -/
def background (sh : Sheet) (f : Nat) : List Nat :=
  [sh.rd (R.CMP_FLUE_BG_R f) * 4, sh.rd (R.CMP_FLUE_BG_G f) * 4, sh.rd (R.CMP_FLUE_BG_B f) * 4]

/-- The composed output codes of flue pixel (x, y), before overdraw, from a visible list (R129 to R139). -/
def composePixel (mem : Tab Byte) (sh : Sheet) (f : Nat) (list : List Nat) (x y : Int) : Nat :=
  let w := list.reverse.foldl (blendLayer mem sh x y) (background sh f)
  let code (i : Nat) := outCode (flueDepth sh f) (lutOut sh f (w.getD i 0))
  packCodes (code 0) (code 1) (code 2)

/-- The flue pixels of tile `t` in raster order. -/
def tilePixels (sh : Sheet) (f t : Nat) : List (Nat × Nat) :=
  let b := tileBox sh f t
  (span b.2.1.toNat (b.2.2.2 - b.2.1).toNat).flatMap fun y =>
    (span b.1.toNat (b.2.2.1 - b.1).toNat).map fun x => (x, y)

/-- The composed codes of tile `t`, before overdraw; an honoured direct layer is transparent to the unit that composes (R144). -/
def composeTile (mem : Tab Byte) (sh : Sheet) (f t : Nat) : List Nat :=
  let list := (visibleList sh f t).filter fun l => directLayer sh f != some l
  (tilePixels sh f t).map fun (x, y) => composePixel mem sh f list x y

/-! ### Trust and concealment (R161) -/

/-- The 16 × 16 blocks of the bound frame under the fetch of layer `l` in tile `t` (R126): every tap of luma and chroma. -/
def fetchedBlocks (sh : Sheet) (f t l : Nat) (fr : Frame) : List Nat :=
  let g := layerGeo sh l
  let b := clipped sh l
  let tb := tileBox sh f t
  let x0 := max b.1 tb.1
  let y0 := max b.2.1 tb.2.1
  let x1 := min b.2.2.1 tb.2.2.1
  let y1 := min b.2.2.2 tb.2.2.2
  let xs := (List.range (x1 - x0).toNat).map fun (i : Nat) => x0 - g.x + (i : Int)
  let ys := (List.range (y1 - y0).toNat).map fun (i : Nat) => y0 - g.y + (i : Int)
  let cols (sub c : Nat) : List Nat := xs.flatMap fun j => (compTaps sh fr.fmt g c j 0).1.map fun a => (a.1 * (sub : Int)).toNat / 16
  let rows (sub c : Nat) : List Nat := ys.flatMap fun k => (compTaps sh fr.fmt g c 0 k).2.map fun a => (a.1 * (sub : Int)).toNat / 16
  let cs := (cols 1 0 ++ (if fmtSubX fr.fmt then cols 2 1 else [])).eraseDups
  let rs := (rows 1 0 ++ (if fmtSubX fr.fmt then rows (if fmtSubY fr.fmt then 2 else 1) 1 else [])).eraseDups
  let bw := (fr.w + 15) / 16
  rs.flatMap fun r => (cs.filter (· < bw)).map fun c => r * bw + c

/-- Some pixel fetched for the tile through layer `l` is untrusted, and some is concealed. -/
def layerUntrusted (sh : Sheet) (f t l : Nat) : Bool :=
  match boundFrame sh l with
  | none => false
  | some fr => !fr.untrusted.isEmpty && (fetchedBlocks sh f t l fr).any (fr.untrusted.contains ·)
def layerConcealed (sh : Sheet) (f t l : Nat) : Bool :=
  match boundFrame sh l with
  | none => false
  | some fr => !fr.concealed.isEmpty && (fetchedBlocks sh f t l fr).any (fr.concealed.contains ·)

end Sys2Proof.Machine
end

