-- ==== Sys2Proof/Machine/Fresh.lean ====
section
/-!
DEFINITION. Age, deadlines and ember (R153 to R175, R295): the age of a stamp, of a layer and of a tile, the states and causes
of tiles, badges, the tile table, the held words, and the sweep.
-/
namespace Sys2Proof.Machine

/-! ### Ages (R154, R158) -/

/-- The age of a stamp at reference time `now` (R154). -/
def ageOf (stamp : Nat) (ancient : Bool) (now : Nat) : Nat :=
  let raw := (now + 2 ^ 32 - stamp % 2 ^ 32) % 2 ^ 32
  if ancient then 0xFFFFFFFF else if 0xC0000000 ≤ raw then 0 else raw

/-- A stamp lies in the ahead range (R154). -/
def isAhead (stamp : Nat) (ancient : Bool) (now : Nat) : Bool :=
  !ancient && decide (0xC0000000 ≤ (now + 2 ^ 32 - stamp % 2 ^ 32) % 2 ^ 32)

/-- A stamp that a sweep flags (R155). -/
def sweepFlags (stamp now : Nat) : Bool :=
  let raw := (now + 2 ^ 32 - stamp % 2 ^ 32) % 2 ^ 32
  decide (0x40000000 ≤ raw) && decide (raw < 0xC0000000)

/-- The probe entries of a layer (R108). -/
def layerProbes (sh : Sheet) (l : Nat) : List Nat :=
  span (sh.rd (R.LYR_PROBE_EXPORT_PROBE_BASE l)) (sh.rd (R.LYR_PROBE_EXPORT_PROBE_COUNT l))

/-- The probes of a layer that have a change time (R158), with it and its ancient flag. -/
def probeStamps (s : State) (sh : Sheet) (l : Nat) : List (Nat × Bool) :=
  (layerProbes sh l).filterMap fun p =>
    if (s.comp.probeSigned.get (fun _ => none) p).isSome
    then some (s.rd (R.SNT_PROBE_CHANGE_CHANGE_WUS p), s.rdb (R.SNT_PROBE_SIZE_ANCIENT p)) else none

/-- The maximum age of a layer's class in the sheet (R160), none for DC15. -/
def classLimit (sh : Sheet) (dc : Nat) : Option Nat :=
  if dc = 15 then none else some (sh.rd (R.FRS_DC_MAX_MAX_AGE dc))

/-- The age of a layer of the sheet at `now` (R158). An unbound layer has no stamp: a tile that records it holds stamp 0 with
ANCIENT 0 beside its age 0xFFFFFFFF. DESIGN CHOICE (log 96). -/
def layerAge (s : State) (sh : Sheet) (now : Nat) (l : SheetLayer) : LayerAge :=
  let limit := classLimit sh (sh.rd (R.LYR_CTRL_DC l.num))
  match l.frame with
  | none => { num := l.num, age := 0xFFFFFFFF, bound := false, limit }
  | some fr =>
    let ps := probeStamps s sh l.num
    let init : LayerAge := { num := l.num, age := ageOf fr.stamp fr.ancient now, stamp := fr.stamp
                             ancient := fr.ancient, limit }
    let best := ps.foldl (fun (b : LayerAge) p =>
      let a := ageOf p.1 p.2 now
      if b.age < a then { b with age := a, stamp := p.1, ancient := p.2, probeSet := true } else b) init
    { best with
      effAhead := isAhead best.stamp best.ancient now
      ahead := isAhead fr.stamp fr.ancient now || (ps.any fun p => isAhead p.1 p.2 now)
        || fr.cstamp.any fun c => isAhead c.1 c.2 now }

/-- The clipped rectangle of layer `l` is empty: it has no age (R102). -/
def clippedAway (sh : Sheet) (l : Nat) : Bool :=
  let b := clipped sh l
  decide (b.2.2.1 ≤ b.1) || decide (b.2.2.2 ≤ b.2.1)

/-- The ages of the layers of the sheet that have one. -/
def layerAges (s : State) (sh : Sheet) (now : Nat) : List LayerAge :=
  (sh.layers.filter fun l => !clippedAway sh l.num).map (layerAge s sh now)

/-- The age of layer `l` among them. -/
def findAge (las : List LayerAge) (l : Nat) : LayerAge :=
  (las.find? (·.num == l)).getD { num := l, age := 0xFFFFFFFF, bound := false, limit := none }

/-! ### Tiles (R159 to R165) -/

/-- What a layer contributes to a tile: its age, or the concealment stamp's where that is larger (R159, R295). -/
def contribution (sh : Sheet) (now f t : Nat) (la : LayerAge) : LayerAge :=
  match (boundFrame sh la.num).bind (·.cstamp) with
  | none => la
  | some (cs, anc) =>
    let a := ageOf cs anc now
    if layerConcealed sh f t la.num ∧ la.age < a then { la with age := a, stamp := cs, ancient := anc } else la

/-- The layers whose ages make the tile's (R159). -/
def contributing (sh : Sheet) (list : List Nat) : List Nat :=
  let l := list.filter fun l => sh.rd (R.LYR_CTRL_DC l) != 15
  if l.isEmpty then list else l

/-- A layer over its class's maximum. -/
def isOver (la : LayerAge) : Bool := match la.limit with | none => false | some m => decide (m < la.age)

/-- The words that a held copy keeps for a tile (R166). -/
structure HeldWord where
  stamp : Nat
  state : Nat
  ancient : Bool
  dc : Nat
  layer : Nat
  deriving DecidableEq, Repr

/-- The conditions of R162 and R164 for one tile that come from elsewhere than its visible list; `noCopy`: its band is held and
no buffer holds it complete (R150). -/
structure TileCtx where
  dark : Bool := false
  noCopy : Bool := false
  voteFail : Bool := false
  resting : Bool := false
  held : Option HeldWord := none
  deriving DecidableEq, Repr

/-- The cause bits of word 3. -/
def causeBits (resting past untrust vote conc probe held ahead depth empty direct crit : Bool) : Nat :=
  2 ^ 12 * b2n resting + 2 ^ 11 * b2n past + 2 ^ 10 * b2n untrust + 2 ^ 9 * b2n vote + 2 ^ 8 * b2n conc
    + 2 ^ 7 * b2n probe + 2 ^ 6 * b2n held + 2 ^ 5 * b2n ahead + 2 ^ 4 * b2n depth + 2 ^ 3 * b2n empty
    + 2 ^ 2 * b2n direct + 2 * b2n crit

/-- The row of R162 that decides, with its drawn state, from the conditions of rows 1 to 8. -/
def decideRow (dark vote resting untrust past held conc frozen : Bool) : Nat × Nat :=
  if dark then (1, 0) else if vote then (2, 6) else if resting then (3, 6) else if untrust then (4, 6)
  else if past then (5, 6) else if held then (6, 2) else if conc then (7, 3) else if frozen then (8, 5) else (9, 1)

/-- The base state of R163. -/
def baseState (held untrust conc frozen : Bool) : Nat :=
  if held then 2 else if untrust then 4 else if conc then 3 else if frozen then 5 else 1

/-- The evaluation of tile `t` of flue `f` (R159 to R164). A held tile takes stamp, class, layer and the conditions of rows 4
and 5 from its held words (R166); its causes are those of its visible list and of its held content alike (R164). DEDUCED
(log 13). -/
def evalTile (sh : Sheet) (las : List LayerAge) (now edgeWus f t : Nat) (c : TileCtx) : TileEval :=
  let list := visibleList sh f t
  let crit := (criticalRect sh f t).isSome
  if c.dark then {}
  else if c.noCopy then { causes := causeBits c.resting false false c.voteFail false false true false false false false crit }
  else
    let contrib := (contributing sh list).map fun l => contribution sh now f t (findAge las l)
    let untrusts := list.filter fun l => layerUntrusted sh f t l
    let conc := list.any fun l => layerConcealed sh f t l
    let overs := contrib.filter isOver
    let probe := contrib.any (·.probeSet)
    let ahead := contrib.any (·.ahead)
    let causes (past untrust held ahead : Bool) : Nat := causeBits c.resting past untrust c.voteFail conc probe held ahead
      (overDepth sh f t) list.isEmpty (directTouches sh f t) crit
    match c.held with
    | some h =>
      let past := decide (h.dc ≠ 15)
        && (match classLimit sh h.dc with | none => false | some m => decide (m < ageOf h.stamp h.ancient now))
      let (row, state) := decideRow false c.voteFail c.resting (h.state == 6) past true false false
      { state, base := 2, stamp := h.stamp, ancient := h.ancient, dc := h.dc, layer := h.layer
        entries := list.length, row
        causes := causes (past || !overs.isEmpty) (h.state == 6 || !untrusts.isEmpty) true
          (ahead || isAhead h.stamp h.ancient now) }
    | none =>
      let frozen := contrib.any fun a => a.limit.isSome && a.probeSet
      let (row, state) := decideRow false c.voteFail c.resting (!untrusts.isEmpty) (!overs.isEmpty) false conc frozen
      let rec_ := contrib.foldl (fun (b : Option LayerAge) a =>
        match b with | none => some a | some x => if x.age < a.age then some a else b) none
      { state, base := baseState false (!untrusts.isEmpty) conc frozen
        stamp := match rec_ with | none => edgeWus | some a => a.stamp
        ancient := match rec_ with | none => false | some a => a.ancient
        dc := match rec_ with | none => 15 | some a => sh.rd (R.LYR_CTRL_DC a.num)
        layer := match rec_ with | none => 0 | some a => a.num
        entries := list.length, row
        causes := causes (!overs.isEmpty) (!untrusts.isEmpty) false ahead
        overs := overs.map fun a => (a.num, a.age)
        untrusts
        ages := contrib.map fun a => (a.num, a.age) }

/-- The tiles of flue `f` in the sheet. -/
def flueTiles (sh : Sheet) (f : Nat) : List Nat := List.range (tileCols sh f * tileRows sh f)

/-- A layer puts the tile into EMBER through row 4 or 5 by its own trust or age (R170). -/
def embersTile (e : TileEval) (l : Nat) : Bool :=
  (e.row == 4 && e.untrusts.contains l) || (e.row == 5 && e.overs.any (·.1 == l))

/-- The badge of layer `l` on a flue: its tile and its age (R170, R171). The age is the largest that the layer contributes to
a tile that rows 4 or 5 draw as ember; its own age where it contributes to none. -/
def layerBadge (las : List LayerAge) (tiles : List TileEval) (l : Nat) : Option (Nat × Nat × Nat) :=
  (tiles.zipIdx.find? fun p => embersTile p.1 l).map fun p =>
    let ages := (tiles.filter fun e => e.row == 4 || e.row == 5).filterMap fun e => (e.ages.find? (·.1 == l)).map Prod.snd
    (l, p.2, if ages.isEmpty then (findAge las l).age else ages.foldl max 0)

/-- The badges of a flue, the layer nearer the front later (R170). -/
def flueBadges (sh : Sheet) (las : List LayerAge) (f : Nat) (tiles : List TileEval) : List (Nat × Nat × Nat) :=
  if sh.rd R.FRS_CTRL_BADGE_EN = 1 then (flueLayers sh f).reverse.filterMap (layerBadge las tiles) else []

/-! ### The tile table (R172) -/

/-- Words 0, 2 and 3 of an entry, with word 1 left as it is unless a signature is given. A DARK tile without a cause reads as
all zeros (R172); one that is held without a copy keeps its causes (R150, R164). -/
def writeEntry (i gen : Nat) (e : TileEval) (badge : Bool) (sig : Option Nat) (s : State) : State :=
  if e.state = 0 then
    (((s.wr (R.TILE_WORD i 0) 0).wr (R.TILE_WORD i 1) 0).wr (R.TILE_WORD i 2) 0).wr (R.TILE_WORD i 3)
      (if e.causes = 0 then 0 else gen % 256 * 2 ^ 24 + e.causes)
  else
    let w2 := e.state * 2 ^ 29 + e.base * 2 ^ 26 + b2n e.ancient * 2 ^ 25 + e.dc * 2 ^ 20 + e.layer * 2 ^ 8 + e.entries
    let s := s.wr (R.TILE_WORD i 0) e.stamp
    let s := match sig with | none => s | some v => s.wr (R.TILE_WORD i 1) v
    (s.wr (R.TILE_WORD i 2) w2).wr (R.TILE_WORD i 3) (gen % 256 * 2 ^ 24 + e.causes + b2n badge)

/-- The STATE that the tile table holds for entry `i`. -/
def entryState (s : State) (i : Nat) : Nat := s.rd (R.TILE_WORD i 2) / 2 ^ 29

/-- Count the tiles of flue `f` by state into its registers (R174). -/
def countStates (sh : Sheet) (f : Nat) (s : State) : State :=
  let n (st : Nat) := satTo 16 ((flueTiles sh f).filter fun t => entryState s (tileIndex sh f t) == st).length
  (((s.wr (R.FRS_FLUE_COUNT0_EMBER f) (n 6)).wr (R.FRS_FLUE_COUNT0_HELD f) (n 2)).wr (R.FRS_FLUE_COUNT1_CONCEALED f) (n 3)).wr
    (R.FRS_FLUE_COUNT1_FROZEN f) (n 5)

/-! ### Held copies (R147 to R150, R166) -/

/-- Bytes of one pixel of a held copy. -/
def heldPixelBytes (sh : Sheet) (f : Nat) : Nat := if flueDepth sh f = 12 then 8 else 4

/-- Bytes up to the next multiple of 4 KiB. -/
def pageUp (n : Nat) : Nat := (n + 4095) / 4096 * 4096

/-- The address of held-copy buffer `b` of flue `f` (R147). -/
def heldBuf (sh : Sheet) (f b : Nat) : Nat :=
  sh.rd (R.CMP_FLUE_HELD_BASE f) * 64 + b * pageUp (hActive sh f * vActive sh f * heldPixelBytes sh f)

/-- The address of the held-stamp array of buffer `b`, each from a 4 KiB boundary after the last buffer (R166). -/
def heldArray (sh : Sheet) (f b : Nat) : Nat :=
  pageUp (heldBuf sh f (sh.rd (R.CMP_FLUE_HELD_IDX_COUNT f))) + b * pageUp (8 * (tileCols sh f * tileRows sh f))

/-- The address of the held words of tile `t` in buffer `b` (R166). -/
def heldWordAddr (sh : Sheet) (f b t : Nat) : Nat := heldArray sh f b + 8 * t

/-- The held words of tile `t` in buffer `b`. -/
def readHeld (s : State) (sh : Sheet) (f b t : Nat) : HeldWord :=
  let a := heldWordAddr sh f b t
  let w1 := ofLeBytes (s.memRead (a + 4) 4)
  { stamp := ofLeBytes (s.memRead a 4), state := w1 / 2 ^ 29, ancient := bitOf w1 28
    dc := bits w1 27 24, layer := bits w1 23 12 }

/-- Write the held words of a tile. -/
def writeHeld (sh : Sheet) (f b t : Nat) (h : HeldWord) (s : State) : State :=
  s.memWrite (heldWordAddr sh f b t) (leBytes 4 h.stamp
    ++ leBytes 4 (h.state * 2 ^ 29 + b2n h.ancient * 2 ^ 28 + h.dc * 2 ^ 24 + h.layer * 2 ^ 12))

/-- A pixel of output codes as a held copy stores it (R147). -/
def heldPixel (d p : Nat) : List Byte :=
  let r := p / 2 ^ 24
  let g := p / 2 ^ 12 % 2 ^ 12
  let b := p % 2 ^ 12
  if d = 12 then leBytes 2 (b * 16) ++ leBytes 2 (g * 16) ++ leBytes 2 (r * 16) ++ leBytes 2 0xFFF0
  else
    let k := if d = 8 then 4 else 1
    leBytes 4 (3 * 2 ^ 30 + r * k * 2 ^ 20 + g * k * 2 ^ 10 + b * k)

/-- The newest buffer of flue `f` in which band `k` is complete, the one being written left out (R150). -/
def newestWithBand (s : State) (f k : Nat) (writing : Option Nat) : Option Nat :=
  (s.flue f).ring.find? fun b => bitOf ((s.flue f).bufBands.get (fun _ => 0) b) k && some b != writing

/-! ### The sweep (R155) -/

/-- Flag a frame's stamps. -/
def sweepFrame (now : Nat) (fr : Frame) : Frame :=
  { fr with
    ancient := fr.ancient || sweepFlags fr.stamp now
    cstamp := fr.cstamp.map fun p => (p.1, p.2 || sweepFlags p.1 now) }

def sweepSheet (now : Nat) (sh : Sheet) : Sheet :=
  { sh with layers := sh.layers.map fun l => { l with frame := l.frame.map (sweepFrame now) } }

def sweepFlue (now : Nat) (fl : FlueState) : FlueState :=
  { fl with frames := fl.frames.map fun r => { r with sheet := sweepSheet now r.sheet } }

/-- Flag the stamps of the pictures that a decode reel holds. -/
def sweepReel (now : Nat) (st : ReelState) : ReelState :=
  let many (l : List (Nat × Frame)) : List (Nat × Frame) := l.map fun x => (x.1, sweepFrame now x.2)
  { st with
    dpb := many st.dpb, last := st.last.map (sweepFrame now)
    context := { st.context with refs := many st.context.refs }
    saved := { st.saved with refs := many st.saved.refs } }

/-- Layers of the sheet that depend on a stamp that the sweep has just flagged (R155). -/
def sweptLayers (s : State) (sh : Sheet) (now : Nat) : List Nat :=
  sh.layers.filterMap fun l =>
    let fr := match l.frame with
      | none => false
      | some x => (!x.ancient && sweepFlags x.stamp now)
          || (match x.cstamp with | none => false | some c => !c.2 && sweepFlags c.1 now)
    let pr := (probeStamps s sh l.num).any fun p => !p.2 && sweepFlags p.1 now
    if fr || pr then some l.num else none

/-- Flag the tile marks of an import slot (R155, R429). -/
def sweepImport (now : Nat) (x : ImportState) : ImportState :=
  let flags (stamp fl : Nat) : Nat := if sweepFlags stamp now && !bitOf fl 2 then fl + 4 else fl
  { x with
    marks := x.marks.map fun (m : Nat × Nat) => (m.1, flags m.1 m.2)
    filling := x.filling.map fun y => { y with
      ancient := y.ancient || sweepFlags y.stamp now
      marks := y.marks.map fun (m : Nat × Nat × Nat × Nat) => (m.1, m.2.1, m.2.2.1, flags m.2.2.1 m.2.2.2) } }

/-- The sweep: every stored stamp of a bound frame, of a source's newest frame, of a reel's pictures, of an import slot and of a
probe (R155). The
events are answered with the state, for their place in the edge's order. -/
def sweep (now : Nat) (s : State) : List (Nat × Nat) × State :=
  let evs := match s.tick.current with | none => [] | some sh => (sweptLayers s sh now).map fun l => (0x0606, l)
  let probes := s.comp.probeSigned.filterMap fun p => if p.2.isSome then some p.1 else none
  let s := probes.foldl (fun s p =>
    if sweepFlags (s.rd (R.SNT_PROBE_CHANGE_CHANGE_WUS p)) now then s.wr (R.SNT_PROBE_SIZE_ANCIENT p) 1 else s) s
  let t := s.tick
  let c := s.comp
  let s := { s with
    codec := { s.codec with reels := s.codec.reels.map fun (p : Nat × ReelState) => (p.1, sweepReel now p.2) }
    crl := { s.crl with imports := s.crl.imports.map fun (p : Nat × ImportState) => (p.1, sweepImport now p.2) }
    tick := { t with building := t.building.map (sweepSheet now), current := t.current.map (sweepSheet now) }
    comp := { c with
      sources := c.sources.map fun (p : Nat × SourceState) => (p.1, { p.2 with newest := p.2.newest.map (sweepFrame now), prior := p.2.prior.map (sweepFrame now) })
      layers := c.layers.map fun (p : Nat × LayerState) => (p.1, { p.2 with host := p.2.host.map (sweepFrame now) })
      flues := c.flues.map fun (p : Nat × FlueState) => (p.1, sweepFlue now p.2) } }
  (evs, s.wr R.FRS_SWEEP_LAST_WUS now)

/-! ### The layer windows and events of an edge (R174, R175) -/

/-- The layer windows show the reset values again for every layer (R174). -/
def clearLayerWindows (s : State) : State :=
  { s with regs := s.regs.filter fun p => decide (p.1 < 0x91000) || decide (0x99000 ≤ p.1) }

/-- Write the windows of one layer, and answer its events, from the tiles of every flue evaluated at the edge. -/
def layerWindow (tiles : List TileEval) (fromSheet : Sheet) (s : State) (la : LayerAge) : State :=
  let l := la.num
  let unt := tiles.any fun e => e.untrusts.contains l
  let con := (List.range 24).any fun f => sheetShows fromSheet f l
  let s := (s.wr (R.FRS_LAYER_AGE_AGE l) la.age).wr (R.FRS_LAYER_STAT_AGE_OVER l) (b2n (isOver la))
  let s := (s.wr (R.FRS_LAYER_STAT_UNTRUSTED l) (b2n unt)).wr (R.FRS_LAYER_STAT_PROBE_SET l) (b2n la.probeSet)
  let s := (s.wr (R.FRS_LAYER_STAT_CONCEALED l) (b2n con)).wr (R.FRS_LAYER_STAT_ANCIENT l) (b2n la.ancient)
  (s.wr (R.FRS_LAYER_STAT_AHEAD l) (b2n la.effAhead)).wr (R.FRS_LAYER_STAT_UNBOUND l) (b2n (!la.bound))
where
  /-- Some tile of flue `f` is concealed through the layer. -/
  sheetShows (sh : Sheet) (f l : Nat) : Bool :=
    sh.rd (R.LYR_CTRL_FLUE l) == f
      && (flueTiles sh f).any fun t => (visibleList sh f t).contains l && layerConcealed sh f t l

/-- The FRS events of one layer at an edge, and what it keeps for the next (R175). -/
def layerFreshEvents (tiles : List TileEval) (la : LayerAge) (s : State) : List (Nat × Nat) × State :=
  let l := la.num
  let o := s.layer l
  let past := tiles.any fun e => e.row == 5 && e.overs.any (·.1 == l)
  let unt := tiles.any fun e => e.row == 4 && e.untrusts.contains l
  let evs := (if past && !o.overPrev then [(0x0601, l)] else []) ++ (if !past && o.overPrev then [(0x0602, l)] else [])
    ++ (if unt && !o.untrustPrev then [(0x0603, l)] else []) ++ (if la.ahead && !o.aheadPrev then [(0x0605, l)] else [])
  (evs, s.setLayer l { o with overPrev := past, untrustPrev := unt, aheadPrev := la.ahead })

/-- The events of an edge's block arise: their stamp is TICK_EDGE_WUS (R530). -/
def raiseEdges (evs : List (Nat × Nat)) (s : State) : State := evs.foldl (fun s e => s.raiseEdge e.1 e.2) s

end Sys2Proof.Machine
end

