-- ==== Sys2Proof/Machine/Bands.lean ====
section
/-!
DEFINITION. Frames and bands of the flues (R20, R21, R23, R40, R41, R118 to R123, R146 to R150, R165, R169, R195, R558): the
order in which units take their items, composition with overdraw, the revision of tiles, the held copy and its ring.
-/
namespace Sys2Proof.Machine

/-! ### Placement (R39) -/

def clusterOf (u : Nat) : Nat := u / 4
def regionOf (u : Nat) : Nat := u / 8
def dieOf (u : Nat) : Nat := u / 16

/-- The power domain of a region (R39). -/
def regionDomain (r : Nat) : Nat := [7, 8, 12, 13].getD r 7

/-! ### Frames of a flue -/

/-- Change one frame of flue `f`. -/
def modFrame (f serial : Nat) (g : FrameRun → FrameRun) (s : State) : State :=
  let fl := s.flue f
  s.setFlue f { fl with frames := fl.frames.map fun r => if r.serial = serial then g r else r }

/-- The frame of flue `f` with a serial number. -/
def frameOf (s : State) (f serial : Nat) : Option FrameRun := (s.flue f).frames.find? (·.serial == serial)

/-- Change band `k` of a frame. -/
def modBand (f serial k : Nat) (g : BandRun → BandRun) (s : State) : State :=
  modFrame f serial (fun r => { r with bands := r.bands.zipIdx.map fun p => if p.2 = k then g p.1 else p.1 }) s

/-- Band `k` of a frame. -/
def FrameRun.band (r : FrameRun) (k : Nat) : BandRun := r.bands.getD k {}

/-- The deadline of band `k` of a frame of flue `f` (R120). -/
def FrameRun.deadline (r : FrameRun) (f k : Nat) : Nat := bandDeadline r.sheet f r.startNs r.periodNs k

/-- When the scan-out of band `k` ends (R122). -/
def FrameRun.bandEnd (r : FrameRun) (f k : Nat) : Nat :=
  if k + 1 < r.bands.length then r.deadline f (k + 1) else r.endNs

/-- A frame sends nothing: it is DARK since its edge, or the Warden or a package fault has stopped its flue since (R162 row 1). -/
def frameDark (s : State) (f : Nat) (r : FrameRun) : Bool := r.dark || (s.flue f).dark || s.rdb R.WDN_STATUS_PKG_FAULT

/-- The line of flue pixel row `y` has entered the encoder. -/
def lineSent (s : State) (r : FrameRun) (f y : Nat) : Bool :=
  decide (r.startNs + lineNs r.sheet f r.periodNs (vTotal r.sheet f - vActive r.sheet f + y) ≤ s.monoNs)

/-- Drop the frames that have been scanned out; the rectangles that failed in the last of them are kept (R216). -/
def pruneFrames (f : Nat) (s : State) : State :=
  let fl := s.flue f
  let gone := fl.frames.filter fun r => decide (r.endNs ≤ s.monoNs)
  s.setFlue f { fl with
    frames := fl.frames.filter fun r => decide (s.monoNs < r.endNs)
    failPrev := match gone.getLast? with | none => fl.failPrev | some r => r.fails.map Prod.fst }

/-- Half k mod 2 of the band buffer is free for band `k` of frame `r` (R122): every band that used it before has been scanned
out. The scan-out of an earlier frame is over when `r` starts. -/
def halfFree (s : State) (f : Nat) (r : FrameRun) (k : Nat) : Bool :=
  (s.flue f).frames.all fun q =>
    decide (r.startNs < q.startNs) || decide (q.startNs < r.startNs ∧ r.startNs ≤ s.monoNs) || (List.range q.bands.length).all fun j =>
      j % 2 != k % 2 || decide (q.serial = r.serial ∧ k ≤ j) || decide (q.bandEnd f j ≤ s.monoNs)

/-! ### Items of a unit (R40, R195) -/

/-- The fields of CRT_RECT_MEMBERS by member. -/
def memberFld (n m : Nat) : Fld :=
  [R.CRT_RECT_MEMBERS_MEMBER_A n, R.CRT_RECT_MEMBERS_MEMBER_B n, R.CRT_RECT_MEMBERS_MEMBER_C n].getD m (R.CRT_RECT_MEMBERS_MEMBER_A n)

/-- The unit that holds member `m` of rectangle `n`, 0xFF for none (R194). -/
def memberUnit (s : State) (n m : Nat) : Nat := s.rd (memberFld n m)

/-- The unit that holds member `m` of rectangle `n` in the frames of a sheet (R83, R194). -/
def sheetMember (sh : Sheet) (n m : Nat) : Nat := sh.rd (memberFld n m)

/-- A sheet whose member (n, m) is unit `old` gives it to unit `u`. -/
def moveSheetMember (n m old u : Nat) (sh : Sheet) : Sheet :=
  if sheetMember sh n m = old then
    let f := memberFld n m
    { sh with regs := sh.regs.set resetWord f.addr (BitVec.ofNat 32 (putBits (sh.word f.addr) f.hi f.lo u)) }
  else sh

/-- Give member (n, m) to unit `u`, in the assignment and in the sheets (R55, R241). -/
def setMember (n m u : Nat) (s : State) : State :=
  let mv := moveSheetMember n m (memberUnit s n m) u
  let t := s.tick
  let c := s.comp
  let s := { s with
    tick := { t with building := t.building.map mv, current := t.current.map mv }
    comp := { c with flues := c.flues.map fun (p : Nat × FlueState) =>
      (p.1, { p.2 with frames := p.2.frames.map fun (r : FrameRun) => ({ r with sheet := mv r.sheet } : FrameRun) }) } }
  s.wr (memberFld n m) u

/-- An item that waits, with the key of its order: deadline (the vote cut-off for a member item), member items first, then
ascending rectangle. -/
structure Item where
  work : WorkItem
  deadline : Nat
  order : Nat
  deriving DecidableEq, Repr

/-- The waiting items of unit `u` in one band of a frame; a dark frame gives it none. -/
def bandItems (s : State) (u f : Nat) (r : FrameRun) (k : Nat) : List Item :=
  let b := r.band k
  let d := r.deadline f k
  if frameDark s f r then [] else
  (b.items.filterMap fun i =>
      if i.phase = .waiting ∧ sheetMember r.sheet i.rect i.member = u ∧ s.monoNs < d - 5000
      then some { work := { flue := f, serial := r.serial, band := k, rect := some i.rect }, deadline := d - 5000, order := i.rect }
      else none)
    ++ (if b.phase = .waiting ∧ b.unit = u ∧ s.monoNs < d
        then [{ work := { flue := f, serial := r.serial, band := k, rect := none }, deadline := d, order := 64 }] else [])

/-- Every waiting item of unit `u`. -/
def unitItems (s : State) (u : Nat) : List Item :=
  (List.range 24).flatMap fun f => (s.flue f).frames.flatMap fun r =>
    (List.range r.bands.length).flatMap fun k => bandItems s u f r k

/-- The first item in the order of R40 and R195. -/
def firstItem (l : List Item) : Option Item :=
  l.foldl (fun (b : Option Item) i =>
    match b with
    | none => some i
    | some x => if i.deadline < x.deadline ∨ (i.deadline = x.deadline ∧ i.order < x.order) then some i else b) none

/-- A unit that may take items: its region powered, in service, its cue not stopped, its canary not failed (R43, R48, R57). -/
def unitWorks (s : State) (u : Nat) : Bool :=
  let x := s.unit u
  s.powered (regionDomain (regionOf u)) && !x.withdrawn && !x.stopped && !x.rejoining && !x.canaryFailed && x.work.isNone

/-- Set the phase of a member item. -/
def setItemPhase (n m : Nat) (p : BandPhase) (b : BandRun) : BandRun :=
  { b with items := b.items.map fun i => if i.rect = n ∧ i.member = m then { i with phase := p } else i }

/-- The member that unit `u` holds of rectangle `n`. -/
def memberOf (sh : Sheet) (n u : Nat) : Option Nat := (List.range 3).find? fun m => sheetMember sh n m == u

/-- BAND_START: unit `u` starts the first item of its cue, once the sheet is published and its band-buffer half is free (R40,
R123). -/
def bandStart (u : Nat) (s : State) : State :=
  if unitWorks s u then
    match firstItem (unitItems s u) with
    | none => s
    | some i =>
      match frameOf s i.work.flue i.work.serial with
      | none => s
      | some r =>
        if halfFree s i.work.flue r i.work.band then
          let s := s.setUnit u { s.unit u with work := some i.work }
          match i.work.rect with
          | none => modBand i.work.flue i.work.serial i.work.band (fun b => { b with phase := .composing }) s
          | some n =>
            modBand i.work.flue i.work.serial i.work.band (setItemPhase n ((memberOf r.sheet n u).getD 0) .composing) s
        else s
  else s

/-! ### Composition with overdraw (R140, R169, R170) -/

/-- Where badge (layer, tile) of flue `f` is anchored (R170). -/
def badgeAnchor (sh : Sheet) (f : Nat) (b : Nat × Nat × Nat) : Nat × Nat :=
  let tb := tileBox sh f b.2.1
  let c := clipped sh b.1
  ((max tb.1 c.1).toNat, (max tb.2.1 c.2.1).toNat)

/-- The badge drawn last over flue pixel (x, y), if any. -/
def badgeAt (sh : Sheet) (f : Nat) (badges : List (Nat × Nat × Nat)) (x y : Nat) : Option Nat :=
  badges.foldl (fun acc b =>
    let (ax, ay) := badgeAnchor sh f b
    if ax ≤ x ∧ x < ax + 124 ∧ ay ≤ y ∧ y < ay + 20 then some (badgePixel sh f b.2.2 (x - ax) (y - ay)) else acc) none

/-- The pixels of a tile with the overdraw of its evaluation: ember through rows 3 to 5, then the badges. -/
def overdraw (r : FrameRun) (f t : Nat) (codes : List Nat) : List Nat :=
  let e := r.tiles.getD t {}
  if e.state = 6 ∧ e.row ≠ 2 then
    (tilePixels r.sheet f t).map fun (x, y) => (badgeAt r.sheet f r.badges x y).getD (emberPixel r.sheet f x y)
  else codes

/-! ### The tile table in the course of a tick -/

/-- The evaluation that a frame's tile has at this moment, with a context in place of the edge's, by the ages of the frame's own
edge (R153, R165). -/
def reviseTile (f serial t : Nat) (ctx : TileCtx) (s : State) : State :=
  match frameOf s f serial with
  | none => s
  | some r =>
    let e := evalTile r.sheet r.ages r.now r.now f t ctx
    let badge := r.badges.any fun b => b.2.1 == t
    let s := modFrame f serial (fun r => { r with tiles := r.tiles.zipIdx.map fun p => if p.2 = t then e else p.1 }) s
    writeEntry (tileIndex r.sheet f t) r.tick e badge none s

/-- The signature of a tile goes into its entry (R172), unless the frame is dark. -/
def writeSig (f serial t sig : Nat) (s : State) : State :=
  match frameOf s f serial with
  | none => s
  | some r =>
    if frameDark s f r then s
    else (modFrame f serial (fun r => { r with sigs := r.sigs.set (fun _ => 0) t sig }) s).wr
      (R.TILE_WORD (tileIndex r.sheet f t) 1) sig

/-- The rectangle of a critical tile is lost, or forced to ember by a handler's action (R211, R244). -/
def rectLost (s : State) (r : FrameRun) (f t : Nat) : Bool :=
  match criticalRect r.sheet f t with
  | none => false
  | some n => (s.rect n).lost || (s.rect n).forced.isSome || r.lost.contains n

/-- The voter has decided FAIL on a tile. -/
def voteFailed (r : FrameRun) (t : Nat) : Bool := (r.votes.get (fun _ => {}) t).decision == some none

/-- The flue is dark in a frame (R162 row 1). -/
def darkFlue (s : State) (sh : Sheet) (f : Nat) : Bool :=
  !flueOn sh f || bitOf sh.rested f || (s.flue f).dark || s.rdb R.WDN_STATUS_PKG_FAULT

/-- A band whose voter pixels are discarded because it is scanned from the held copy (R203). -/
def bandHeld (b : BandRun) : Bool := b.phase == .held || b.phase == .faultHeld

/-- The honoured direct layer fills tile `t`, so that no unit composes it and a held band does not hold it, where the flue has a
held copy of the band (R144, R150). DEDUCED (log 97). -/
def directFills (s : State) (r : FrameRun) (f t : Nat) : Bool :=
  directCovers r.sheet f t && !r.underTiles.contains t && (newestWithBand s f (bandOf r.sheet f t) r.buffer).isSome

/-- The context of a held tile (R150, R162, R166, R203). -/
def heldCtx (s : State) (r : FrameRun) (f t : Nat) : TileCtx :=
  let base : TileCtx := { dark := frameDark s f r, voteFail := rectLost s r f t, resting := bitOf r.sheet.announce f }
  match newestWithBand s f (bandOf r.sheet f t) r.buffer with
  | none => { base with noCopy := true }
  | some b => { base with held := some (readHeld s r.sheet f b t) }

/-- The context of a tile now, for a revision of its entry (R165); a FAIL counts only while its band is not held (R203). -/
def ctxNow (s : State) (r : FrameRun) (f t : Nat) : TileCtx :=
  if r.underTiles.contains t || (bandHeld (r.band (bandOf r.sheet f t)) && !directFills s r f t) then heldCtx s r f t
  else
    { dark := frameDark s f r, voteFail := rectLost s r f t || voteFailed r t, resting := bitOf r.sheet.announce f }

/-- The tiles of a band are revised to held, from the held words and the signatures of the newest buffer that has the band, or
DARK when none has (R150, R165, R166, R172). -/
def reviseHeld (f serial k : Nat) (s : State) : State :=
  match frameOf s f serial with
  | none => s
  | some r =>
    let src := newestWithBand s f k r.buffer
    let s := ((bandTiles r.sheet f k).filter fun t => !directFills s r f t).foldl (fun s t =>
      let s := reviseTile f serial t (heldCtx s r f t) s
      match src with
      | none => s
      | some b => writeSig f serial t ((s.flue f).bufSigs.get (fun _ => 0) (b * 65536 + t)) s) s
    countStates r.sheet f s

/-! ### The held copy -/

/-- Buffers that R148 holds back: bound by a sheet in use or being built, read by an encode reel, or the newest complete. -/
def bufferTaken (s : State) (sh : Sheet) (f b : Nat) : Bool :=
  let a := heldBuf sh f b
  s.rd (R.CMP_FLUE_HELD_IDX_NEWEST f) == b
    || ((sheetsHeld s).any fun h => h.layers.any fun l => (l.frame.bind (·.place)).any (·.1 == a))
    || (s.codec.encs.any fun p => s.rd (R.ENC_SRC_FLUE p.1) == f && p.2.ready.any (fun e => e.buffer == b && !e.dark))
    || (s.codec.engines.any fun p => p.2.busy && s.rd (R.ENC_SRC_FLUE p.2.reel) == f
        && p.2.enc.any (fun e => e.buffer == b && !e.dark))

/-- The buffer a frame starts in: an empty one of lowest index first, else the one written longest ago (R148, R558). -/
def chooseBuffer (s : State) (sh : Sheet) (f : Nat) : Option Nat :=
  let fl := s.flue f
  let all := List.range (sh.rd (R.CMP_FLUE_HELD_IDX_COUNT f))
  ((all.filter fun b => !fl.ring.contains b) ++ fl.ring.reverse).find? fun b => !bufferTaken s sh f b

/-- Give a frame its held-copy buffer, once. -/
def ensureBuffer (f serial : Nat) (s : State) : State :=
  match frameOf s f serial with
  | none => s
  | some r =>
    if r.buffer.isSome || r.dark then s
    else
      match chooseBuffer s r.sheet f with
      | none => s
      | some b =>
        let fl := s.flue f
        let s := s.setFlue f { fl with ring := b :: fl.ring.erase b, bufBands := fl.bufBands.set (fun _ => 0) b 0 }
        (modFrame f serial (fun r => { r with buffer := some b }) s).wr (R.CMP_FLUE_HELD_IDX_WRITING f) b

/-- Store the pixels of a tile in a held-copy buffer (R147). -/
def storeTile (sh : Sheet) (f b t : Nat) (px : List Nat) (s : State) : State :=
  let x := t % max 1 (tileCols sh f) * 32
  let y := t / max 1 (tileCols sh f) * 32
  let w := min 32 (hActive sh f - x)
  (List.range (min 32 (vActive sh f - y))).foldl (fun s i =>
    s.memWrite (heldBuf sh f b + ((y + i) * hActive sh f + x) * heldPixelBytes sh f)
      (((px.drop (i * w)).take w).flatMap (heldPixel (flueDepth sh f)))) s

/-- The held words of a tile as its entry describes it (R166). -/
def heldOf (e : TileEval) : HeldWord :=
  { stamp := e.stamp, state := e.state, ancient := e.ancient, dc := e.dc, layer := e.layer }

/-- A band has every tile: its unit has finished and every critical tile is decided (R203). -/
def bandReady (r : FrameRun) (f k : Nat) : Bool :=
  ((r.band k).phase == .composed || (r.band k).phase == .scanning)
    && (bandTiles r.sheet f k).all fun t =>
      (criticalRect r.sheet f t).isNone || (r.votes.get (fun _ => {}) t).decision.isSome

/-- Band `k` of frame `r` is complete in a buffer, with the signatures of its tiles. -/
def markBand (r : FrameRun) (f b k : Nat) (s : State) : State :=
  let fl := s.flue f
  let m := fl.bufBands.get (fun _ => 0) b
  s.setFlue f { fl with
    bufBands := fl.bufBands.set (fun _ => 0) b (if bitOf m k then m else m + 2 ^ k)
    bufSigs := (bandTiles r.sheet f k).foldl (fun x t =>
      x.set (fun _ => 0) (b * 65536 + t) (r.sigs.get (fun _ => 0) t)) fl.bufSigs }

/-- A band is final: its pixels and held words go into the held copy (R149, R166). -/
def writeBand (f serial k : Nat) (s : State) : State :=
  let s := ensureBuffer f serial s
  match frameOf s f serial with
  | none => s
  | some r =>
    match r.buffer with
    | none => modBand f serial k (fun b => { b with written := true }) s
    | some b =>
      let s := (bandTiles r.sheet f k).foldl (fun s t =>
        writeHeld r.sheet f b t (heldOf (r.tiles.getD t {}))
          (storeTile r.sheet f b t ((r.band k).tiles.get (fun _ => []) t) s)) s
      modBand f serial k (fun b => { b with written := true }) (markBand r f b k s)

/-- The output codes of the pixel stored at address `a` in a held copy's layout, at depth `d` (R147); black in a poisoned line
(R331). -/
def storedCodes (s : State) (d a : Nat) : Nat :=
  if isPoisoned (s.line (a / 64)) then 0
  else if d = 12 then
    packCodes (ofLeBytes (s.memRead (a + 4) 2) / 16) (ofLeBytes (s.memRead (a + 2) 2) / 16) (ofLeBytes (s.memRead a 2) / 16)
  else
    let w := ofLeBytes (s.memRead a 4)
    let k := if d = 8 then 4 else 1
    packCodes (bits w 29 20 / k) (bits w 19 10 / k) (bits w 9 0 / k)

/-- The output codes of a held pixel: the codes that a held copy stores, at the flue's depth. -/
def heldCodes (s : State) (sh : Sheet) (f b x y : Nat) : Nat :=
  storedCodes s (flueDepth sh f) (heldBuf sh f b + (y * hActive sh f + x) * heldPixelBytes sh f)

/-- The direct unit's cluster, or the band unit's, signs non-critical tiles unless SOFT signatures are deferred (R44, R263). -/
def signTile (sh : Sheet) (codes : List Nat) : Nat := if sh.deferSig then 0 else tileSig codes

/-! ### Direct pixels (R142, R144, R146) -/

/-- The output codes of a pixel that direct layer `l` brings (R142): the components of the sink's present frame, which no command
carries and which are free from `n` on (log 14), expanded to 12 bits, through the layer's matrix and the flue's LUT. -/
def directPixel (sh : Sheet) (f l n : Nat) : Nat :=
  let fmt := match boundFrame sh l with | some fr => fr.fmt | none => 2
  let raw (i : Nat) : Int :=
    let d := if fmtSubX fmt && i != 0 then 12 else fmtDepth fmt
    (expand12 d ((Config.freeValue (n + i)).toNat % 2 ^ d) : Nat)
  let inp := [raw 0, raw 1, raw 2]
  let code (i : Nat) := outCode (flueDepth sh f) (lutOut sh f (matrixOut sh l i inp).toNat)
  packCodes (code 0) (code 1) (code 2)

/-- The pixels of a tile with the direct pixels inside the honoured layer's rectangle, and the others as given (R144). -/
def mergeDirect (r : FrameRun) (f t : Nat) (codes : List Nat) (s : State) : List Nat × State :=
  match directLayer r.sheet f with
  | none => (codes, s)
  | some l =>
    if directTouches r.sheet f t && !r.underTiles.contains t then
      let px := (tilePixels r.sheet f t).zip codes
      (px.zipIdx.map fun (p, i) =>
        if inDirect r.sheet f p.1.1 p.1.2 then directPixel r.sheet f l (s.freeCount + 3 * i) else p.2,
        { s with freeCount := s.freeCount + 3 * px.length })
    else (codes, s)

/-- The pixels of a tile that the direct path has underrun: from the first line not yet sent on, direct pixels are the held
copy's, and rows 3 to 5 draw ember over every pixel but held ones that are ember already (R146, R150, R169). -/
def underDraw (s : State) (r : FrameRun) (f t : Nat) (old : List Nat) : List Nat :=
  let e := r.tiles.getD t {}
  let src := newestWithBand s f (bandOf r.sheet f t) r.buffer
  let keep := e.row != 3 && src.any fun b => (readHeld s r.sheet f b t).state == 6
  ((tilePixels r.sheet f t).zip old).map fun (p, o) =>
    let direct := inDirect r.sheet f p.1 p.2
    if lineSent s r f p.2 then o
    else if e.state = 6 ∧ (keep && direct) = false then emberPixel r.sheet f p.1 p.2
    else if direct then (match src with | some b => heldCodes s r.sheet f b p.1 p.2 | none => 0)
    else o

/-- What a held band sends in one tile: the held pixels, hatched by the output stage where rows 4 or 5 draw ember and the held
content was not ember already (R169), or where the vote cannot be won or the flue announces its rest (rows 2 and 3). -/
def heldTilePixels (s : State) (r : FrameRun) (f b t : Nat) : List Nat :=
  let e := r.tiles.getD t {}
  let keep := (readHeld s r.sheet f b t).state == 6
  (tilePixels r.sheet f t).map fun (x, y) =>
    if e.state = 6 ∧ (e.row = 2 ∨ e.row = 3 ∨ keep = false) then emberPixel r.sheet f x y
    else heldCodes s r.sheet f b x y

/-- What a held band sends in tile `t` and the held words it keeps: a tile that the direct layer fills is the sink's, with its
own evaluation; the others are the source buffer's, ANCIENT set where the sweep's range holds, with the direct pixels inside the
layer's rectangle (R144, R149, R150, R166). -/
def heldTile (r : FrameRun) (f src t : Nat) (s : State) : List Nat × HeldWord × State :=
  let e := r.tiles.getD t {}
  if directFills s r f t then
    let (codes, s) := mergeDirect r f t ((tilePixels r.sheet f t).map fun _ => 0) s
    (overdraw r f t codes, heldOf e, writeSig f r.serial t (signTile r.sheet codes) s)
  else
    let h := readHeld s r.sheet f src t
    let px := heldTilePixels s r f src t
    let (px, s) := if e.state = 6 then (px, s) else mergeDirect r f t px s
    (px, { h with ancient := h.ancient || sweepFlags h.stamp r.now }, s)

/-- A band is scanned from the held copy and copied into the frame's own buffer, held words included (R149, R150, R166). -/
def copyHeldBand (f serial k : Nat) (s : State) : State :=
  let s := ensureBuffer f serial s
  match frameOf s f serial with
  | none => s
  | some r =>
    let s := modBand f serial k (fun b => { b with phase := .held, written := true }) s
    match newestWithBand s f k r.buffer, r.buffer with
    | some src, some dst =>
      let s := (bandTiles r.sheet f k).foldl (fun s t =>
        let (px, h, s) := heldTile r f src t s
        writeHeld r.sheet f dst t h (storeTile r.sheet f dst t px s)) s
      match frameOf s f serial with
      | none => s
      | some r => markBand r f dst k s
    | _, _ => s

/-- HELD_EMBER for a held band whose tiles row 5 draws as ember and that were not so at the previous edge (R175): the flue keeps
by band one more than the tick of the last frame in which this held. -/
def heldEmber (f serial k : Nat) (s : State) : State :=
  match frameOf s f serial with
  | none => s
  | some r =>
    let fl := s.flue f
    let now := (bandTiles r.sheet f k).any fun t =>
      let e := r.tiles.getD t {}
      e.row == 5 && bitOf e.causes 6
    let was := (fl.heldEmber.find? (·.1 == k)).any fun p => p.2 == r.tick + 1 || p.2 % 2 ^ 32 == r.tick
    if now then
      let s := s.setFlue f { fl with heldEmber := fl.heldEmber.set (fun _ => 0) k (r.tick + 1) }
      if was then s else s.raise 0x0604 (f * 256 + k)
    else s

/-! ### A frame completes as a source (R91, R99, R304) -/

/-- The oldest stamp under a list of tiles among held words that are neither DARK nor DC15 (R99), by age at `now`. -/
def oldestStamp (now : Nat) (hs : List HeldWord) : Option (Nat × Bool) :=
  (hs.filter fun h => h.state != 0 && h.dc != 15).foldl (fun (b : Option (Nat × Bool)) h =>
    match b with
    | none => some (h.stamp, h.ancient)
    | some x => if ageOf x.1 x.2 now < ageOf h.stamp h.ancient now then some (h.stamp, h.ancient) else b) none

/-- The 16 × 16 blocks of tile `t` of a flue, those that its active area has. -/
def tileBlocks (sh : Sheet) (f t : Nat) : List Nat :=
  let bw := (hActive sh f + 15) / 16
  let bh := (vActive sh f + 15) / 16
  let c := t % max 1 (tileCols sh f)
  let r := t / max 1 (tileCols sh f)
  ([(2 * r, 2 * c), (2 * r, 2 * c + 1), (2 * r + 1, 2 * c), (2 * r + 1, 2 * c + 1)].filter fun p =>
    decide (p.1 < bh) && decide (p.2 < bw)).map fun p => p.1 * bw + p.2

/-- The flue frame that a completed frame run offers as a source; its marks are the tiles that carry UNTRUSTED or VOTE_FAIL
(R161), its stamp set at the edge it is complete at (R91, R99). -/
def flueFrame (s : State) (r : FrameRun) (f b : Nat) : Frame where
  serial := r.serial
  stamp := s.wus
  w := hActive r.sheet f
  h := vActive r.sheet f
  fmt := if flueDepth r.sheet f = 12 then 2 else 1
  place := some (heldBuf r.sheet f b, hActive r.sheet f * heldPixelBytes r.sheet f)
  untrusted := r.tiles.zipIdx.flatMap fun (e, t) =>
    if bitOf e.causes 10 || bitOf e.causes 9 then tileBlocks r.sheet f t else []
  concealed := r.tiles.zipIdx.flatMap fun (e, t) => if bitOf e.causes 8 then tileBlocks r.sheet f t else []

/-- Tiles of flue `f` that meet a rectangle. -/
def tilesUnder (sh : Sheet) (f x y w h : Nat) : List Nat :=
  (flueTiles sh f).filter fun t => boxesMeet (tileBox sh f t) (x, y, (x + w : Nat), (y + h : Nat))

/-- Every band of the frame is in the held copy. -/
def frameWritten (r : FrameRun) : Bool := !r.bands.isEmpty && r.bands.all (·.written)

/-- The dominant layer of the 16 × 16 block at (x, y) of flue `f`: the front-most entry of its tile's visible list with OPAQUE
that covers the block, with its geometry (R310). -/
def dominantLayer (sh : Sheet) (f x y : Nat) : List Int :=
  let t := y / 32 * tileCols sh f + x / 32
  match (visibleList sh f t).find? fun l => sh.rd (R.LYR_CTRL_OPAQUE l) == 1
      && boxCovers (clipped sh l) (x, y, (x + 16 : Nat), (y + 16 : Nat)) with
  | none => []
  | some l =>
    let g := layerGeo sh l
    [(l : Int), g.x, g.y, (g.x0 : Int), (g.y0 : Int), (g.cw : Int), (g.dw : Int), (g.ch : Int), (g.dh : Int)]

/-- The due frame that a flue frame completed at `at_` is for encode reel `e` (R304, R306, R318). -/
def encFrame (s : State) (r : FrameRun) (f e k at_ : Nat) : EncFrame :=
  let ts := tilesUnder r.sheet f (s.rd (R.ENC_RECT_POS_X0 e)) (s.rd (R.ENC_RECT_POS_Y0 e))
    (s.rd (R.ENC_RECT_SIZE_WIDTH_M1 e) + 1) (s.rd (R.ENC_RECT_SIZE_HEIGHT_M1 e) + 1)
  let b := r.buffer.getD 0
  let hs := ts.map fun t => readHeld s r.sheet f b t
  let (x0, y0) := (s.rd (R.ENC_RECT_POS_X0 e), s.rd (R.ENC_RECT_POS_Y0 e))
  let bw := (s.rd (R.ENC_RECT_SIZE_WIDTH_M1 e) + 16) / 16
  let bh := (s.rd (R.ENC_RECT_SIZE_HEIGHT_M1 e) + 16) / 16
  let cols := max 1 (tileCols r.sheet f)
  let st (n : Nat) := (ts.filter fun t => entryState s (tileIndex r.sheet f t) == n).length
  { k, serial := r.serial, buffer := b, startNs := ((r.startNs : Int) + s.time.offset).toNat, edgeWus := r.now
    oldest := if r.dark then r.now else ((oldestStamp r.now hs).map Prod.fst).getD r.now
    ember := st 6, held := st 2, dark := frameDark s f r, readyNs := at_
    crit := (ts.filter fun t => (criticalRect r.sheet f t).isSome).map fun t => (t % cols, t / cols)
    dominant := (List.range (bw * bh)).map fun i => dominantLayer r.sheet f (x0 + i % bw * 16) (y0 + i / bw * 16) }

/-- SOFT encoding is deferred in the sheet in use (R262, R263, R305). -/
def encDeferred (s : State) : Bool := s.tick.current.any (·.deferEnc)

/-- A frame of flue `f` is ready, since `at_`, for the encode reels that wait for it (R304, R305). -/
def encReady (at_ f : Nat) (r : FrameRun) (s : State) : State :=
  (List.range 128).foldl (fun s e =>
    let st := s.enc e
    match st.due.find? (·.1 == r.serial) with
    | none => s
    | some d =>
      if s.rd (R.ENC_SRC_FLUE e) = f then
        let st := { st with due := st.due.filter (·.1 != r.serial) }
        if encDeferred s then
          (s.setEnc e { st with gap := true }).wr R.DMP_SOFT_SKIP_ENC_FRAMES (satTo 16 (s.rd R.DMP_SOFT_SKIP_ENC_FRAMES + 1))
        else
          let s' := s.setEnc e { st with ready := some (encFrame s r f e d.2 at_) }
          if st.ready.isSome then
            (s'.wr (R.ENC_FRAMES_SKIPPED e) (satTo 16 (s.rd (R.ENC_FRAMES_SKIPPED e) + 1))).raiseOnce 0x0E01 e
          else s'
      else s) s

/-- When the last of the held bands of a frame is in the held copy: at the end of its scan (R149). -/
def heldUntil (r : FrameRun) (f : Nat) : Nat :=
  (List.range r.bands.length).foldl (fun m k => if (r.band k).phase = .held then max m (r.bandEnd f k) else m) 0

/-- The last band of a frame is in the held copy, and no held one is still being copied. -/
def frameDone (s : State) (r : FrameRun) (f : Nat) : Bool :=
  frameWritten r && !r.complete && decide (heldUntil r f ≤ s.monoNs)

/-- The frame has completed at `at_`, as a source of layers where it was sent (R91), and for the encode reels. -/
def completeAt (at_ f serial : Nat) (s : State) : State :=
  match frameOf s f serial with
  | none => s
  | some r =>
    let s := modFrame f serial (fun r => { r with complete := true }) s
    let s := match (if frameDark s f r then none else r.buffer) with
      | none => s
      | some b => ((completeSourceAt at_ (sourceKey 5 f) (flueFrame s r f b) s).wr
          (R.CMP_FLUE_HELD_IDX_NEWEST f) b).wr (R.CMP_FLUE_HELD_IDX_WRITING f) 0xFF
    encReady at_ f r s

/-- A frame completes now, if its last band has just got into the held copy. -/
def completeFrame (f serial : Nat) (s : State) : State :=
  match frameOf s f serial with
  | none => s
  | some r => if frameDone s r f then completeAt s.monoNs f serial s else s

/-- The frames of flue `f` whose last band was a held one have completed when its scan ended (R91, R149). -/
def settleFrames (f : Nat) (s : State) : State :=
  (s.flue f).frames.foldl (fun s r => if frameDone s r f then completeAt (heldUntil r f) f r.serial s else s) s

/-! ### Bands -/

/-- A unit leaves its item. -/
def dropWork (u : Nat) (s : State) : State := s.setUnit u { s.unit u with work := none }

/-- Entries of the expected-signature table for tile `t` of flue `f` (R208, R209). -/
def expEntries (sh : Sheet) (f t : Nat) : List Nat :=
  (sh.regs.filterMap fun p =>
    if 0xB4000 ≤ p.1 ∧ p.1 < 0xB8000 ∧ p.1 % 16 = 0 then some ((p.1 - 0xB4000) / 16) else none).filter fun e =>
      sh.rd (R.CRT_EXP_CTRL_ENABLE e) == 1 && sh.rd (R.CRT_EXP_CTRL_FLUE e) == f && sh.rd (R.CRT_EXP_CTRL_TILE e) == t

/-- One comparison of an entry with a final signature (R209, R210): `expLast` is 0 before any, 1 after a match, 2 after a
mismatch. -/
def expCompareOne (sh : Sheet) (sig : Nat) (s : State) (e : Nat) : State :=
  let good := sh.rd (R.CRT_EXP_SIG_A_SIG e) == sig
    || (sh.rd (R.CRT_EXP_CTRL_ALT e) == 1 && sh.rd (R.CRT_EXP_SIG_B_SIG e) == sig)
  let last := s.comp.expLast.get (fun _ => 0) e
  let s := { s with comp := { s.comp with expLast := s.comp.expLast.set (fun _ => 0) e (if good then 1 else 2) } }
  let s := (s.wr (R.CRT_EXP_STAT_CHECKED e) 1).wr (R.CRT_EXP_STAT_MISMATCH e) (b2n (!good))
  let sum := s.rd (R.CRT_EXP_SUMMARY_MISMATCH (e / 32))
  let s := s.wr (R.CRT_EXP_SUMMARY_MISMATCH (e / 32)) (putBits sum (e % 32) (e % 32) (b2n (!good)))
  if good then (if last = 2 then s.raise 0x0807 e else s)
  else
    let s := s.wr (R.CRT_EXP_STAT_MISMATCH_FRAMES e) (satTo 16 (s.rd (R.CRT_EXP_STAT_MISMATCH_FRAMES e) + 1))
    if last = 2 then s else s.raise 0x0806 e

/-- The comparison of a final tile of a frame that is not dark (R209). -/
def expCompare (f serial t sig : Nat) (s : State) : State :=
  match frameOf s f serial with
  | none => s
  | some r =>
    if frameDark s f r then s
    else
      let es := expEntries r.sheet f t
      modFrame f serial (fun r => { r with compared := r.compared ++ es }) (es.foldl (expCompareOne r.sheet sig) s)

/-- A tile goes into the band buffer, with its direct pixels, and is signed (R140, R144). -/
def placeTile (f serial k t : Nat) (s : State) : State :=
  match frameOf s f serial with
  | none => s
  | some r =>
    let (codes, s) := mergeDirect r f t (composeTile s.mem.bytes r.sheet f t) s
    let sig := signTile r.sheet codes
    let px := if r.underTiles.contains t then underDraw s r f t codes else overdraw r f t codes
    let s := modBand f serial k (fun b => { b with tiles := b.tiles.set (fun _ => []) t px }) s
    let s := writeSig f serial t sig s
    if r.sheet.deferSig then s else expCompare f serial t sig s

/-- When a band has every tile it goes to the held copy, and the last one completes the frame. -/
def finishBand (f serial k : Nat) (s : State) : State :=
  match frameOf s f serial with
  | none => s
  | some r =>
    if bandReady r f k && !(r.band k).written then completeFrame f serial (writeBand f serial k s) else s

/-- BAND_COMPLETE: unit `u` finishes its item (R40). One that it finishes no sooner than the item's deadline it has abandoned
(R41, R195). -/
def bandComplete (u : Nat) (s : State) : State :=
  match (s.unit u).work with
  | none => s
  | some w =>
    match frameOf s w.flue w.serial with
    | none => dropWork u s
    | some r =>
      let s := dropWork u s
      let d := r.deadline w.flue w.band
      if frameDark s w.flue r then s
      else
        match w.rect with
        | some n =>
          if d - 5000 ≤ s.monoNs then s
          else modBand w.flue w.serial w.band (setItemPhase n ((memberOf r.sheet n u).getD 0) .composed) s
        | none =>
          if d ≤ s.monoNs then s
          else
            let ts := (bandTiles r.sheet w.flue w.band).filter fun t => (criticalRect r.sheet w.flue t).isNone
            let s := ts.foldl (fun s t => placeTile w.flue w.serial w.band t s) s
            finishBand w.flue w.serial w.band (modBand w.flue w.serial w.band (fun b => { b with phase := .composed }) s)

/-- A band that its flue has to scan from the held copy: revision, event, copy (R23, R150, R165). -/
def holdBand (f serial k : Nat) (s : State) : State :=
  let s := reviseHeld f serial k s
  let s := heldEmber f serial k s
  let s := copyHeldBand f serial k s
  completeFrame f serial s

/-- The frame whose band `k` comes to its deadline now: the oldest whose band is not yet being scanned. -/
def frameAtDeadline (s : State) (f k : Nat) : Option FrameRun :=
  (s.flue f).frames.find? fun r =>
    decide (k < r.bands.length) && decide (r.deadline f k ≤ s.monoNs)
      && (r.band k).phase != .scanning && (r.band k).phase != .held

/-- BAND_DEADLINE: the scan-out of band `k` of flue `f` begins; a unit still composing it goes on to its next item, and a band
that is not complete is scanned from the held copy, with BAND_LATE unless a fault holds it (R21, R23, R41, R239). -/
def bandDeadlineAt (f k : Nat) (s : State) : State :=
  let s := settleFrames f s
  match frameAtDeadline s f k with
  | none => s
  | some r =>
    let b := r.band k
    let mine : WorkItem := { flue := f, serial := r.serial, band := k, rect := none }
    if frameDark s f r then
      let s := s.when ((s.unit b.unit).work == some mine) (dropWork b.unit)
      completeFrame f r.serial (modBand f r.serial k (fun b => { b with phase := .scanning, written := true }) s)
    else if bandReady r f k then
      finishBand f r.serial k (modBand f r.serial k (fun b => { b with phase := .scanning }) s)
    else
      let s := s.when ((s.unit b.unit).work == some mine) (dropWork b.unit)
      let byFault := b.phase == .faultHeld || (s.unit b.unit).stopped
      let s := holdBand f r.serial k s
      if byFault then s
      else (s.wr (R.CMP_FLUE_STAT_BAND_LATE f) (satTo 16 (s.rd (R.CMP_FLUE_STAT_BAND_LATE f) + 1))).raise 0x0105
        (f * 256 + k)

/-- A flue scans a held band now: a frame of it has a band that is held and not yet scanned out (R344). -/
def scanningHeld (s : State) (f : Nat) : Bool :=
  (s.flue f).frames.any fun r => (List.range r.bands.length).any fun k =>
    (r.band k).phase == .held && decide (r.deadline f k ≤ s.monoNs) && decide (s.monoNs < r.bandEnd f k)

/-- The tiles of a frame that the honoured direct layer touches in a line not yet sent. -/
def directLeft (s : State) (r : FrameRun) (f : Nat) : List Nat :=
  match directLayer r.sheet f with
  | none => []
  | some l => (flueTiles r.sheet f).filter fun t => directTouches r.sheet f t
      && !lineSent s r f ((min (clipped r.sheet l).2.2.2 (tileBox r.sheet f t).2.2.2).toNat - 1)

/-- A tile that the direct path has underrun: its entry is HELD, its pixels still to be sent change in the band buffer, and in
the held copy where the band is already there (R146, R165). -/
def underTile (f serial : Nat) (s : State) (t : Nat) : State :=
  match frameOf s f serial with
  | none => s
  | some r =>
    let k := bandOf r.sheet f t
    let s := reviseTile f serial t (ctxNow s r f t) s
    match frameOf s f serial with
    | none => s
    | some r =>
      let old := (r.band k).tiles.get (fun _ => []) t
      if old.isEmpty then s
      else
        let px := underDraw s r f t old
        let s := modBand f serial k (fun b => { b with tiles := b.tiles.set (fun _ => []) t px }) s
        match (if (r.band k).written then r.buffer else none) with
        | none => s
        | some b => writeHeld r.sheet f b t (heldOf (r.tiles.getD t {})) (storeTile r.sheet f b t px s)

/-- DIRECT_UNDERRUN: a direct pixel has missed the flue's scan: the rest of the frame's direct pixels come from the held copy,
their tiles are HELD, and the sink's start counts as outside the genlock window (R146). -/
def directUnderrun (f : Nat) (s : State) : State :=
  match (s.flue f).frames.find? (fun r => r.started && !r.underrun && !frameDark s f r && decide (s.monoNs < r.endNs)) with
  | none => s
  | some r =>
    match directLayer r.sheet f with
    | none => s
    | some l =>
      let left := directLeft s r f
      let s := modFrame f r.serial (fun r => { r with underrun := true, underTiles := left }) s
      let s := left.foldl (underTile f r.serial) s
      let key := r.sheet.layerKey l
      let s := s.setSource key { s.source key with sinceUnder := 0 }
      (countStates r.sheet f s).raise 0x0502 f

end Sys2Proof.Machine
end

