-- ==== Sys2Proof/Machine/Quiet.lean ====
section
/-!
DEFINITION. The quiet windows of the flues attached to touch panels (R33, R478): the drive pulses that a scan has been able to
make, counted from the time it fell due.
-/
namespace Sys2Proof.Machine

/-- The link of port `p` is up. -/
def portUp (s : State) (p : Nat) : Bool := s.rdb (R.PORT_CFG_ENABLE p) && s.rd (R.PORT_STATUS_STATE p) == 3

/-- Flue `f` shows its frames under a sheet: it is enabled and not rested (R268), and the Warden has not darkened it. -/
def flueShows (s : State) (sh : Sheet) (f : Nat) : Bool := flueOn sh f && !bitOf sh.rested f && !(s.flue f).dark

/-- The overlays of panel `p` that the sense map holds (R475). -/
def panelOverlays (s : State) (p : Nat) : List Nat :=
  (span (4 * p) 4).filter fun o => (s.overlay o).used

/-- The attached flue of panel `p`: that of its lowest-numbered overlay (R475). -/
def attachedFlue (s : State) (p : Nat) : Nat := s.rd (R.TCH_OVL_MAP_FLUE ((panelOverlays s p).headD (4 * p)))

/-- The port of flue `f` sends no video: all of the time is a quiet window (R478). -/
def flueQuiet (s : State) (f : Nat) : Bool :=
  (match s.tick.current with | none => true | some sh => !flueShows s sh f) || !portUp s (s.rd (R.CMP_FLUE_CTRL_PORT f))

/-- The whole pulses at `khz` in the part of a window from `a` to `b` that lies between `t0` and `t1`, times in units of
1/`d` ns. -/
def pulsesIn (khz d t0 t1 a b : Nat) : Nat := (min b t1 - max a t0) * khz / (1000000 * d)

/-- The quiet windows of frame `r` of flue `f`, in units of 1/(V_TOTAL × H_TOTAL) ns: vertical blanking, and in each active line
`len` pixel periods from pixel period `start` on (R118, R478). -/
def quietWindows (r : FrameRun) (f start len : Nat) : List (Nat × Nat) :=
  let vt := vTotal r.sheet f
  let ht := hTotal r.sheet f
  let line (n : Nat) : Nat := r.startNs * (vt * ht) + n * r.periodNs * ht
  let blank := vt - vActive r.sheet f
  (line 0, line blank) :: (List.range (vActive r.sheet f)).map fun y =>
    (line (blank + y) + min start ht * r.periodNs, line (blank + y) + min (start + len) ht * r.periodNs)

/-- The pulses that R478 permits panel `p` between two times. -/
def quietPulses (s : State) (p t0 t1 : Nat) : Nat :=
  let khz := s.rd (R.TCH_PNL_DRIVE_F_TX_KHZ p)
  let f := attachedFlue s p
  if flueQuiet s f then pulsesIn khz 1 t0 t1 t0 t1
  else (s.flue f).frames.foldl (fun acc r =>
    let d := vTotal r.sheet f * hTotal r.sheet f
    (quietWindows r f (s.rd (R.TCH_PNL_QW_QW_START p)) (s.rd (R.TCH_PNL_QW_QW_LEN p))).foldl
      (fun acc w => acc + pulsesIn khz d (t0 * d) (t1 * d) w.1 w.2) acc) 0

/-- The pulses that a scan or a test of panel `p` has been able to make since it began. -/
def scanPulses (s : State) (p : Nat) : Nat := (s.panel p).pulses + quietPulses s p (s.panel p).scanNs s.monoNs

/-- The pulses of the scan of panel `p` up to now are counted under the windows as they have been. -/
def settleScan (p : Nat) (s : State) : State :=
  if (s.panel p).count = 0 then s
  else s.setPanel p { s.panel p with pulses := scanPulses s p, scanNs := s.monoNs }

/-- The scans of the panels attached to flue `f` are counted up to now, before its windows change (R490). -/
def settleScans (f : Nat) (s : State) : State :=
  (List.range 4).foldl (fun s p => s.when (attachedFlue s p == f) (settleScan p)) s

/-- The pulses of a scan or of a test of panel `p` begin to count now. -/
def startPulses (p : Nat) (s : State) : State := s.setPanel p { s.panel p with pulses := 0, scanNs := s.monoNs }

end Sys2Proof.Machine
end

