-- ==== Sys2Proof/Machine/Faults.lean ====
section
/-!
DEFINITION. Faults, holding and recovery (R46 to R57, R61, R230 to R248): the fault log, folding and escalation, the fault
hold, the moves of cues to stand-ins, lost rectangles, and the execution of the Warden's actions.
-/
namespace Sys2Proof.Machine

/-! ### The hierarchy registers (R61) -/

/-- The bands that unit `u` composes, as keys flue × 128 + band. -/
def bandsOfUnit (s : State) (u : Nat) : List Nat :=
  s.comp.bandUnits.filterMap fun p => if p.2 = u then some p.1 else none

/-- The members that unit `u` holds, as (rectangle, member). -/
def membersOfUnit (s : State) (u : Nat) : List (Nat × Nat) :=
  (List.range 64).flatMap fun n => (List.range 3).filterMap fun m =>
    if s.rdb (R.CRT_RECT_POS_VALID n) && memberUnit s n m == u then some (n, m) else none

/-- A unit holds bands or triplet members. -/
def holdsWork (s : State) (u : Nat) : Bool := !(bandsOfUnit s u).isEmpty || !(membersOfUnit s u).isEmpty

/-- Unit `u` holds bands or triplet members in the current cue: those that the published sheet gives it on flues that are enabled
and not rested (R49, R61, R267). -/
def cueHolds (s : State) (u : Nat) : Bool :=
  match s.tick.current with
  | none => false
  | some sh =>
    (sh.bandUnits.any fun p => p.2 == u && decide (p.1 % 128 < tileRows sh (p.1 / 128)) && flueShows s sh (p.1 / 128))
      || (List.range 64).any fun n => sh.rd (R.CRT_RECT_POS_VALID n) == 1 && (memberOf sh n u).isSome
        && flueShows s sh (sh.rd (R.CRT_RECT_POS_FLUE n))

/-- Unit `u` is an idle stand-in. -/
def idleStandin (s : State) (u : Nat) : Bool := bitOf (s.rd R.GLB_UNIT_STANDIN_IDLE_STANDIN) u

/-- Set or clear bit `i` of a field. -/
def setBit (f : Fld) (i : Nat) (b : Bool) (s : State) : State := s.wr f (putBits (s.rd f) i i (b2n b))

/-- The reset of region `r` is in progress: the region has not powered up again and is not given up (R246). -/
def regionResetting (s : State) (r : Nat) : Bool :=
  !s.faults.deadRegions.contains r && s.faults.resets.any fun x => x.region == r && !x.powered

/-- The clock setting of a region in GLB_REGION_STAT (R49): 0, 1 and 2 divide by 1, 2 and 4, and 3 gates. -/
def clockFld (r : Nat) : Fld := { R.GLB_REGION_STAT_REGION0 with hi := 4 * r + 1, lo := 4 * r }
def setClock (r c : Nat) (s : State) : State := s.wr (clockFld r) c

/-- The four bits of a cluster in GLB_CLUSTER_STAT. What they say of work goes by the allocation. DESIGN CHOICE (log 98): a cluster
whose only work is a direct unit, and which holds no unit of the reserve, reads 0; one whose region has power again after a reset
but whose units have not rejoined reads 3. -/
def clusterCode (s : State) (c : Nat) : Nat :=
  let us := span (4 * c) 4
  if s.rd R.IMG_STATUS_CONFIGURED = 0 then 0
  else if regionResetting s (c / 2) then 4
  else if us.all fun u => (s.unit u).withdrawn then 3
  else if us.any fun u => (s.unit u).withdrawn || holdsWork s u then 1
  else if bitOf s.comp.reserve c || us.any fun u => idleStandin s u then 2 else 0

/-- GLB_UNIT_SVC, GLB_CLUSTER_STAT and the RESETTING and POWERED bits of GLB_REGION_STAT as the units stand. -/
def refreshHier (s : State) : State :=
  let svc := (List.range 32).foldl (fun x u =>
    x + 2 ^ u * b2n (cueHolds s u && !(s.unit u).withdrawn)) 0
  let cl := (List.range 8).foldl (fun x c => x + 16 ^ c * clusterCode s c) 0
  let rg := (List.range 4).foldl (fun x r =>
    x + 16 ^ r * (8 * b2n (s.powered (regionDomain r)) + 4 * b2n (regionResetting s r)
      + s.rd (clockFld r))) 0
  let s := s.wr R.GLB_UNIT_SVC_IN_SERVICE svc
  let s := s.wr { R.GLB_CLUSTER_STAT_C0 with hi := 31, lo := 0 } cl
  s.wr { R.GLB_REGION_STAT_REGION0 with hi := 15, lo := 0 } rg

/-! ### The log (R231 to R233, R252) -/

/-- A state of a record that is open (R231). -/
def isOpenState (st : Nat) : Bool := decide (1 ≤ st) && decide (st ≤ 4)

/-- WDN_STATUS counts the open and the queued records. -/
def refreshWdn (s : State) : State :=
  let o := s.faults.openRecs
  (s.wr R.WDN_STATUS_OPEN o.length).wr R.WDN_STATUS_QUEUED
    (o.filter fun i => s.rd (R.WDN_LOG_W1_STATE i) == 1).length

/-- A record takes a state; one that closes frees the rectangle that it forced to ember (R211). -/
def setRecState (i st : Nat) (s : State) : State :=
  let s := s.wr (R.WDN_LOG_W1_STATE i) st
  let o := s.faults.openRecs.erase i
  let s := s.when (!isOpenState st) fun s => { s with comp := { s.comp with rects := s.comp.rects.map fun (p : Nat × RectState) =>
    (p.1, if p.2.forced = some i then { p.2 with forced := none } else p.2) } }
  refreshWdn { s with faults := { s.faults with openRecs := if isOpenState st then o ++ [i] else o } }

/-- The first slot from `i` on whose record is not open, among `n`. -/
def freeSlot (s : State) : Nat → Nat → Nat
  | 0, i => i
  | n + 1, i => if s.faults.openRecs.contains i then freeSlot s n ((i + 1) % 256) else i

/-- Write a record in ring order, an open one never overwritten (R231, R233): its slot, whether it overwrote an unread
record, and the state. ACTION is recorded when an action has been executed (R235). -/
def writeRecord (code level object action st : Nat) (prev : Option Nat) (injected : Bool) (s : State) :
    Nat × Bool × State :=
  let wr := s.rd R.WDN_LOG_PTR_WR
  let slot := freeSlot s 256 wr
  let used := (slot + 256 - wr) % 256 + 1
  let unread := s.rd R.WDN_LOG_STAT_UNREAD
  let full := decide (256 ≤ unread)
  let s := s.wr R.WDN_LOG_PTR_WR (slot + 1)
  let s := s.wr R.WDN_LOG_STAT_UNREAD (min 256 (unread + used))
  let s := if full then ((s.wr R.WDN_LOG_PTR_RD (slot + 1)).wr R.WDN_LOG_STAT_OVERFLOW 1).wr R.WDN_LOG_STAT_LOST
    (satTo 16 (s.rd R.WDN_LOG_STAT_LOST + 1)) else s
  let s := s.wr (R.WDN_LOG_W0_STAMP slot) s.wus
  let s := ((s.wr (R.WDN_LOG_W1_CODE slot) code).wr (R.WDN_LOG_W1_LEVEL slot) level).wr (R.WDN_LOG_W1_OBJECT slot) object
  let s := s.wr (R.WDN_LOG_W1_ACTION slot) 0
  let s := (s.wr (R.WDN_LOG_W2_HOLD_NS slot) 0).wr (R.WDN_LOG_W2_PREV slot) (prev.getD slot)
  let s := (s.wr (R.WDN_LOG_W2_INJECTED slot) (b2n injected)).wr (R.WDN_LOG_W2_HOLD_LONG slot) 0
  let s := (s.wr (R.WDN_LOG_W3_SEQ slot) s.faults.seq).wr (R.WDN_LOG_W3_DETAIL slot) (s.rd R.TICK_COUNT_COUNT)
  let s := s.setFrec slot { seqNo := s.faults.seq, tdNs := s.monoNs, tick := s.rd R.TICK_COUNT_COUNT, action }
  let s := { s with faults := { s.faults with seq := s.faults.seq + 1 } }
  (slot, full, setRecState slot st s)

/-! ### The fault hold (R238 to R240) -/

/-- WDN_HOLD_FLUES and WDN_STATUS.HOLD: a flue is in fault hold while one of its bands belongs to a stopped cue (R238). -/
def refreshHold (s : State) : State :=
  let m := (List.range 24).foldl (fun x f =>
    let held := s.rdb (R.CMP_FLUE_CTRL_ENABLE f)
      && s.comp.bandUnits.any fun p => p.1 / 128 == f && (s.unit p.2).stopped
    x + 2 ^ f * b2n held) 0
  (s.wr R.WDN_HOLD_FLUES_FLUES m).wr R.WDN_STATUS_HOLD (b2n (m != 0))

/-- Hold one band of a frame for a fault: its tiles are HELD from now on (R239). -/
def faultHoldBand (f serial k : Nat) (s : State) : State :=
  reviseHeld f serial k (modBand f serial k (fun b => { b with phase := .faultHeld, written := false }) s)

/-- The bands of unit `u` that R239 holds at the time of detection: the one being composed, and for a fault that taints the
completed ones whose scan has not begun. -/
def holdBandsOf (u : Nat) (taints : Bool) (s : State) : State :=
  (List.range 24).foldl (fun s f =>
    (s.flue f).frames.foldl (fun s r =>
      (List.range r.bands.length).foldl (fun s k =>
        let b := r.band k
        if b.unit = u ∧ (b.phase = .composing ∨ (taints = true ∧ b.phase = .composed)) then faultHoldBand f r.serial k s
        else s) s) s) s

/-- The member item that unit `u` works on goes back to waiting for whoever takes the cue (R240, R241). -/
def releaseItem (u : Nat) (s : State) : State :=
  match (s.unit u).work with
  | some w =>
    match w.rect, frameOf s w.flue w.serial with
    | some n, some r => modBand w.flue w.serial w.band (setItemPhase n ((memberOf r.sheet n u).getD 0) .waiting) s
    | _, _ => s
  | none => s

/-- A direct unit that fails ends its layer's direct streaming for the frame, and the sheet being built honours it no more (R146,
R241). -/
def endDirectOf (u : Nat) (s : State) : State :=
  let mine (f : Nat) : Bool := s.rd (R.CMP_FLUE_DIRECT_UNIT f) == u
  let t := s.tick
  let s := { s with tick := { t with building := t.building.map fun (sh : Sheet) =>
    ({ sh with direct := sh.direct.filter fun (p : Nat × Nat) => !mine p.1 } : Sheet) } }
  ((List.range 24).filter mine).foldl (fun s f => directUnderrun f s) s

/-- Stop the cue of unit `u` (R238). -/
def stopUnit (taints : Bool) (s : State) (u : Nat) : State :=
  if (s.unit u).withdrawn || (s.unit u).stopped then s
  else
    let s := s.setUnit u { s.unit u with stopped := true }
    let s := releaseItem u s
    let s := holdBandsOf u taints s
    endDirectOf u (dropWork u s)

/-- Stop the cues of units for record `i`, and answer whether its fault hold begins now (R238). -/
def stopCues (i : Nat) (us : List Nat) (taints : Bool) (s : State) : Bool × State :=
  let us := us.filter fun u => !(s.unit u).withdrawn && !(s.unit u).stopped
  let begins := us.any (holdsWork s) && !(s.frec i).holding
  let s := us.foldl (stopUnit taints) s
  let r := s.frec i
  (begins, refreshHold (s.setFrec i { r with cues := r.cues ++ us, holding := r.holding || begins }))

/-- The fault hold of record `i` ends when none of its cues is stopped any more (R238). -/
def endHold (i : Nat) (s : State) : State :=
  let r := s.frec i
  if r.holding && !r.cues.any (fun u => (s.unit u).stopped) then
    let ns := s.monoNs - r.tdNs
    let s := s.setFrec i { r with holding := false }
    let s := (s.wr (R.WDN_LOG_W2_HOLD_NS i) (satTo 16 ns)).wr (R.WDN_LOG_W2_HOLD_LONG i) (b2n (decide (65535 < ns)))
    let s := (s.wr R.WDN_HOLD_LAST_NS (satTo 16 ns)).wr R.WDN_HOLD_MAX_NS (max (s.rd R.WDN_HOLD_MAX_NS) (satTo 16 ns))
    s.raise 0x0903 i
  else s

/-! ### Detection (R230, R232, R242 to R244) -/

/-- The built-in action of a fault code (R230). -/
def builtinAction (code : Nat) : Nat := [0, 1, 1, 1, 2, 2, 2, 2, 6, 6, 5, 0, 4, 0, 0, 0].getD code 0

/-- The fault makes the failed hardware's output untrustworthy (R230). -/
def taints (code : Nat) : Bool := [1, 2, 4, 5, 6, 7].contains code

/-- An integrator handler is enabled for a fault code (R236). -/
def hooked (s : State) (code : Nat) : Bool := bitOf (s.rd R.WDN_HOOK_EN_CODES) (code - 1) && decide (1 ≤ code)

/-- The region and the cluster of an object at unit, cluster or region level. -/
def objCluster (level object : Nat) : Nat := if level = 0 then object / 4 else object
def objRegion (level object : Nat) : Nat := if level = 2 then object else objCluster level object / 2

/-- The units that an action of a record about (level, object) withdraws. -/
def unitsOf (action level object : Nat) : List Nat :=
  if action = 1 then [object]
  else if action = 2 then span (4 * objCluster level object) 4
  else if action = 6 then span (8 * objRegion level object) 8
  else []

/-- A new fault lies in the same containment unit as open record `i` (R243). -/
def sameUnit (s : State) (level object i : Nat) : Bool :=
  let l := s.rd (R.WDN_LOG_W1_LEVEL i)
  let o := s.rd (R.WDN_LOG_W1_OBJECT i)
  decide (level ≤ 2) && decide (l ≤ 2)
    && (if l = 2 then objRegion level object == o else decide (level ≤ 1) && objCluster level object == objCluster l o)

/-- The action one step up (R243). -/
def raiseAction (a : Nat) : Nat := if a = 1 then 2 else if a = 2 then 6 else a

/-- Region `r` stays unpowered until warm reset or PORST_N (R243, R246, R515). -/
def unpowerRegion (r : Nat) (s : State) : State :=
  let d := regionDomain r
  let p := s.power
  let s := setBit R.PWR_STATUS_POWERED d false s
  let s := s.wr R.PWR_STATUS_SEQ_BUSY (b2n (!(p.switching.erase d).isEmpty))
  let s := (span (8 * r) 8).foldl (fun s u => s.setUnit u { s.unit u with rejoining := false }) s
  refreshHier { s with
    faults := { s.faults with
      deadRegions := r :: s.faults.deadRegions.erase r
      resets := s.faults.resets.map fun x => if x.region = r then { x with powered := false } else x }
    power := { p with switching := p.switching.erase d, failedOff := d :: p.failedOff.erase d } }

/-- Raise the action of open record `i` one step (R243): an escalated reset leaves its region unpowered; an action not yet
executed has its handlers run again, one executed or on its way is followed by the raised one. The region of a reset that is itself
escalated stays unpowered, and so does one reached from a raised withdrawal. DEDUCED (log 99). -/
def escalate (i : Nat) (tnt : Bool) (s : State) : Bool × State :=
  let r := s.frec i
  let level := s.rd (R.WDN_LOG_W1_LEVEL i)
  let object := s.rd (R.WDN_LOG_W1_OBJECT i)
  let a := raiseAction r.action
  let rg := objRegion level object
  let dead := a == 6
  let s := if dead && !s.faults.deadRegions.contains rg
    then { s with faults := { s.faults with deadRegions := rg :: s.faults.deadRegions } } else s
  if s.rd (R.WDN_LOG_W1_STATE i) = 4 then (false, if dead then unpowerRegion rg s else s)
  else
    let s := s.setFrec i { r with action := a, urgent := r.voted.isSome }
    let s := { s with faults := { s.faults with windows :=
      if r.voted.isNone then s.faults.windows.filter (·.index != i) else s.faults.windows } }
    stopCues i (unitsOf a level object) tnt s

/-- Events that arise together. -/
def raiseAll (evs : List (Nat × Nat)) (s : State) : State :=
  evs.foldl (fun s e => s.raise e.1 e.2) s

/-- A fault is detected: folded into an open record, escalated, logged, or queued with its cues stopped. -/
def detect (code level object : Nat) (injected : Bool) (s : State) : State :=
  let a := builtinAction code
  let opens := s.faults.openRecs
  match opens.find? (fun i => s.rd (R.WDN_LOG_W1_LEVEL i) == level && s.rd (R.WDN_LOG_W1_OBJECT i) == object) with
  | some i =>
    let (j, ovf, s) := writeRecord code level object a 0xA (some i) injected s
    raiseAll ([(0x0901, j)] ++ if ovf then [(0x0906, s.rd R.WDN_LOG_STAT_LOST)] else []) s
  | none =>
    match opens.find? (fun i => decide (a ∈ [1, 2, 6]) && decide ((s.frec i).action ∈ [1, 2, 6]) && sameUnit s level object i) with
    | some i =>
      let (j, ovf, s) := writeRecord code level object a 9 (some i) injected s
      let (begins, s) := escalate i (taints code) s
      raiseAll ([(0x0901, j), (0x0905, i)] ++ (if begins then [(0x0902, i)] else [])
        ++ if ovf then [(0x0906, s.rd R.WDN_LOG_STAT_LOST)] else []) s
    | none =>
      let (j, ovf, s) := writeRecord code level object a 1 none injected s
      let (begins, s) := stopCues j (unitsOf a level object) (taints code) s
      raiseAll ([(0x0901, j)] ++ (if begins then [(0x0902, j)] else [])
        ++ if ovf then [(0x0906, s.rd R.WDN_LOG_STAT_LOST)] else []) s

/-- A unit that can compose a member: its region powered, not withdrawn, its cue not stopped (R48, R244). -/
def memberServes (s : State) (u : Nat) : Bool :=
  decide (u < 32) && s.powered (regionDomain (regionOf u)) && !(s.unit u).withdrawn && !(s.unit u).stopped

/-- Members of rectangle `n` in service. -/
def membersServing (s : State) (n : Nat) : Nat :=
  ((List.range 3).filter fun m => memberServes s (memberUnit s n m)).length

/-- Flue `f` is rested in the tick (R268). -/
def restedNow (s : State) (f : Nat) : Bool :=
  match s.tick.current with | none => bitOf (s.rd R.DMP_RESTED_FLUES) f | some sh => bitOf sh.rested f

/-- Rectangle `n` has critical tiles: its flue is enabled, defined and not rested (R193, R244). -/
def rectLive (s : State) (n : Nat) : Bool :=
  let f := s.rd (R.CRT_RECT_POS_FLUE n)
  s.rdb (R.CRT_RECT_POS_VALID n) && s.rdb (R.CMP_FLUE_CTRL_ENABLE f) && s.rd (R.CMP_FLUE_VTIME_V_TOTAL f) != 0
    && !restedNow s f

/-- Rectangles that have become lost get their TRIPLET_LOST records (R244). -/
def checkLost (s : State) : State :=
  (List.range 64).foldl (fun s n =>
    if rectLive s n && !(s.rect n).lost && decide (membersServing s n < 2) then
      let s := s.setFrect n { s.rect n with lost := true, record := none }
      let s := detect 0x0C 4 n false s
      let i := s.faults.openRecs.find? fun i => s.rd (R.WDN_LOG_W1_LEVEL i) == 4 && s.rd (R.WDN_LOG_W1_OBJECT i) == n
      s.setFrect n { s.rect n with lost := true, record := i }
    else s) s

/-- Rectangle `n` is lost no more: its record closes (R244). -/
def restoreRect (n : Nat) (s : State) : State :=
  let o := s.rect n
  if o.lost then
    let s := s.setFrect n { o with lost := false, record := none }
    match o.record with | some i => setRecState i 8 s | none => s
  else s

/-- A fault is detected, with the rectangles it leaves lost: its own record first. -/
def logFault (code level object : Nat) (injected : Bool) (s : State) : State :=
  checkLost (detect code level object injected s)

/-! ### Stand-ins (R52 to R56) -/

/-- The units of a triplet keep the conditions of R52. -/
def tripletOk (us : List Nat) : Bool :=
  let us := us.filter (· != 0xFF)
  let cs := us.map clusterOf
  let rs := us.map regionOf
  decide cs.Nodup && decide rs.Nodup && (decide (us.length < 3) || decide ((us.map dieOf).eraseDups.length = 2))

/-- Unit `v` may take member `m` of rectangle `n` (R52, R53). -/
def canTake (s : State) (v : Nat) (nm : Nat × Nat) : Bool :=
  tripletOk ((List.range 3).map fun m => if m = nm.2 then v else memberUnit s nm.1 m)

/-- Every band of unit `u`, in the allocation, in the sheets and in frames not yet begun on it, goes to `v` (R55, R241). -/
def moveBands (u v : Nat) (s : State) : State :=
  let mv (t : Tab Nat) : Tab Nat := t.map fun (p : Nat × Nat) => (p.1, if p.2 = u then v else p.2)
  let sheet (sh : Sheet) : Sheet := { sh with bandUnits := mv sh.bandUnits }
  let band (b : BandRun) : BandRun := if b.unit = u ∧ b.phase = .waiting then { b with unit := v } else b
  let frame (r : FrameRun) : FrameRun := { r with sheet := sheet r.sheet, bands := r.bands.map band }
  let t := s.tick
  let c := s.comp
  { s with
    tick := { t with building := t.building.map sheet, current := t.current.map sheet }
    comp := { c with
      bandUnits := mv c.bandUnits
      flues := c.flues.map fun (p : Nat × FlueState) => (p.1, { p.2 with frames := p.2.frames.map frame }) } }

/-- Member (n, m) goes to `v`, or becomes vacant where `v` breaks R52, with MEMBER_VACANT (R194, R53). -/
def moveMember (v : Option Nat) (s : State) (nm : Nat × Nat) : State :=
  match v with
  | some u => if canTake s u nm then setMember nm.1 nm.2 u s
    else (setMember nm.1 nm.2 0xFF s).raise 0x0805 (nm.1 * 4 + nm.2)
  | none => (setMember nm.1 nm.2 0xFF s).raise 0x0805 (nm.1 * 4 + nm.2)

/-- The cue of unit `u` goes to stand-in `v`, or finds none: then its bands wait for a redistribution (R56) and it stays
stopped. -/
def moveCue (u : Nat) (v : Option Nat) (s : State) : State :=
  let ms := membersOfUnit s u
  let bs := bandsOfUnit s u
  match v with
  | some w =>
    let s := ms.foldl (moveMember (some w)) (moveBands u w s)
    let s := setBit R.GLB_UNIT_STANDIN_IDLE_STANDIN w (!holdsWork s w) s
    let s := setClock (regionOf w) 0 s
    s.setUnit u { s.unit u with stopped := false }
  | none =>
    let s := ms.foldl (moveMember none) s
    let s := { s with comp := { s.comp with redistribute := s.comp.redistribute ++ bs } }
    s.setUnit u { s.unit u with stopped := !bs.isEmpty }

/-- Idle stand-ins that an action on units `out` may use, ascending. -/
def idleFor (s : State) (out : List Nat) : List Nat :=
  (List.range 32).filter fun v => idleStandin s v && !out.contains v && memberServes s v

/-- Each cue to the lowest-numbered idle stand-in, with members vacant that it cannot take (R55). -/
def moveEach (out us : List Nat) (s : State) : State :=
  us.foldl (fun s u => if holdsWork s u then moveCue u (idleFor s out).head? s else s.setUnit u { s.unit u with stopped := false }) s

/-- Withdraw one unit: its cue to the lowest idle unit of the lowest stand-in cluster that keeps R52 (R55). -/
def moveUnitCue (out : List Nat) (u : Nat) (s : State) : State :=
  let idle := idleFor s out
  let firsts := idle.filter fun v => !idle.any fun x => clusterOf x == clusterOf v && decide (x < v)
  match firsts.find? fun v => (membersOfUnit s u).all (canTake s v) with
  | some v => if holdsWork s u then moveCue u (some v) s else s.setUnit u { s.unit u with stopped := false }
  | none => moveEach out [u] s

/-- Withdraw a cluster: its cues in position order to one stand-in cluster, else each for itself (R55). -/
def moveClusterCues (out : List Nat) (c : Nat) (s : State) : State :=
  let us := span (4 * c) 4
  let idle := idleFor s out
  let fits (d : Nat) : Bool := (span (4 * d) 4).all (fun v => idle.contains v)
    && us.all fun u => (membersOfUnit s u).all (canTake s (4 * d + u % 4))
  if us.any (holdsWork s) then
    match (List.range 8).find? fits with
    | some d => us.foldl (fun s u =>
        if holdsWork s u then moveCue u (some (4 * d + u % 4)) s else s.setUnit u { s.unit u with stopped := false }) s
    | none => moveEach out us s
  else moveEach out us s

/-- A unit is withdrawn (R55, R57). -/
def withdrawUnit (s : State) (u : Nat) : State :=
  setBit R.GLB_UNIT_STANDIN_IDLE_STANDIN u false (dropWork u (s.setUnit u { s.unit u with withdrawn := true }))

/-! ### Actions (R211, R235, R246) -/

/-- Stop the units that the action of record `i` withdraws and that no detection stopped, which is a handler's own choice (R236):
the record's fault hold begins with them (R238). -/
def stopFor (i : Nat) (us : List Nat) (s : State) : State :=
  let (begins, s) := stopCues i us false s
  s.when begins (·.raise 0x0902 i)

/-- RESET_REGION (R246, R48): both clusters withdrawn in order, then the region resets and its switch opens. -/
def resetRegion (i r : Nat) (s : State) : State :=
  let out := span (8 * r) 8
  let s := stopFor i out s
  let s := moveClusterCues out (2 * r + 1) (moveClusterCues out (2 * r) s)
  let s := out.foldl withdrawUnit s
  let d := regionDomain r
  let s := setBit R.PWR_STATUS_POWERED d false s
  let p := s.power
  let dead := s.faults.deadRegions.contains r
  let s := { s with
    faults := { s.faults with resets := s.faults.resets.filter (fun (x : RegionReset) => x.region != r) ++ [({ region := r, record := i, atNs := s.monoNs } : RegionReset)] }
    power := { p with switching := if dead || p.switching.contains d then p.switching else p.switching ++ [d]
                      switchNs := p.switchNs.set (fun _ => 0) d s.monoNs
                      failedOff := if dead then d :: p.failedOff.erase d else p.failedOff } }
  s.wr R.PWR_STATUS_SEQ_BUSY (b2n (!s.power.switching.isEmpty))

/-- The entries of flue `f` in the tile table read as all zeros (R172). -/
def clearEntries (f : Nat) (s : State) : State :=
  let sh : Sheet := { regs := s.regs }
  countStates sh f ((flueTiles sh f).foldl (fun s t => writeEntry (tileIndex sh f t) 0 {} false none s) s)

/-- The frames of a darkened flue show nothing from now on: their tiles are DARK (R162 row 1, R172). -/
def darkenFlue (f : Nat) (s : State) : State :=
  let s := settleScans f s
  clearEntries f (s.setFlue f { s.flue f with dark := true })

/-- Object `o` exists for action `a` (R241, R246). -/
def actionFits (a o : Nat) : Bool :=
  match a with
  | 1 => decide (o < 32)
  | 2 => decide (o < 8)
  | 3 => decide (o < 1024)
  | 4 => decide (o < 64)
  | 5 => decide (o < 24)
  | 6 => decide (o < 4)
  | _ => false

/-- Execute action `a` on object `o` for record `i`. Remap names unit × 32 + stand-in (log 16). -/
def doAction (i a o : Nat) (s : State) : State :=
  if !actionFits a o then s
  else if a = 1 then withdrawUnit (moveUnitCue [o] o (stopFor i [o] s)) o
  else if a = 2 then
    let us := span (4 * o) 4
    us.foldl withdrawUnit (moveClusterCues us o (stopFor i us s))
  else if a = 3 then moveCue (o / 32) (some (o % 32)) s
  else if a = 4 then s.when (!(s.rect o).lost) (·.setFrect o { s.rect o with forced := some i })
  else if a = 5 then darkenFlue o s
  else if a = 6 then resetRegion i o s
  else s

/-- The condition of an executed action persists, so that its record stays ACTIVE (R235). -/
def persists (s : State) (i a o : Nat) : Bool :=
  a == 6 || (a == 4 && ((s.rect o).lost || (s.rect o).forced == some i)) || s.rd (R.WDN_LOG_W1_CODE i) == 0x0B

/-- The record that the Warden handles now, if any. -/
def handlingRec (s : State) : Option Nat :=
  if s.rdb R.WDN_STATUS_HANDLING then some (s.rd R.WDN_STATUS_HANDLING_IDX) else none

/-- The Warden handles no record. -/
def endHandling (s : State) : State := (s.wr R.WDN_STATUS_HANDLING 0).wr R.WDN_STATUS_HANDLING_IDX 0

/-- The cues that record `i` stopped and its action has not moved go on, but for those that another record in hand is to move
(R238). -/
def resumeCues (i : Nat) (s : State) : State :=
  (s.frec i).cues.foldl (fun s u =>
    let wanted := s.faults.openRecs.any fun j => j != i && s.rd (R.WDN_LOG_W1_STATE j) != 4 && (s.frec j).cues.contains u
    s.when (!(s.unit u).withdrawn && !wanted) (·.setUnit u { s.unit u with stopped := false })) s

/-- FAULT_ACTION_EXECUTED: the action voted for the record being handled has been executed (R235, R238, R241, R246);
FAULT_ACTION was raised when the port began to execute it (R212). -/
def faultActionExecuted (s : State) : State :=
  match handlingRec s with
  | none => s
  | some i =>
    match (s.frec i).voted with
    | none => s
    | some (a, o) =>
      let s := doAction i a o s
      let s := refreshHold (s.when (!(s.frec i).urgent) (resumeCues i))
      let r := s.frec i
      let s := s.setFrec i { r with voted := none, splits := 0 }
      let s := s.wr (R.WDN_LOG_W1_ACTION i) a
      let s := setRecState i (if r.urgent then 1 else if persists s i a o then 4 else 8) s
      let s := endHold i (endHandling (refreshHier s))
      checkLost s

/-- A record of this code needs a vote (R213). -/
def needsVote (s : State) (i : Nat) : Bool :=
  (s.frec i).action != 0 || hooked s (s.rd (R.WDN_LOG_W1_CODE i))

/-- A record that needs no vote is done with: it is LOGGED, or ACTIVE while cue processors stall (R213, R235). -/
def settleRecord (i : Nat) (s : State) : State :=
  setRecState i (if s.rd (R.WDN_LOG_W1_CODE i) = 0x0B then 4 else 0xA) s

/-- FAULT_HANDLING_START: the Warden takes the next record: a raised one first, else the queued ones in SEQ order; a RETRY
record only after an edge (R234, R237, R243). One that needs no vote needs no handling. -/
def faultHandlingStart (s : State) : State :=
  if s.rdb R.WDN_STATUS_HANDLING then s
  else
    let c := s.faults.openRecs.filter fun i =>
      s.rd (R.WDN_LOG_W1_STATE i) == 1 || (s.rd (R.WDN_LOG_W1_STATE i) == 3 && (s.frec i).again)
    let first (l : List Nat) : Option Nat := l.foldl (fun (b : Option Nat) i =>
      match b with
      | none => some i
      | some j => if (s.frec i).seqNo < (s.frec j).seqNo then some i else some j) none
    match (first (c.filter fun i => (s.frec i).urgent)).orElse fun _ => first c with
    | none => s
    | some i =>
      let r := s.frec i
      let s := s.setFrec i { r with urgent := false, again := false, splits := 0, voted := none }
      if needsVote s i = false then settleRecord i s
      else setRecState i 2 ((s.wr R.WDN_STATUS_HANDLING 1).wr R.WDN_STATUS_HANDLING_IDX i)

/-! ### The Warden's own vote (R211 to R214, R236, R237) -/

/-- A core in the vote. -/
def coreIn (s : State) (c : Nat) : Bool := decide (c < 3) && !s.faults.coresOut.contains c

/-- The action and object on which two cores agree. -/
def agreement (ps : List Proposal) : Option (Nat × Nat) :=
  (ps.find? fun p => ps.any fun q => q.core != p.core && q.action == p.action && q.object == p.object).map
    fun p => (p.action, p.object)

/-- Set the vote windows. -/
def setWindows (w : List VoteWindow) (s : State) : State := { s with faults := { s.faults with windows := w } }

/-- The 2 µs of a vote window are over (R212). -/
def windowOver (s : State) (w : VoteWindow) : Bool := decide (w.openNs + 2000 ≤ s.monoNs)

/-- A proposal reaches the action port (R212): it opens a window for its record or joins the open one while its 2 µs last; two
identical ones are executed at once, and FAULT_ACTION is raised (R235). A core proposes once in a window. -/
def propose (p : Proposal) (i : Nat) (s : State) : State :=
  if coreIn s p.core then
    let handling := handlingRec s == some i && needsVote s i
    match s.faults.windows.find? (·.index == i) with
    | none =>
      if handling && (s.frec i).voted.isNone then setWindows (s.faults.windows ++ [{ index := i, openNs := s.monoNs, props := [p] }]) s else s
    | some w =>
      if windowOver s w || w.props.any (·.core == p.core) then s
      else
        let ps := w.props ++ [p]
        let agreed := w.agreed.orElse fun _ => agreement ps
        let ws := s.faults.windows.map fun x => if x.index = i then { x with props := ps, agreed } else x
        let s := setWindows ws s
        if w.agreed.isNone && agreed.isSome then (s.setFrec i { s.frec i with voted := agreed }).raise 0x0904 i else s
  else s

/-- WARDEN_PROPOSAL: core `core` proposes action `a` on object `o` for record `i`. -/
def wardenProposal (core i a o : Nat) (s : State) : State := propose { core, action := a, object := o } i s

/-- A core is outvoted: it resets and leaves the vote, and what it has proposed in other windows, until the next edge (R212,
R214). -/
def coreOutvoted (s : State) (c : Nat) : State :=
  let f := [R.CRT_WVOTE_W0_OUT, R.CRT_WVOTE_W1_OUT, R.CRT_WVOTE_W2_OUT].getD c R.CRT_WVOTE_W0_OUT
  let s := s.wr f (satTo 8 (s.rd f + 1))
  let s := { s with faults := { s.faults with
    coresOut := c :: s.faults.coresOut
    windows := s.faults.windows.map fun (w : VoteWindow) => { w with props := w.props.filter fun p => p.core != c } } }
  let s := setBit R.CRT_WSTAT_IN_VOTE c false s
  logFault 0x0D 6 c false (s.raise 0x0808 c)

/-- A split of record `i`: the cores propose once more, or after the second the record waits for the next edge (R213,
R237). -/
def splitVote (i : Nat) (s : State) : State :=
  let s := (s.wr R.CRT_WVOTE_SPLITS (satTo 8 (s.rd R.CRT_WVOTE_SPLITS + 1))).raise 0x0809 i
  let r := s.frec i
  let s := s.setFrec i { r with splits := r.splits + 1 }
  if 2 ≤ r.splits + 1 then endHandling (setRecState i 3 s) else s

/-- VOTE_WINDOW_CLOSE: the oldest window closes, 2 µs after it opened (R212, R213). -/
def voteWindowClose (s : State) : State :=
  match s.faults.windows with
  | [] => s
  | w :: ws =>
    if windowOver s w = false then s
    else
    let s := setWindows ws s
    match w.agreed with
    | none => splitVote w.index s
    | some a =>
      let bad := (List.range 3).filter fun c => coreIn s c
        && !w.props.any fun p => p.core == c && p.action == a.1 && p.object == a.2
      bad.foldl coreOutvoted s

/-- The object that a record's action acts on, by the action's level. -/
def actionObject (s : State) (i : Nat) : Nat :=
  let l := s.rd (R.WDN_LOG_W1_LEVEL i)
  let o := s.rd (R.WDN_LOG_W1_OBJECT i)
  let a := (s.frec i).action
  if a = 2 then objCluster l o else if a = 6 then objRegion l o else o

/-- HANDLER_STAGE_END: a core whose integrator handler still runs proposes the built-in action with HOOK_OVERRUN, also when the
other two have agreed and the action is under way or done; a stage without a proposal is a split (R213, R236). A record that has
come to need no vote is done with. -/
def handlerStageEnd (overrun : List Nat) (s : State) : State :=
  match (handlingRec s).orElse fun _ => s.faults.windows.getLast?.map (·.index) with
  | none => s
  | some i =>
    let here := handlingRec s == some i
    if here && (s.frec i).voted.isNone && !needsVote s i then endHandling (settleRecord i s)
    else
      let past := if hooked s (s.rd (R.WDN_LOG_W1_CODE i)) then overrun.eraseDups.filter (coreIn s) else []
      let s := setWindows (s.faults.windows.map fun w =>
        if w.index = i ∧ w.agreed = none then { w with props := w.props.filter fun p => !past.contains p.core } else w) s
      let s := past.foldl (fun s c =>
        propose { core := c, action := (s.frec i).action, object := actionObject s i } i (s.raise 0x0907 i)) s
      if !here || s.faults.windows.any (·.index == i) || (s.frec i).voted.isSome then s else splitVote i s

/-! ### Region resets (R246, R57) -/

/-- A region's supply monitor, which has its domain's number (R514), is outside its window. -/
def regionMonitorOut (s : State) (r : Nat) : Bool :=
  (s.power.monitors.get (fun _ => {}) (regionDomain r)).tripped || !s.rdb (R.PWR_MON_STAT_IN_WINDOW (regionDomain r))

/-- The rejoining units of region `r` begin to hold themselves idle once it has power (R246). -/
def regionPowered (r : Nat) (s : State) : State :=
  let s := { s with faults := { s.faults with resets := s.faults.resets.map fun x =>
    if x.region = r then { x with powered := true } else x } }
  (span (8 * r) 8).foldl (fun s u =>
    s.setUnit u { s.unit u with rejoining := true, canaryDone := false, canaryFailed := false }) s

/-- REGION_RESET_CHECK: 1 ms after the reset the region stays unpowered if its supply is still out, and its record stays
ACTIVE (R246). -/
def regionResetCheck (r : Nat) (s : State) : State :=
  match s.faults.resets.find? (·.region == r) with
  | none => s
  | some x =>
    if x.atNs + 1000000 ≤ s.monoNs && regionMonitorOut s r then unpowerRegion r s else s

/-- A unit rejoins as an idle stand-in (R57, R207), a flue's direct unit too. DESIGN CHOICE (log 100). -/
def rejoinUnit (s : State) (u : Nat) : State :=
  let s := s.setUnit u { s.unit u with withdrawn := false, stopped := false, rejoining := false, outTicks := [] }
  setBit R.GLB_UNIT_STANDIN_IDLE_STANDIN u true (s.wr (R.CRT_UNIT_VOTE_RECENT u) 0)

/-- At an edge: the units that passed their canaries rejoin (R57, R246), the cores out of the vote come back (R214), records
in RETRY may be handled again (R237). -/
def faultsTickEdge (s : State) : State :=
  let back := (List.range 32).filter fun u => (s.unit u).rejoining && (s.unit u).canaryDone && !(s.unit u).canaryFailed
  let s := back.foldl rejoinUnit s
  let past := s.faults.resets.filter fun x => x.powered && !(span (8 * x.region) 8).any fun u => (s.unit u).withdrawn
  let s := past.foldl (fun s x =>
    let s := { s with faults := { s.faults with resets := s.faults.resets.filter (·.region != x.region) } }
    if s.rd (R.WDN_LOG_W1_STATE x.record) = 4 then setRecState x.record 8 s else s) s
  let s := { s with faults := { s.faults with coresOut := [] } }
  let s := s.wr R.CRT_WSTAT_IN_VOTE 7
  let s := s.faults.openRecs.foldl (fun s i =>
    if s.rd (R.WDN_LOG_W1_STATE i) = 3 then s.setFrec i { s.frec i with again := true } else s) s
  let s := (List.range 64).foldl (fun s n => if (s.rect n).lost && !rectLive s n then restoreRect n s else s) s
  checkLost (if back.isEmpty && past.isEmpty then s else refreshHier s)

/-- The cue stall is over: its record closes, unless the Warden has still to handle it (R235). -/
def closeStall (s : State) : State :=
  s.faults.openRecs.foldl (fun s i =>
    if s.rd (R.WDN_LOG_W1_CODE i) = 0x0B ∧ (s.rd (R.WDN_LOG_W1_STATE i) = 4 ∨ needsVote s i = false) then setRecState i 8 s else s) s

/-- A record has stayed QUEUED, HANDLING or RETRY for 64 ticks, and needs an action (R248). -/
def timedOut (s : State) (i : Nat) : Bool :=
  decide (s.rd (R.WDN_LOG_W1_STATE i) ∈ [1, 2, 3]) && (s.frec i).action != 0
    && decide (64 ≤ (s.rd R.TICK_COUNT_COUNT + 2 ^ 32 - (s.frec i).tick) % 2 ^ 32)

/-! ### Detections of composition faults (R230) -/

/-- A canary of unit `u` fails (R43, R46, R198): CLUSTER_CANARY when another unit of the cluster failed in this tick. -/
def canaryFail (u : Nat) (s : State) : State :=
  let other := (span (4 * clusterOf u) 4).any fun v => v != u && (s.unit v).canaryFailed
  let s := s.setUnit u { s.unit u with canaryDone := true, canaryFailed := true }
  let s := s.raise 0x0801 u
  if other then logFault 0x06 1 (clusterOf u) false s else logFault 0x01 0 u false s

/-- Unit `u` still owes the canary of this tick: it is in service or holds itself idle to rejoin, its region powered (R42, R57). -/
def canaryOwed (s : State) (u : Nat) : Bool :=
  let x := s.unit u
  !x.canaryDone && (!x.withdrawn || x.rejoining) && s.powered (regionDomain (regionOf u))

/-- CANARY_SIGNED: the canary of unit `u` has signature `sig`; one signed later than 100 µs before the next edge counts as failed
(R42, R43). -/
def canarySigned (u sig : Nat) (s : State) : State :=
  let late := s.rdb R.TICK_STATUS_RUN && decide (s.tick.nextEdgeNs < s.nowNs + 100000)
  if canaryOwed s u = false then s
  else if !late && sig == (Config.canaryRom (s.rd R.TICK_COUNT_COUNT % 16)).toNat then
    s.setUnit u { s.unit u with canaryDone := true }
  else canaryFail u s

/-- CANARY_DEADLINE: 100 µs before the next edge a canary that is not signed counts as failed (R43). -/
def canaryDeadline (u : Nat) (s : State) : State :=
  if s.rdb R.TICK_STATUS_RUN && canaryOwed s u && decide (s.tick.nextEdgeNs ≤ s.nowNs + 100000) then canaryFail u s else s

/-- UNIT_STALL: a unit that has started an item completes no tile of it for 8 µs. -/
def unitStall (u : Nat) (s : State) : State := if (s.unit u).work.isSome then logFault 0x03 0 u false s else s

/-- A composition fault of cluster `c` (R46). -/
def clusterFault (code c : Nat) (s : State) : State := logFault code 1 c false s

/-- DIE_CLOCK: the composition PLL of die `d` loses lock: one record for each region, in region order (R230, R246). -/
def dieClock (d : Nat) (s : State) : State := logFault 0x09 2 (2 * d + 1) false (logFault 0x09 2 (2 * d) false s)

end Sys2Proof.Machine
end

