-- ==== Sys2Proof/Machine/Vote.lean ====
section
/-!
DEFINITION. The voter of each flue (R195 to R210) and fault injection (R249 to R255).
-/
namespace Sys2Proof.Machine

/-! ### Fault injection -/

/-- A write to an INJ register is denied: a kind that the image does not permit (R249). -/
def injDenied (a : Nat) (s : State) : State := (s.wr R.INJ_PERMIT_DENIED 1).raise 0x1801 a

/-- INJ_RX_CFG_WRITE: path `n`, word `w` (R249, R251): a change of MODE loads the path's LFSR. -/
def injRxCfgWrite (n w : Nat) (s : State) : State :=
  let a := (R.INJ_RX_CFG_MODE n).addr
  let ok := s.rdb (if n < 4 then R.INJ_PERMIT_CRL_RX else R.INJ_PERMIT_ETH_RX)
  if bits w 31 30 ≠ 0 ∧ ok = false then injDenied a s
  else
    let old := s.rd (R.INJ_RX_CFG_MODE n)
    let s := applyWrite a w s
    if bits w 31 30 = old then s
    else { s with inj := { s.inj with lfsr := s.inj.lfsr.set (fun _ => 0) n (max 1 (s.rd R.INJ_SEED_SEED) ^^^ n) } }

/-- INJ_VOTER_WRITE (R249). -/
def injVoterWrite (w : Nat) (s : State) : State :=
  let a := R.INJ_VOTER_ENABLE.addr
  if bitOf w 31 && !s.rdb R.INJ_PERMIT_VOTER then injDenied a s else applyWrite a w s

/-- INJ_DRAM_WRITE (R249); arming with a reserved BITS is ignored. -/
def injDramWrite (w : Nat) (s : State) : State :=
  let a := R.INJ_DRAM_ENABLE.addr
  if bitOf w 31 && !s.rdb R.INJ_PERMIT_DRAM then injDenied a s
  else if bitOf w 31 && (bits w 25 24 == 0 || bits w 25 24 == 3) then s
  else applyWrite a w s

/-- INJ_LANE_WRITE (R249): the bits between errors count from the write. -/
def injLaneWrite (w : Nat) (s : State) : State :=
  let a := R.INJ_LANE_ENABLE.addr
  if bitOf w 31 && !s.rdb R.INJ_PERMIT_LANE then injDenied a s
  else
    let s := applyWrite a w s
    { s with inj := { s.inj with laneNs := s.monoNs } }

/-- INJ_DONE: a COUNT has reached 0 and its kind disarms; `kind` 0 is the voter inputs, 1 DRAM (R254, R255). -/
def injDone (kind : Nat) (s : State) : State :=
  let (en, cnt) := if kind = 0 then (R.INJ_VOTER_ENABLE, R.INJ_VOTER_COUNT) else (R.INJ_DRAM_ENABLE, R.INJ_DRAM_COUNT)
  if s.rdb en && s.rd cnt == 0 then (s.wr en 0).raise 0x1802 en.addr else s

/-- The LFSR of R251 one step on, in the shift-left form of its polynomial (log 17). -/
def lfsrStep (x : Nat) : Nat :=
  let b := b2n ((bitOf x 31 != bitOf x 21) != (bitOf x 1 != bitOf x 0))
  (x * 2 + b) % 2 ^ 32

/-- Sixteen steps of the LFSR: the bits drawn, the first the most significant, and the new value. -/
def lfsrDraw : Nat → Nat → Nat → Nat × Nat
  | 0, acc, x => (acc, x)
  | n + 1, acc, x => lfsrDraw n (acc * 2 + b2n (bitOf x 31)) (lfsrStep x)

/-- What injection does to the next frame of receive path `n` (R250, R251): its MODE when the frame is affected, else 0. -/
def injFrame (n : Nat) (s : State) : Nat × State :=
  let mode := s.rd (R.INJ_RX_CFG_MODE n)
  if mode = 0 then (0, s)
  else
    let (x, l) := lfsrDraw 16 0 (s.inj.lfsr.get (fun _ => 0) n)
    let s := { s with inj := { s.inj with lfsr := s.inj.lfsr.set (fun _ => 0) n l } }
    (if x < s.rd (R.INJ_RX_CFG_RATE n) then mode else 0, s)

/-- A frame passes receive path `n`: the frames held back that it releases come after it (R250); each with whether its check would
pass. -/
def injPass (n : Nat) (s : State) : List (List Byte × Bool) × State :=
  let q := (s.inj.heldBack.get (fun _ => []) n).map fun (p : Nat × List Byte × Bool) => (p.1 - 1, p.2)
  let out := (q.filter fun p => p.1 == 0).map Prod.snd
  (out, { s with inj := { s.inj with heldBack := s.inj.heldBack.set (fun _ => []) n (q.filter fun p => p.1 != 0) } })

/-- Hold a frame of path `n` back until DIST frames have followed it. -/
def injHold (n : Nat) (frame : List Byte × Bool) (s : State) : State :=
  let q := s.inj.heldBack.get (fun _ => []) n
  let d := max 1 (s.rd (R.INJ_RX_CFG_DIST n))
  { s with inj := { s.inj with heldBack := s.inj.heldBack.set (fun _ => []) n (q ++ [(d, frame)]) } }

/-- Bit `i` of some bytes inverted. -/
def flipBit (i : Nat) (b : List Byte) : List Byte := b.modify (i / 8) (· ^^^ BitVec.ofNat 8 (2 ^ (i % 8)))

/-- A frame whose payload lies in `n` bytes from byte `at_` has one bit of it flipped, at a position drawn from the path's generator
(R250; log 120). -/
def injCorrupt (path at_ n : Nat) (f : List Byte) (s : State) : List Byte × State :=
  let (x, l) := lfsrDraw 16 0 (s.inj.lfsr.get (fun _ => 0) path)
  (flipBit (8 * at_ + x % (8 * n)) f, { s with inj := { s.inj with lfsr := s.inj.lfsr.set (fun _ => 0) path l } })

/-- The signature that a unit delivers as the voter receives it, and whether it was corrupted (R250). -/
def injVote (u sig : Nat) (s : State) : Nat × Bool × State :=
  if s.rdb R.INJ_VOTER_ENABLE ∧ s.rd R.INJ_VOTER_UNIT = u ∧ s.rd R.INJ_VOTER_COUNT ≠ 0 then
    (sig ^^^ max 1 (s.rd R.INJ_VOTER_XOR_MASK), true, s.wr R.INJ_VOTER_COUNT (s.rd R.INJ_VOTER_COUNT - 1))
  else (sig, false, s)

/-! ### Outvotes (R202, R205, R206) -/

/-- The outvoted ticks of a unit among the last 64. -/
def recentOuts (s : State) (u : Nat) : List Nat :=
  (s.unit u).outTicks.filter fun t => decide ((s.rd R.TICK_COUNT_COUNT + 2 ^ 32 - t) % 2 ^ 32 < 64)

/-- A unit is outvoted in this tick: the first time raises UNIT_OUTVOTED, and the third outvoted tick within 64 asks for its
withdrawal. -/
def outvote (injected : Bool) (s : State) (u : Nat) : State :=
  let now := s.rd R.TICK_COUNT_COUNT
  if (s.unit u).outTicks.contains now then s
  else
    let l := now :: recentOuts s u
    let s := s.setUnit u { s.unit u with outTicks := l }
    let s := s.wr (R.CRT_UNIT_VOTE_OUT_TICKS u) (satTo 16 (s.rd (R.CRT_UNIT_VOTE_OUT_TICKS u) + 1))
    let s := (s.wr (R.CRT_UNIT_VOTE_RECENT u) (min 3 l.length)).raise 0x0802 u
    if 3 ≤ l.length then logFault 0x02 0 u injected (s.raise 0x0803 u) else s

/-- At an edge RECENT counts the ticks that are still among the last 64. -/
def voteTickEdge (s : State) : State :=
  (List.range 32).foldl (fun s u =>
    if (s.unit u).outTicks.isEmpty then s
    else
      let l := recentOuts s u
      (s.setUnit u { s.unit u with outTicks := l }).wr (R.CRT_UNIT_VOTE_RECENT u) (min 3 l.length)) s

/-! ### Decisions (R199 to R203) -/

/-- The vote of tile `t` in a frame. -/
def FrameRun.vote (r : FrameRun) (t : Nat) : TileVote := r.votes.get (fun _ => {}) t

/-- Set the vote of a tile. -/
def setVote (f serial t : Nat) (v : TileVote) (s : State) : State :=
  modFrame f serial (fun r => { r with votes := r.votes.set (fun _ => {}) t v }) s

/-- The members of rectangle `n` that are not vacant in a sheet. -/
def presentMembers (sh : Sheet) (n : Nat) : List Nat := (List.range 3).filter fun m => sheetMember sh n m != 0xFF

/-- The members of rectangle `n` that take part in a frame: those it had at its start (R199); of a frame that has not started and
whose first bands are composed already (R122), those it has. -/
def FrameRun.membersOf (r : FrameRun) (n : Nat) : List Nat :=
  if r.started then ((r.members.find? (·.1 == n)).map Prod.snd).getD [] else presentMembers r.sheet n

/-- A rectangle had a failed tile in the flue's previous frame. -/
def failedBefore (s : State) (f serial n : Nat) : Bool :=
  let fl := s.flue f
  match (fl.frames.filter fun q => decide (q.serial < serial)).getLast? with
  | some q => q.fails.any (·.1 == n)
  | none => fl.failPrev.contains n

/-- The decision FAIL on tile `t` (R201, R216). In a band that is held the voter's pixels, state and signature are discarded
(R203). -/
def decideFail (f t : Nat) (serial : Nat) (s : State) : State :=
  match frameOf s f serial with
  | none => s
  | some r =>
    match criticalRect r.sheet f t with
    | none => s
    | some n =>
      let v := r.vote t
      let s := setVote f serial t { v with decision := some none } s
      let first := !(r.fails.any (·.1 == n)) && !failedBefore s f serial n
      let s := modFrame f serial (fun r => { r with fails := r.fails.set (fun _ => 0) n (r.fails.get (fun _ => 0) n + 1) }) s
      let s := s.when r.started (·.wr (R.CRT_RECT_STAT_FAIL_LAST n) (satTo 16 (r.fails.get (fun _ => 0) n + 1)))
      let s := s.wr (R.CRT_RECT_STAT_FAIL_TOTAL n) (satTo 16 (s.rd (R.CRT_RECT_STAT_FAIL_TOTAL n) + 1))
      let s := if first then s.raise 0x0804 n else s
      let k := bandOf r.sheet f t
      if bandHeld (r.band k) then s
      else
        let px := (tilePixels r.sheet f t).map fun (x, y) => emberPixel r.sheet f x y
        let s := modBand f serial k (fun b => { b with tiles := b.tiles.set (fun _ => []) t px, written := false }) s
        match frameOf s f serial with
        | none => s
        | some r =>
          let s := reviseTile f serial t (ctxNow s r f t) s
          let s := writeSig f serial t ((v.sigs.head?.map (·.sig)).getD 0) s
          finishBand f serial k (countStates r.sheet f s)

/-! ### The vote store (R196) -/

/-- The address of slot `i` of member `m`'s plane of flue `f`'s vote store, after the last held-stamp array: a slot has room
for 1,024 pixels, and holds a tile's in raster order. DESIGN CHOICE (log 101). -/
def voteSlot (sh : Sheet) (f m i : Nat) : Nat :=
  heldArray sh f (sh.rd (R.CMP_FLUE_HELD_IDX_COUNT f)) + (m * 64 + i) * (1024 * heldPixelBytes sh f)

/-- The slot that member `m` writes its next tile in: the lowest that no tile still to be decided on the flue occupies (log
101). -/
def freeVoteSlot (s : State) (f m : Nat) : Nat :=
  let used := (s.flue f).frames.flatMap fun r => r.votes.flatMap fun p =>
    if p.2.decision.isNone then p.2.sigs.filterMap fun x => if x.member = m then x.slot else none else []
  ((List.range 64).find? fun i => !used.contains i).getD 0

/-- What a unit that delivers signature `sig` has composed for tile `t`, overdraw included: the composition, where the signature is
the composition's own; else something else, which is free (log 18). -/
def memberTile (r : FrameRun) (f t sig : Nat) (s : State) : List Nat × State :=
  let codes := composeTile s.mem.bytes r.sheet f t
  let d := flueDepth r.sheet f
  if tileSig codes = sig then (overdraw r f t codes, s)
  else
    (overdraw r f t (codes.zipIdx.map fun (p : Nat × Nat) =>
        let c (i : Nat) : Nat := (Config.freeValue (s.freeCount + 3 * p.2 + i)).toNat % 2 ^ d
        packCodes (c 0) (c 1) (c 2)),
      { s with freeCount := s.freeCount + 3 * codes.length })

/-- Write the pixels of tile `t` into a slot. -/
def storeVote (sh : Sheet) (f m i : Nat) (px : List Nat) (s : State) : State :=
  s.memWrite (voteSlot sh f m i) (px.flatMap (heldPixel (flueDepth sh f)))

/-- The pixels of tile `t` in a slot. -/
def readVote (s : State) (sh : Sheet) (f t m i : Nat) : List Nat :=
  (List.range (tilePixels sh f t).length).map fun j =>
    storedCodes s (flueDepth sh f) (voteSlot sh f m i + j * heldPixelBytes sh f)

/-! ### Majority and reception (R199, R200, R202) -/

/-- The decision MAJORITY on tile `t` with signature `sig`: the winner's tile goes from the vote store into the band buffer, and
the entry describes it (R165, R200, R202, R209). -/
def decideMajority (f t sig : Nat) (serial : Nat) (s : State) : State :=
  match frameOf s f serial with
  | none => s
  | some r =>
    let v := r.vote t
    let s := setVote f serial t { v with decision := some (some sig) } s
    let k := bandOf r.sheet f t
    match v.sigs.find? (·.sig == sig) with
    | none => s
    | some win =>
      let px := readVote s r.sheet f t win.member (win.slot.getD 0)
      let s := if bandHeld (r.band k) then s
        else
          let s := modBand f serial k (fun b => { b with tiles := b.tiles.set (fun _ => []) t px }) s
          match frameOf s f serial with
          | none => s
          | some r => expCompare f serial t sig
              (countStates r.sheet f (writeSig f serial t sig (reviseTile f serial t (ctxNow s r f t) s)))
      let s := (v.sigs.filter fun x => x.sig != sig).foldl (fun s x => outvote x.injected s x.unit) s
      finishBand f serial k s

/-- The rectangle's vote cannot be won any more for want of members, or by a loss (R199 row 1, R211, R244): decided from the
frame's start on. -/
def voteHopeless (s : State) (r : FrameRun) (n : Nat) : Bool :=
  r.started && (decide ((r.membersOf n).length < 2) || (s.rect n).lost || (s.rect n).forced.isSome || r.lost.contains n)

/-- A signature is received and decides, or is compared with the decision already made (R199, R200, R202). One that comes after a
FAIL, also the first after a FAIL at the frame's start, changes nothing: SIG stays 0. DESIGN CHOICE (log 102). -/
def receiveSig (f t serial : Nat) (x : VoteSig) (s : State) : State :=
  match frameOf s f serial with
  | none => s
  | some r =>
    match criticalRect r.sheet f t with
    | none => s
    | some n =>
      let v := r.vote t
      let k := bandOf r.sheet f t
      if v.sigs.any (fun y => y.member == x.member) || !(r.membersOf n).contains x.member
          || decide (r.deadline f k - 5000 ≤ s.monoNs) then s
      else
        let sigs := v.sigs ++ [x]
        let s := setVote f serial t { v with sigs } s
        match v.decision with
        | some (some m) => if x.sig = m then s else outvote x.injected s x.unit
        | some none => s
        | none =>
          if voteHopeless s r n then decideFail f t serial s
          else if v.sigs.any (·.sig == x.sig) then decideMajority f t x.sig serial s
          else if r.started && sigs.length == (r.membersOf n).length then decideFail f t serial s
          else s

/-- VOTE_SIGNATURE_ARRIVAL: unit `u` has composed tile `t` of flue `f`, of its member item, into the vote store, and its signature
reaches the voter (R196, R199). -/
def voteSignatureArrival (f t u sig : Nat) (s : State) : State :=
  match (s.unit u).work with
  | none => s
  | some w =>
    match frameOf s w.flue w.serial, w.rect with
    | some r, some n =>
      if w.flue = f ∧ criticalRect r.sheet f t = some n ∧ bandOf r.sheet f t = w.band ∧ frameDark s f r = false then
        match memberOf r.sheet n u with
        | none => s
        | some m =>
          let slot := freeVoteSlot s f m
          let (px, s) := memberTile r f t sig s
          let s := storeVote r.sheet f m slot px s
          let (got, inj, s) := injVote u sig s
          receiveSig f t w.serial { member := m, unit := u, sig := got, injected := inj, slot := some slot } s
      else s
    | _, _ => s

/-- A unit is late in this tick (R202, R207). -/
def countLate (s : State) (u : Nat) : State :=
  let now := s.rd R.TICK_COUNT_COUNT
  if (s.unit u).lateTick = some now then s
  else (s.setUnit u { s.unit u with lateTick := some now }).wr (R.CRT_UNIT_VOTE_LATE_TICKS u)
    (satTo 8 (s.rd (R.CRT_UNIT_VOTE_LATE_TICKS u) + 1))

/-- The units that are late on tile `t` at its cut-off: those that hold a member whose signature has not arrived. -/
def lateUnits (r : FrameRun) (f t : Nat) : List Nat :=
  match criticalRect r.sheet f t with
  | none => []
  | some n => ((r.membersOf n).filter fun m => !(r.vote t).sigs.any (·.member == m)).filterMap fun m =>
      let u := sheetMember r.sheet n m
      if u = 0xFF then none else some u

/-- The units that still compose a member item of band `k` of a frame leave it (R41, R195). -/
def abandonItems (f serial k : Nat) (s : State) : State :=
  (List.range 32).foldl (fun s u =>
    match (s.unit u).work with
    | some w => if w.flue = f ∧ w.serial = serial ∧ w.band = k ∧ w.rect.isSome then dropWork u s else s
    | none => s) s

/-- VOTE_CUTOFF: the vote cut-off of band `k` of flue `f`, 5 µs before its deadline (R195, R199 row 4, R202). -/
def voteCutoff (f k : Nat) (s : State) : State :=
  match (s.flue f).frames.find? (fun r => decide (k < r.bands.length) && !(r.band k).cut
      && decide (r.deadline f k - 5000 ≤ s.monoNs)) with
  | none => s
  | some r =>
    let ts := (bandTiles r.sheet f k).filter fun t => (criticalRect r.sheet f t).isSome
    let s := modBand f r.serial k (fun b => { b with cut := true }) s
    if frameDark s f r then s
    else
      let late := (ts.flatMap (lateUnits r f)).eraseDups
      let s := abandonItems f r.serial k (late.foldl countLate s)
      ts.foldl (fun s t =>
        match frameOf s f r.serial with
        | none => s
        | some q => if (q.vote t).decision.isNone then decideFail f t r.serial s else s) s

end Sys2Proof.Machine
end

