-- ==== Sys2Proof/Machine/Layers.lean ====
section
/-!
DEFINITION. Layers at a commit edge (R110 to R116): validity, the critical set they may leave uncovered, host-surface stamps,
the frames that a sheet binds (R92, R94, R99), and the DIRECT requests it honours (R111, R141 to R143, R193).
-/
namespace Sys2Proof.Machine

/-- The committed registers seen as a sheet. -/
def asSheet (s : State) : Sheet := { regs := s.regs, rested := s.rd R.DMP_RESTED_FLUES }

/-- The enabled layers, ascending. -/
def enabledLayers (s : State) : List Nat :=
  s.regs.filterMap fun p =>
    if 0x40000 ≤ p.1 ∧ p.1 < 0x80000 ∧ p.1 % 64 = 0 ∧ bitOf p.2.toNat 31 then some ((p.1 - 0x40000) / 64) else none

/-! ### Validity (R113) -/

/-- Every byte from `a` to before `b` lies in partitions of a use class: adjacent partitions together. -/
def covered (ps : List Partition) : Nat → Nat → Nat → Bool
  | 0, a, b => decide (b ≤ a)
  | n + 1, a, b =>
    if b ≤ a then true
    else
      match ps.find? fun p => decide (p.base ≤ a) && decide (a < p.base + p.size) with
      | some p => covered ps n (p.base + p.size) b
      | none => false

/-- Bytes `a` to `b` lie in the partitions of use class `u` (R327). -/
def inUse (s : State) (u a b : Nat) : Bool := covered (s.mem.partitions.filter (·.use == u)) 33 a b

/-- The bytes of a line of a host surface, and the byte after its last one from its address on (R105). -/
def surfaceLine (fmt w : Nat) : Nat := w * fmtBytes fmt
def surfaceBytes (fmt pitch w h : Nat) : Nat :=
  if 6 ≤ fmt then
    let ch := if 9 ≤ fmt then (h + 1) / 2 else h
    pitch * h + pitch * (ch - 1) + surfaceLine fmt ((w + 1) / 2 * 2)
  else pitch * (h - 1) + surfaceLine fmt w

/-- One scale factor lies in the range of R103. -/
def scaleOk (crop dst : Nat) : Bool := decide (dst ≤ 32 * crop) && decide (crop ≤ 8 * dst)

/-- The kind and index of a layer's source are good (R90, R113 row 0x0410). -/
def kindOk (s : State) (kind ix : Nat) : Bool :=
  match kind with
  | 0 => true
  | 1 => decide (ix < 16) && s.rdb (R.PORT_CFG_ENABLE ix)
  | 2 => decide (ix < 128) && s.rd (R.REEL_CFG_MODE ix) == 0
  | 3 => true
  | 4 => decide (ix < 64) && s.rdb (R.CRL_IMP_CFG_ENABLE ix)
  | 5 => decide (ix < 24)
  | _ => false

/-- The format of a layer is good (R105, R113 row 0x0412). -/
def formatOk (s : State) (l : Nat) : Bool :=
  let fmt := s.rd (R.LYR_SRC_FORMAT l)
  let pitch := s.rd (R.LYR_SRC_PITCH l) * 64
  let even (n : Nat) := n % 2 == 0
  s.rd (R.LYR_BLEND_ALPHA_MODE l) != 3
    && (if s.rd (R.LYR_SRC_KIND l) = 3 then
      decide (fmt < 12) && pitch != 0 && decide (surfaceLine fmt (s.rd (R.LYR_SURF_SIZE_WIDTH_M1 l) + 1) ≤ pitch)
        && (decide (fmt < 6) || (even (s.rd (R.LYR_CROP_POS_X0 l)) && even (s.rd (R.LYR_CROP_SIZE_WIDTH_M1 l) + 1)))
        && (decide (fmt < 9) || (even (s.rd (R.LYR_CROP_POS_Y0 l)) && even (s.rd (R.LYR_CROP_SIZE_HEIGHT_M1 l) + 1)))
    else fmt == 0)

/-- A host surface lies in the partitions of its use class (R113 row 0x0414). -/
def memoryOk (s : State) (l : Nat) : Bool :=
  s.rd (R.LYR_SRC_KIND l) != 3
    || (let a := s.rd (R.LYR_SURF_ADDR_ADDR l) * 64
        inUse s 1 a (a + surfaceBytes (s.rd (R.LYR_SRC_FORMAT l)) (s.rd (R.LYR_SRC_PITCH l) * 64)
          (s.rd (R.LYR_SURF_SIZE_WIDTH_M1 l) + 1) (s.rd (R.LYR_SURF_SIZE_HEIGHT_M1 l) + 1)))

/-- A layer keeps R112 among the enabled layers. -/
def exportOk (s : State) (on : List Nat) (l : Nat) : Bool :=
  !s.rdb (R.LYR_PROBE_EXPORT_EXPORT l)
    || (s.rd (R.LYR_SRC_KIND l) != 4
      && !on.any fun m => decide (m < l) && s.rdb (R.LYR_PROBE_EXPORT_EXPORT m)
        && s.rd (R.LYR_PROBE_EXPORT_EXPORT_SLOT m) == s.rd (R.LYR_PROBE_EXPORT_EXPORT_SLOT l))

/-- Flue pairs (shown on, taken from) of the enabled flue-sourced layers (R114). -/
def pipEdges (s : State) (on : List Nat) : List (Nat × Nat) :=
  on.filterMap fun l =>
    if s.rd (R.LYR_SRC_KIND l) = 5 ∧ s.rd (R.LYR_SRC_INDEX l) < 24 ∧ s.rd (R.LYR_CTRL_FLUE l) < 24
    then some (s.rd (R.LYR_CTRL_FLUE l), s.rd (R.LYR_SRC_INDEX l)) else none

/-- The flues that flue set `fs` depends on in at most `n` steps. -/
def pipReach (es : List (Nat × Nat)) : Nat → List Nat → List Nat
  | 0, fs => fs
  | n + 1, fs => pipReach es n (fs ++ (es.filter fun e => fs.contains e.1 && !fs.contains e.2).map Prod.snd).eraseDups

/-- Layer `l` stands in a chain by which its flue depends on itself (R114). -/
def pipLoop (s : State) (es : List (Nat × Nat)) (l : Nat) : Bool :=
  s.rd (R.LYR_SRC_KIND l) == 5
    && (pipReach es 24 [s.rd (R.LYR_SRC_INDEX l)]).contains (s.rd (R.LYR_CTRL_FLUE l))

/-- The first failing condition of an enabled layer in the order of R113. -/
def layerFault (s : State) (on : List Nat) (es : List (Nat × Nat)) (l : Nat) : Option Nat :=
  let f := s.rd (R.LYR_CTRL_FLUE l)
  let n := s.rd (R.LYR_PROBE_EXPORT_PROBE_COUNT l)
  let w (a b : Fld) := scaleOk (s.rd a + 1) (s.rd b + 1)
  if !kindOk s (s.rd (R.LYR_SRC_KIND l)) (s.rd (R.LYR_SRC_INDEX l)) then some 0x0410
  else if decide (23 < f) || !flueOn (asSheet s) f then some 0x0411
  else if !formatOk s l then some 0x0412
  else if !(w (R.LYR_CROP_SIZE_WIDTH_M1 l) (R.LYR_DST_SIZE_WIDTH_M1 l)
      && w (R.LYR_CROP_SIZE_HEIGHT_M1 l) (R.LYR_DST_SIZE_HEIGHT_M1 l)) then some 0x0413
  else if !memoryOk s l then some 0x0414
  else if decide (4 < n) || decide (1024 < s.rd (R.LYR_PROBE_EXPORT_PROBE_BASE l) + n) then some 0x0415
  else if !exportOk s on l then some 0x0416
  else if pipLoop s es l then some 0x0417
  else none

/-- A critical layer reaches outside the critical set (R110). -/
def critUncovered (s : State) (l : Nat) : Bool :=
  let sh := asSheet s
  let f := s.rd (R.LYR_CTRL_FLUE l)
  s.rdb (R.LYR_CTRL_CRITICAL l) && decide (f < 24)
    && (flueTiles sh f).any fun t => boxesMeet (clipped sh l) (tileBox sh f t)
      && !(rectsOf sh f).any fun n => inRect sh n (t % max 1 (tileCols sh f)) (t / max 1 (tileCols sh f))

/-- The checks of a commit edge on every enabled layer: the events, and the state with each layer's validity (R110, R113). -/
def checkLayers (s : State) : List (Nat × Nat) × State :=
  let on := enabledLayers s
  let es := pipEdges s on
  let evs := on.flatMap fun l =>
    let bad := layerFault s on es l
    (if critUncovered s l then [(0x0402, l)] else [])
      ++ (match bad with | some c => if (s.layer l).invalid.isNone then [(c, l)] else [] | none => [])
  let gone := s.comp.layers.filterMap fun p => if p.2.invalid.isSome && !on.contains p.1 then some p.1 else none
  let s' := on.foldl (fun t l => t.setLayer l { t.layer l with invalid := layerFault s on es l }) s
  (evs, gone.foldl (fun t l => t.setLayer l { t.layer l with invalid := none }) s')

/-! ### Host surfaces and bindings at an edge (R94, R97, R115) -/

/-- A commit unbinds the layers whose KIND or INDEX changed, or all at the first edge (R94, R224), and stamps the host
surfaces, enabled or not, whose CONTENT is 1 at `edge` (R115); CONTENT clears in the live value, and in the shadow unless it was written since
the seal (R221). -/
def commitLayers (all : Bool) (edge : Nat) (s : State) : State :=
  let keyOf (s : State) (l : Nat) : Nat := sourceKey (s.rd (R.LYR_SRC_KIND l)) (s.rd (R.LYR_SRC_INDEX l)) + 1
  let named : List Nat := ((s.regs.filterMap fun (p : Nat × Word) =>
    if 0x40000 ≤ p.1 ∧ p.1 < 0x80000 ∧ p.1 % 64 ≤ 4 then some ((p.1 - 0x40000) / 64) else none)
    ++ s.comp.layers.map Prod.fst).eraseDups
  let s := named.foldl (fun s l =>
    let o := s.layer l
    if all ∨ o.src ≠ keyOf s l then s.setLayer l { o with src := keyOf s l, host := none, bound := none, direct := 0 } else s) s
  named.foldl (fun s l =>
    if s.rdb (R.LYR_CTRL_CONTENT l) && s.rd (R.LYR_SRC_KIND l) == 3 then
      let o := s.layer l
      let s := s.setLayer l { o with host := some { serial := s.comp.serial, stamp := edge } }
      let s := { s with comp := { s.comp with serial := s.comp.serial + 1 } }
      let s := s.wr (R.LYR_CTRL_CONTENT l) 0
      if s.clap.contentSince.contains l then s else s.wrShadow (R.LYR_CTRL_CONTENT l) 0
    else s) s

/-- The stamp of a flue frame under a layer's crop (R99). -/
def flueStamp (s : State) (f l : Nat) (fr : Frame) : Nat × Bool :=
  let sh := asSheet s
  let n := sh.rd (R.CMP_FLUE_HELD_IDX_COUNT f)
  match (List.range n).find? fun b => some (heldBuf sh f b) == fr.place.map Prod.fst with
  | none => (fr.stamp, fr.ancient)
  | some b =>
    let g := layerGeo sh l
    let hs := (tilesUnder sh f g.x0 g.y0 g.cw g.ch).map fun t => readHeld s sh f b t
    (oldestStamp (s.rd R.TICK_EDGE_WUS_WUS) hs).getD (fr.stamp, fr.ancient)

/-- A sheet binds frame `serial` for layer `l` with stamp `stamp` and its ancient flag, which a sweep has set: the flag stays with
the stamp (R156). -/
def boundAncient (s : State) (l serial stamp : Nat) : Bool :=
  (s.tick.building.toList ++ s.tick.current.toList).any fun sh =>
    (boundFrame sh l).any fun fr => fr.ancient && fr.serial == serial && fr.stamp == stamp

/-- The frame that layer `l` binds at an edge (R92, R94, R99, R115, R116). -/
def frameFor (s : State) (l : Nat) : Option Frame :=
  let kind := s.rd (R.LYR_SRC_KIND l)
  let ix := s.rd (R.LYR_SRC_INDEX l)
  match kind with
  | 0 => none
  | 3 => (s.layer l).host.map fun fr =>
      { fr with
        w := s.rd (R.LYR_SURF_SIZE_WIDTH_M1 l) + 1
        h := s.rd (R.LYR_SURF_SIZE_HEIGHT_M1 l) + 1
        fmt := s.rd (R.LYR_SRC_FORMAT l)
        place := some (s.rd (R.LYR_SURF_ADDR_ADDR l) * 64, s.rd (R.LYR_SRC_PITCH l) * 64) }
  | 5 => (newestAt s (sourceKey 5 ix)).map fun fr =>
      let st := flueStamp s ix l fr
      { fr with stamp := st.1, ancient := st.2 || fr.ancient || boundAncient s l fr.serial st.1 }
  | _ => newestAt s (sourceKey kind ix)

/-- Bind the enabled, valid layers: what the sheet holds of each, the events LAYER_BOUND and SOURCE_RESIZED, and the state that
remembers the bindings (R92, R117). -/
def bindLayers (s : State) : List SheetLayer × List (Nat × Nat) × State :=
  let ls := (enabledLayers s).filter fun l => (s.layer l).invalid.isNone
  let bound := ls.map fun l => ({ num := l, frame := frameFor s l } : SheetLayer)
  let evs := bound.flatMap fun b =>
    match b.frame, (s.layer b.num).bound with
    | some _, none => [(0x0403, b.num)]
    | some fr, some (_, w, h) =>
      if (s.rd (R.LYR_SRC_KIND b.num) == 1 || s.rd (R.LYR_SRC_KIND b.num) == 2) && (fr.w != w || fr.h != h)
      then [(0x0404, b.num)] else []
    | none, _ => []
  let s := bound.foldl (fun s b =>
    match b.frame with
    | some fr => s.setLayer b.num { s.layer b.num with bound := some (fr.serial, fr.w, fr.h) }
    | none => s) s
  (bound, evs, s)

/-! ### DIRECT (R111, R141, R143, R193) -/

/-- The fixed offset S of R143 from the tick edge to the sink's start of active video, in ns; lines and pixels are each taken to
the whole ns below. DESIGN CHOICE (log 103). -/
def directOffset (sh : Sheet) (f l period : Nat) : Int :=
  let g := layerGeo sh l
  let pixel (n : Int) : Int := n * period / ((max 1 (vTotal sh f) : Nat) * (max 1 (hTotal sh f) : Nat))
  let lines (n : Int) : Int := n * period / (max 1 (vTotal sh f) : Nat)
  sh.rd (R.CMP_FLUE_PHASE_PHASE_NS f)
    + lines ((vTotal sh f : Int) - vActive sh f + g.y - g.y0 - sh.rd (R.CMP_FLUE_DIRECT_LINE_OFFSET f))
    + pixel ((hTotal sh f : Int) - hActive sh f + g.x - g.x0) - 96

/-- The error of a start of active video at offset `o` from its edge against the nominal offset, taken to the nearest
period. -/
def startError (period : Nat) (nominal : Int) (o : Nat) : Int :=
  let p : Int := (max 1 period : Nat)
  let d := ((o : Int) - nominal).emod p
  if p < 2 * d then d - p else d

/-- The sink of layer `l` is genlocked to flue `f`: its last 8 starts lie within 2 µs of the nominal offset, none of them before
an underrun of the direct path (R146), and its raster
totals are the flue's (R111, R143). -/
def genlocked (s : State) (sh : Sheet) (f l period : Nat) : Bool :=
  let ix := sh.rd (R.LYR_SRC_INDEX l)
  let o := s.source (sourceKey 1 ix)
  let st := o.starts.take 8
  st.length == 8 && decide (8 ≤ o.sinceUnder) && st.all (fun o => decide ((startError period (directOffset sh f l period) o).natAbs ≤ 2000))
    && s.rd (R.PORT_SINK_TOTAL_H_TOTAL ix) == hTotal sh f && s.rd (R.PORT_SINK_TOTAL_V_TOTAL ix) == vTotal sh f

/-- Layer `l` of the sheet may have its DIRECT request honoured, the lower-numbered ones of its flue apart (R111). -/
def directOk (s : State) (sh : Sheet) (l : Nat) : Bool :=
  let f := sh.rd (R.LYR_CTRL_FLUE l)
  let g := layerGeo sh l
  let u := sh.rd (R.CMP_FLUE_DIRECT_UNIT f)
  (boundFrame sh l).isSome && g.cw == g.dw && g.ch == g.dh && sh.rd (R.LYR_SRC_KIND l) == 1
    && sh.rd (R.LYR_CTRL_OPAQUE l) == 1 && sh.rd (R.LYR_CTRL_CRITICAL l) == 0
    && sh.rd (R.CMP_FLUE_CTRL_X2 f) == 0
    && memberServes s u
    && genlocked s sh f l (s.rd R.TICK_PERIOD_NS_PERIOD)
    && !(sh.layers.any fun m => m.num != l && sh.rd (R.LYR_CTRL_FLUE m.num) == f && inFront sh m.num l
        && boxesMeet (clipped sh m.num) (clipped sh l))
    && !(flueTiles sh f).any fun t => (criticalRect sh f t).isSome && boxesMeet (clipped sh l) (tileBox sh f t)

/-- The DIRECT requests that a sheet honours, as (flue, layer). -/
def honoured (s : State) (sh : Sheet) : List (Nat × Nat) :=
  (sh.layers.map (·.num)).foldl (fun acc l =>
    let f := sh.rd (R.LYR_CTRL_FLUE l)
    if sh.rd (R.LYR_CTRL_DIRECT l) = 1 ∧ acc.all (·.1 != f) ∧ directOk s sh l then acc ++ [(f, l)] else acc) []

/-- DIRECT_FALLBACK at the first edge at which a request of an enabled layer, valid or not, that was honoured or is new is not
honoured (R111). -/
def directEvents (sh : Sheet) (s : State) : List (Nat × Nat) × State :=
  let req := (enabledLayers s).filter fun l => s.rd (R.LYR_CTRL_DIRECT l) == 1
  let is (l : Nat) : Bool := sh.direct.any (·.2 == l)
  let evs := req.filterMap fun l => if !is l && (s.layer l).direct != 2 then some (0x0401, l) else none
  let off := s.comp.layers.filterMap fun p => if p.2.direct != 0 && !req.contains p.1 then some p.1 else none
  let s := off.foldl (fun s l => s.setLayer l { s.layer l with direct := 0 }) s
  (evs, req.foldl (fun s l => s.setLayer l { s.layer l with direct := if is l then 1 else 2 }) s)

/-- HONOURED, LAYER and ERR_NS of flue `f` as the published sheet has them; ERR_NS is that of the sink's most recent start of active
video (R143). -/
def refreshDirectOf (sh : Sheet) (s : State) (f : Nat) : State :=
  match directLayer sh f with
  | none => if s.rdb (R.CMP_FLUE_DSTAT_HONOURED f) then
      ((s.wr (R.CMP_FLUE_DSTAT_HONOURED f) 0).wr (R.CMP_FLUE_DSTAT_LAYER f) 0).wr (R.CMP_FLUE_DSTAT_ERR_NS f) 0 else s
  | some l =>
    let period := s.rd R.TICK_PERIOD_NS_PERIOD
    let o := ((s.source (sh.layerKey l)).starts).headD 0
    let e := max (-32767) (min 32767 (startError period (directOffset sh f l period) o))
    ((s.wr (R.CMP_FLUE_DSTAT_HONOURED f) 1).wr (R.CMP_FLUE_DSTAT_LAYER f) l).wr (R.CMP_FLUE_DSTAT_ERR_NS f)
      (e % 65536).toNat

/-- The same of every flue, at an edge or when a sink's frame starts. -/
def refreshDirect (s : State) : State :=
  match s.tick.current with
  | none => s
  | some sh => (List.range 24).foldl (refreshDirectOf sh) s

end Sys2Proof.Machine
end

