-- ==== Sys2Proof/Machine/Sentinel.lean ====
section
/-!
DEFINITION. Liveness probes and the glass sentinel (R176 to R190).
-/
namespace Sys2Proof.Machine

/-! ### Probes (R176 to R179) -/

/-- The layers of a sheet that name probe `p`, bound ones: an unbound layer counts for nothing in R178 and R179. DESIGN CHOICE
(log 104). -/
def probeLayers (sh : Sheet) (p : Nat) : List Nat :=
  sh.layers.filterMap fun l => if l.frame.isSome ∧ p ∈ layerProbes sh l.num then some l.num else none

/-- What tells the sources of layers apart for R179: kind and index, or the address of a host surface. -/
def probeKey (sh : Sheet) (l : Nat) : Nat × Nat :=
  if sh.rd (R.LYR_SRC_KIND l) = 3 then (3, sh.rd (R.LYR_SURF_ADDR_ADDR l)) else (sh.rd (R.LYR_SRC_KIND l), sh.rd (R.LYR_SRC_INDEX l))

/-- The probes that the bound layers of a sheet name. -/
def sheetProbes (sh : Sheet) : List Nat :=
  (sh.layers.flatMap fun l => if l.frame.isSome then layerProbes sh l.num else []).eraseDups

/-- A probe's rectangle in a sheet: left, top, width, height; a size field below 7 acts as 7 (R176). -/
def probeRect (sh : Sheet) (p : Nat) : Nat × Nat × Nat × Nat :=
  (sh.rd (R.SNT_PROBE_POS_X0 p), sh.rd (R.SNT_PROBE_POS_Y0 p), max 7 (sh.rd (R.SNT_PROBE_SIZE_WIDTH_M1 p)) + 1,
    max 7 (sh.rd (R.SNT_PROBE_SIZE_HEIGHT_M1 p)) + 1)

/-- The signature of a probe over a frame (R176, R177). -/
def probeSig (mem : Tab Byte) (sh : Sheet) (p : Nat) (fr : Frame) : Nat :=
  let (x0, y0, w, h) := probeRect sh p
  let ft := frameFetch mem fr
  let c := if fmtYcc fr.fmt then 0 else 1
  let m := min 6 (sh.rd (R.SNT_PROBE_SIZE_MASK p))
  let px := (span y0 h).flatMap fun y => (span x0 w).map fun x => ft.at_ false c (x : Nat) (y : Nat) / 2 ^ m * 2 ^ m
  crc32cWords px

/-- A probe's rectangle lies wholly outside a frame (R179). -/
def probeOutside (sh : Sheet) (p : Nat) (fr : Frame) : Bool :=
  let (x0, y0, _, _) := probeRect sh p
  decide (fr.w ≤ x0) || decide (fr.h ≤ y0)

/-- A line that the cue processors read poisoned lies among the frame lines under the probe (R331). -/
def probeBad (s : State) (sh : Sheet) (p : Nat) (fr : Frame) : Bool :=
  match fr.place with
  | none => false
  | some (a, pitch) =>
    let (_, y0, _, h) := probeRect sh p
    s.tick.badReads.any fun x => decide (a + y0 * pitch ≤ x + 63) && decide (x < a + (y0 + h) * pitch)

/-- The probes that a sheet signs anew: the source is that of the lowest-numbered layer that names the probe (R178, R179). -/
def signProbes (s : State) (sh : Sheet) : List ProbeSign :=
  (sheetProbes sh).filterMap fun p =>
    match (probeLayers sh p).head? with
    | none => none
    | some l =>
      match boundFrame sh l with
      | none => none
      | some fr =>
        let key := sh.layerKey l
        if s.comp.probeSigned.get (fun _ => none) p = some (key, fr.serial) then none
        else some { probe := p, sig := probeSig s.mem.bytes sh p fr, stamp := fr.stamp, key, serial := fr.serial
                    outside := probeOutside sh p fr, bad := probeBad s sh p fr }

/-- A probe's new signature takes effect at the edge that publishes its sheet (R178, R156); a poisoned read leaves SIG and
CHANGE_WUS unchanged for the frame (R331). -/
def applyProbe (s : State) (x : ProbeSign) : State :=
  let first := (s.comp.probeSigned.get (fun _ => none) x.probe).isNone
  let s' := { s with comp := { s.comp with probeSigned := s.comp.probeSigned.set (fun _ => none) x.probe (some (x.key, x.serial)) } }
  if x.bad then (if first then s else s')
  else if first ∨ s.rd (R.SNT_PROBE_SIG_SIG x.probe) ≠ x.sig then
    ((s'.wr (R.SNT_PROBE_SIG_SIG x.probe) x.sig).wr (R.SNT_PROBE_CHANGE_CHANGE_WUS x.probe) x.stamp).wr
      (R.SNT_PROBE_SIZE_ANCIENT x.probe) 0
  else s'

/-- PROBE_OUTSIDE and PROBE_SHARED at an edge, over the published sheet (R179). PROBE_SHARED is raised anew when the sharing has
ended and begins again. DESIGN CHOICE (log 104). -/
def probeEvents (sh : Sheet) (s : State) : List (Nat × Nat) × State :=
  let ps := sheetProbes sh
  let out (p : Nat) : Bool :=
    match (probeLayers sh p).head?.bind (boundFrame sh) with | some fr => probeOutside sh p fr | none => false
  let shared := ps.filter fun p => decide (1 < ((probeLayers sh p).map (probeKey sh)).eraseDups.length)
  let evs := (ps.filter fun p => out p && !s.rdb (R.SNT_PROBE_SIZE_OUTSIDE p)).map (fun p => (0x0704, p))
    ++ (shared.filter fun p => !s.comp.probeShared.contains p).map fun p => (0x0705, p)
  let s := ps.foldl (fun s p => s.wr (R.SNT_PROBE_SIZE_OUTSIDE p) (b2n (out p))) s
  (evs, { s with comp := { s.comp with probeShared := shared } })

/-! ### Chips (R34, R180, R181) -/

/-- The number of ones of a 4-bit number. -/
def popcount4 (x : Nat) : Nat := x % 2 + x / 2 % 2 + x / 4 % 2 + x / 8 % 2

/-- Chip `j` of code `w` is +1 (R181). -/
def chipHigh (w j : Nat) : Bool := popcount4 (w &&& j) % 2 == 0

/-- The index of the chip that a frame carries (R34). -/
def chipIndex (f : Nat) (r : FrameRun) : Nat :=
  if r.sheet.rd (R.CMP_FLUE_CTRL_X2 f) = 1 then (2 * r.tick + r.index) % 16 else r.tick % 16

/-- The sentinel of flue `f` is in use; with code 0 it inserts no patch (R180). -/
def sentinelOn (s : State) (f : Nat) : Bool := s.rdb (R.SNT_FLUE_CFG_ENABLE f)

/-- The time at which the port sends the first pixel of the patch's first line in a frame that starts at `start` (R180,
R184). -/
def patchTime (sh : Sheet) (f start period : Nat) : Nat :=
  let corner := sh.rd (R.SNT_FLUE_CFG_CORNER f)
  let iy := sh.rd (R.SNT_FLUE_PATCH_INSET_Y f)
  let ix := sh.rd (R.SNT_FLUE_PATCH_INSET_X f)
  let y := if corner < 2 then iy else vActive sh f - iy - 24
  let x := if corner % 2 = 0 then ix else hActive sh f - ix - 24
  start + ((vTotal sh f - vActive sh f + y) * max 1 (hTotal sh f) + (hTotal sh f - hActive sh f + x)) * period
    / (max 1 (vTotal sh f) * max 1 (hTotal sh f))

/-- A frame starts with its chip: index and patch time are kept for the last 24 frames. -/
def pushChip (f : Nat) (r : FrameRun) (s : State) : State :=
  let fl := s.flue f
  s.setFlue f { fl with chips := ((chipIndex f r, patchTime r.sheet f r.startNs r.periodNs) :: fl.chips).take 40 }

/-! ### Evaluation (R184 to R187) -/

/-- Numbers of one lag: the scaled means b[j], and the numerator and squared denominator of ρ. -/
structure Corr where
  lag : Nat
  b : List Int
  num : Int
  den2 : Int
  deriving DecidableEq, Repr

/-- The sum and the count of the samples whose windows start in [a, b); window `i` starts at `w0` + 10 000 `i` ns. -/
def windowSum (samples : List Nat) (w0 a b : Nat) : Nat × Nat :=
  samples.zipIdx.foldl (fun acc p =>
    if a ≤ w0 + 10000 * p.2 ∧ w0 + 10000 * p.2 < b then (acc.1 + p.1, acc.2 + 1) else acc) (0, 0)

/-- The correlation at one lag (R184): the means are scaled to a common denominator, which leaves ρ as it is. -/
def correlate (code : Nat) (samples ts : List Nat) (w0 period lag : Nat) : Corr :=
  let sc := ts.map fun t => windowSum samples w0 (t + lag * period) (t + (lag + 1) * period)
  let den := sc.foldl (fun d p => Nat.lcm d (max 1 p.2)) 1
  let b : List Int := sc.map fun p => ((p.1 * (den / max 1 p.2) : Nat) : Int)
  let tot := b.foldl (· + ·) 0
  let e := b.map fun x => 16 * x - tot
  let num := (e.zipIdx.foldl (fun (acc : Int) p => acc + (if chipHigh code p.2 then p.1 else -p.1)) 0)
  { lag, b, num, den2 := 16 * e.foldl (fun acc x => acc + x * x) 0 }

/-- ρ of `x` is larger than ρ of `y`. -/
def corrGreater (x y : Corr) : Bool :=
  let sq (c : Corr) : Int := if c.num < 0 then -(c.num * c.num) else c.num * c.num
  if x.den2 = 0 then decide (y.den2 ≠ 0 ∧ y.num < 0)
  else if y.den2 = 0 then decide (0 < x.num)
  else decide (sq y * x.den2 < sq x * y.den2)

/-- ρ ≥ n / 256. -/
def corrAtLeast (c : Corr) (n : Nat) : Bool :=
  if c.den2 = 0 then n == 0 else decide (0 ≤ c.num) && decide ((n * n : Nat) * c.den2 ≤ 65536 * (c.num * c.num))

/-- RHO: min(floor(ρ × 256), 255), 0 when ρ is negative. -/
def rhoByte (c : Corr) : Nat := ((List.range 256).filter fun n => corrAtLeast c n && c.den2 != 0).length - 1

/-- The latencies of the rising chips at the chosen lag, in ns (R187). -/
def risingLatencies (code : Nat) (samples ts : List Nat) (w0 period : Nat) (c : Corr) : List Nat :=
  let mean (hi : Bool) : Int := (c.b.zipIdx.foldl (fun (acc : Int) p => if chipHigh code p.2 == hi then acc + p.1 else acc) 0)
  let total := mean true + mean false
  let den := ts.zipIdx.foldl (fun (d : Nat) p =>
    Nat.lcm d (max 1 (windowSum samples w0 (p.1 + c.lag * period) (p.1 + (c.lag + 1) * period)).2)) 1
  -- mid is `total` over 16 · den: half the sum of two means over eight chips each
  ts.zipIdx.filterMap fun (t, j) =>
    if chipHigh code ((j + 15) % 16) = false ∧ chipHigh code j = true then
      (samples.zipIdx.find? fun (p : Nat × Nat) =>
        decide (t + c.lag * period ≤ w0 + 10000 * p.2) && decide (w0 + 10000 * p.2 < t + (c.lag + 1) * period)
          && decide (total ≤ (p.1 * 16 * den : Nat))).map fun p => w0 + 10000 * p.2 - t
    else none

/-- The frames of the code period to be evaluated: the patch times t_0 … t_15 of the newest complete period that began 24
frames ago (R184). -/
def periodTimes (fl : FlueState) : Option (List Nat) :=
  let c := fl.chips
  match (c.drop 24).head? with
  | some (0, _) => if (c.drop 9).length < 16 then none else some (((c.drop 9).take 16).map Prod.snd).reverse
  | _ => none

/-- STATE of the sentinel of flue `f`, with its bit of the summary. -/
def setGlass (f st : Nat) (s : State) : State :=
  setBit R.SNT_GLASS_SUMMARY_UNCONFIRMED f (st == 3) (s.wr (R.SNT_FLUE_STAT_STATE f) st)

/-- The confirmation interval starts (again) at this edge (R186, R182). -/
def seekGlass (f : Nat) (s : State) : State :=
  let s := setGlass f 1 (s.wr (R.SNT_FLUE_STAT_SUSPENDED f) 0)
  s.setFlue f { s.flue f with seekTick := s.rd R.TICK_COUNT_COUNT, chips := [] }

/-- A confirming evaluation refines the latency and may raise GLASS_SLOW (R187). -/
def refineLatency (f : Nat) (lats : List Nat) (lag : Nat) (s : State) : State :=
  let s := s.wr (R.SNT_FLUE_STAT_LAG f) lag
  let s := if lats.isEmpty then s
    else
      let n := lats.length
      let sum := lats.foldl (· + ·) 0
      s.wr (R.SNT_FLUE_LAT_LAT_US f) ((2 * sum + 10000 * n) / (20000 * n) * 10)
  let lim := s.rd (R.SNT_FLUE_LIMIT_LAT_MAX_100US f) * 100
  let past := decide (lim ≠ 0) && decide (lim < s.rd (R.SNT_FLUE_LAT_LAT_US f))
  let was := (s.flue f).slow
  let s := s.setFlue f { s.flue f with slow := past }
  if past && !was then s.raise 0x0703 f else s

/-- SENTINEL_EVALUATION: windows of 10 µs are aligned to the timebase (R183); the correlator evaluates flue `f` at the start of frame k0 + 24 from its channel's samples, the first
of which belongs to the first window that starts at or after t_0 (R183 to R187). An unpowered PD6 delivers samples of 0. -/
def sentinelEvaluation (f : Nat) (samples : List Nat) (s : State) : State :=
  if !sentinelOn s f || s.rdb (R.SNT_FLUE_STAT_SUSPENDED f) then s
  else
    match periodTimes (s.flue f) with
    | none => s
    | some ts =>
      let samples := if s.powered 6 then samples else samples.map fun _ => 0
      let code := match s.tick.current with | none => s.rd (R.SNT_FLUE_CFG_CODE f) | some sh => sh.rd (R.SNT_FLUE_CFG_CODE f)
      let period := s.rd R.TICK_PERIOD_NS_PERIOD / (1 + s.rd (R.CMP_FLUE_CTRL_X2 f))
      let w0 := ((((ts.headD 0 : Nat) : Int) + s.time.offset + 9999) / 10000 * 10000 - s.time.offset).toNat
      let cs := (List.range 8).map (correlate code samples ts w0 period)
      let best := cs.foldl (fun (b : Option Corr) c =>
        match b with | none => some c | some x => if corrGreater c x then some c else b) none
      match best with
      | none => s
      | some c =>
        let s := s.wr (R.SNT_FLUE_STAT_RHO f) (rhoByte c)
        if corrAtLeast c (s.rd (R.SNT_FLUE_CFG_THRESH f)) then
          let st := s.rd (R.SNT_FLUE_STAT_STATE f)
          let s := setGlass f 2 (s.wr (R.SNT_FLUE_LAST_LAST_CONFIRM f) (s.rd R.TICK_COUNT_COUNT))
          let s := s.setFlue f { s.flue f with seekTick := s.rd R.TICK_COUNT_COUNT }
          let s := if st = 1 ∨ st = 3 then s.raise 0x0702 f else s
          refineLatency f (risingLatencies code samples ts w0 period c) c.lag s
        else s

/-- GLASS_UNCONFIRMED: at this edge CONFIRM_TICKS have passed without a confirmation (R186). -/
def glassUnconfirmed (f : Nat) (s : State) : State :=
  let st := s.rd (R.SNT_FLUE_STAT_STATE f)
  let lim := max 32 (s.rd (R.SNT_FLUE_LIMIT_CONFIRM_TICKS f))
  let gone := (s.rd R.TICK_COUNT_COUNT + 2 ^ 32 - (s.flue f).seekTick) % 2 ^ 32
  if sentinelOn s f && !s.rdb (R.SNT_FLUE_STAT_SUSPENDED f) && (st == 1 || st == 2) && decide (lim ≤ gone)
  then (setGlass f 3 s).raise 0x0701 f else s

/-- At an edge the sentinels start, stop, are suspended and resume (R182, R186); `before` tells which were in use before the
commit. -/
def sentinelTickEdge (before : Nat → Bool) (sh : Option Sheet) (s : State) : State :=
  (List.range 24).foldl (fun s f =>
    let on := sentinelOn s f
    let dark := match sh with | none => true | some h => !flueOn h f || bitOf h.rested f
    if !on then (if before f then setGlass f 0 (s.wr (R.SNT_FLUE_STAT_SUSPENDED f) 0) else s)
    else if dark then
      let s := if before f then s else setGlass f 1 s
      s.wr (R.SNT_FLUE_STAT_SUSPENDED f) 1
    else if before f = false || s.rdb (R.SNT_FLUE_STAT_SUSPENDED f) then seekGlass f s else s) s

end Sys2Proof.Machine
end

