-- ==== Sys2Proof/Machine/Damper.lean ====
section
/-!
DEFINITION. The damper (R49, R256 to R275): temperatures, the budget of a tick, escalation and relaxation, the thermal
emergency.
-/
namespace Sys2Proof.Machine

/-! ### Temperatures (R257, R516) -/

/-- The sensors of a die: 0 and 1 the compute dies, 2 the IO die (R516). -/
def dieSensors (d : Nat) : List Nat := if d = 0 then span 0 10 else if d = 1 then span 10 10 else span 20 4

/-- The die of a sensor. -/
def sensorDie (i : Nat) : Nat := if i < 10 then 0 else if i < 20 then 1 else 2

/-- A thermal emergency begins (R272). -/
def beginEmergency (die : Nat) (s : State) : State :=
  if s.rdb R.DMP_STATUS_EMERGENCY then s
  else
    let s := { s with damper := { s.damper with coolRun := 0 } }
    (s.wr R.DMP_STATUS_EMERGENCY 1).raise 0x0A07 die

/-- A sensor reads invalid: PWR_SENSOR_FAIL when it was valid, and out of R257 (R516). -/
def sensorFail (i : Nat) (s : State) : State :=
  if s.rdb (R.PWR_TEMP_VALID i) then
    { (s.wr (R.PWR_TEMP_VALID i) 0).raise 0x1904 i with damper := { s.damper with tickMax := s.damper.tickMax.filter (·.1 != i) } }
  else s

/-- The 16-bit two's complement of a number. -/
def twos16 (v : Int) : Nat := (v.emod 65536).toNat

/-- TEMP_SAMPLE: sensor `i` delivers a sample in 1/8 °C (R257, R516, R272). -/
def tempSample (i : Nat) (v : Int) (s : State) : State :=
  if v < -320 ∨ 1200 < v then sensorFail i s
  else
    let s := (s.wr (R.PWR_TEMP_TEMP i) (twos16 v)).wr (R.PWR_TEMP_VALID i) 1
    let old := (s.damper.tickMax.find? (·.1 == i)).map Prod.snd
    let m := match old with | none => v | some o => max o v
    let s := { s with damper := { s.damper with tickMax := (i, m) :: s.damper.tickMax.filter (·.1 != i) } }
    if 880 ≤ v then beginEmergency (sensorDie i) s else s

/-- The valid sensors of a die. -/
def validSensors (s : State) (d : Nat) : List Nat := (dieSensors d).filter fun i => s.rdb (R.PWR_TEMP_VALID i)

/-- The highest sample of a sensor in the tick just ended, its last one where the tick brought none. -/
def sensorMax (s : State) (i : Nat) : Int :=
  ((s.damper.tickMax.find? (·.1 == i)).map Prod.snd).getD (signed 16 (s.rd (R.PWR_TEMP_TEMP i)))

/-- The value of a die in 1/8 °C and its hottest sensor's index within the die (R257, R516). -/
def dieValue (s : State) (d : Nat) : Int × Nat :=
  let vs := validSensors s d
  if d < 2 ∧ vs.length < 2 then (880, 0)
  else
    vs.foldl (fun (b : Int × Nat) i => if b.1 < sensorMax s i then (sensorMax s i, i - (dieSensors d).headD 0) else b)
      (sensorMax s (vs.headD 0), vs.headD ((dieSensors d).headD 0) - (dieSensors d).headD 0)

/-- The registers of a die's value. -/
def dieFlds (d : Nat) : Fld × Fld :=
  if d = 0 then (R.DMP_TEMP_A_MAX_C, R.DMP_TEMP_A_HOTTEST)
  else if d = 1 then (R.DMP_TEMP_B_MAX_C, R.DMP_TEMP_B_HOTTEST) else (R.DMP_TEMP_IO_MAX_C, R.DMP_TEMP_IO_HOTTEST)

/-! ### The budget (R256, R257) -/

/-- P_LIMIT_W within 40 to 135. -/
def powerLimit (s : State) : Nat := max 40 (min 135 (s.rd R.DMP_LIMIT_P_LIMIT_W))

/-- P_therm in 1/8 W for a die value in 1/8 °C (R257). -/
def thermalPower (s : State) (tj : Int) : Int :=
  let knee : Int := (min 105 (s.rd R.DMP_THERM_LIMIT_C) : Nat) - (s.rd R.DMP_THERM_RAMP_C : Nat)
  if tj ≤ 8 * knee then 8 * (powerLimit s : Int)
  else max 0 (8 * (powerLimit s : Int) - (tj - 8 * knee) * (s.rd R.DMP_THERM_SLOPE_W : Nat))

/-- The die values, the budget and the energy of the tick just ended go into the registers (R256 to R258). -/
def damperBudget (energyUj : Nat) (s : State) : State :=
  let vals := (List.range 3).map (dieValue s)
  let s := vals.zipIdx.foldl (fun s (v, d) =>
    ((s.wr (dieFlds d).1 (max 0 (v.1 / 8)).toNat).wr (dieFlds d).2 v.2)) s
  let tj := max (vals.getD 0 (0, 0)).1 (vals.getD 1 (0, 0)).1
  let pt := thermalPower s tj
  let pe := min (8 * (powerLimit s : Int)) pt
  let b := (pe * s.rd R.TICK_PERIOD_NS_PERIOD / 8000).toNat
  let s := (s.wr R.DMP_BUDGET_UJ b).wr R.DMP_ENERGY_UJ energyUj
  s.wr R.DMP_STATUS_THERMAL (b2n (decide (pt < 8 * (powerLimit s : Int))))

/-! ### Reels and their levels (R259, R263 to R266) -/

/-- The layers of the published sheet that name decode reel `r`. -/
def reelLayers (sh : Sheet) (r : Nat) : List Nat :=
  sh.layers.filterMap fun l => if sh.rd (R.LYR_SRC_KIND l.num) = 2 ∧ sh.rd (R.LYR_SRC_INDEX l.num) = r then some l.num else none

/-- Reel `r` is visible: a bound layer of it stands in some visible list of the sheet in use (R259). -/
def reelVisible (s : State) (r : Nat) : Bool :=
  match s.tick.current with
  | none => false
  | some sh => (reelLayers sh r).any fun l =>
      (boundFrame sh l).isSome
        && (let f := sh.rd (R.LYR_CTRL_FLUE l)
            flueOn sh f && (flueTiles sh f).any fun t => (visibleList sh f t).contains l)

/-- An enabled decode reel, and an enabled encode reel. -/
def decodeReel (s : State) (r : Nat) : Bool := s.rdb (R.REEL_CFG_ENABLE r) && s.rd (R.REEL_CFG_MODE r) == 0
def encodeReel (s : State) (r : Nat) : Bool := s.rdb (R.REEL_CFG_ENABLE r) && s.rd (R.REEL_CFG_MODE r) == 1

/-- Action `a` is in force. -/
def inForce (s : State) (a : DmpAction) : Bool := s.damper.actions.any (·.act == a)

/-- An action lowers reel `r`. -/
def lowers (r : Nat) (a : DmpAction) : Bool := match a with | .reduce l _ => l.contains r | _ => false

/-- The level that the step-2 actions in force give reel `r`. -/
def baseLevel (s : State) (r : Nat) : Nat := min 2 (s.damper.actions.filter fun a => lowers r a.act).length

/-- A SOFT kind is deferred: the first step is in force and the kind is not raised to FIRM, or an emergency has deferred that too
(R263, R272). -/
def deferred (s : State) (firm : Fld) : Bool := inForce s .deferFirm || (inForce s .defer && s.rd firm == 0)

/-- The level of reel `r` under R264. -/
def reelLevel (s : State) (r : Nat) : Nat :=
  if encodeReel s r then (if deferred s R.DMP_CLASS_ENCODE_FIRM then 3 else 0)
  else if decodeReel s r then
    (if reelVisible s r = false ∧ deferred s R.DMP_CLASS_HIDDEN_FIRM then 2 else baseLevel s r)
  else 0

/-- The field of reel `r` in DMP_REEL_LEVEL. -/
def levelFld (r : Nat) : Fld :=
  { R.DMP_REEL_LEVEL_LEVELS (r / 16) with hi := 2 * (r % 16) + 1, lo := 2 * (r % 16) }

/-- Insert a number into a descending list. -/
def insertDown (x : Int) : List Int → List Int
  | [] => [x]
  | y :: l => if y < x then x :: y :: l else y :: insertDown x l

/-- The largest stamp interval between consecutive pictures, in the order of their stamps, that level `l` decodes, over the access
units of the last 64 ticks (R265); a level with fewer than two of them has no interval to show, which counts as unbounded (log
19). -/
def stampGap (s : State) (r l : Nat) : Int :=
  let now := s.rd R.TICK_COUNT_COUNT
  let st := ((s.damper.stamps.get (fun _ => []) r).filter fun e =>
    decide ((now + 2 ^ 32 - e.1) % 2 ^ 32 ≤ 64) && decide (l ≤ e.2.2)).map fun e => signed 32 (s.wus + 2 ^ 32 - e.2.1 % 2 ^ 32)
  let o := st.foldl (fun acc x => insertDown x acc) []
  if o.length < 2 then 2 ^ 32 else ((o.zip (o.drop 1)).map fun p => p.1 - p.2).foldl max 0

/-- The slack of visible reel `r` in µs, none where no layer of it lies outside DC15 (R265). -/
def reelSlack (s : State) (sh : Sheet) (r : Nat) : Option Int :=
  let lims := (reelLayers sh r).filterMap fun l => classLimit sh (sh.rd (R.LYR_CTRL_DC l))
  match lims with
  | [] => none
  | x :: xs =>
    let l := baseLevel s r
    let aMax : Int := ((s.damper.ages.get (fun _ => []) r).foldl max 0 : Nat)
    some ((xs.foldl min x : Nat) - (aMax + stampGap s r (l + 1) - stampGap s r l))

/-- `a` comes before `b` in the order of R265: descending slack, unbounded first, then ascending reel. -/
def slackBefore (a b : Nat × Option Int) : Bool :=
  match a.2, b.2 with
  | none, none => decide (a.1 < b.1)
  | none, some _ => true
  | some _, none => false
  | some x, some y => decide (y < x) || (x == y && decide (a.1 < b.1))

def insertSlack (a : Nat × Option Int) : List (Nat × Option Int) → List (Nat × Option Int)
  | [] => [a]
  | b :: l => if slackBefore a b then a :: b :: l else b :: insertSlack a l

/-- The visible reels below level 2. -/
def lowerable (s : State) : List Nat :=
  (List.range 128).filter fun r => decodeReel s r && reelVisible s r && decide (baseLevel s r < 2)

/-- The reels that a step-2 action lowers, and whether one of them is reducible (R265). -/
def step2Reels (s : State) : List Nat × Bool :=
  match s.tick.current with
  | none => ([], false)
  | some sh =>
    let ord := (lowerable s).foldl (fun acc r => insertSlack (r, reelSlack s sh r) acc) []
    let guard : Int := (s.rd R.DMP_CTRL_GUARD_100US * 100 : Nat)
    let ok := ord.filter fun p => match p.2 with | none => true | some x => decide (guard ≤ x)
    let rest := ord.filter fun p => match p.2 with | none => false | some x => decide (x < guard)
    let l := if s.rdb R.DMP_CTRL_STEP2_LIMIT then ok ++ rest else ok
    ((l.take (max 1 (s.rd R.DMP_CTRL_PER_ACTION))).map Prod.fst, !ok.isEmpty)

/-! ### Region clocks (R49, R267) -/

/-- Region `r` holds no bands and no members in the current cue, and no direct unit of an enabled flue. -/
def regionIdle (s : State) (r : Nat) : Bool :=
  let us := span (8 * r) 8
  !us.any (cueHolds s)
    && !(List.range 24).any fun f => s.rdb (R.CMP_FLUE_CTRL_ENABLE f) && us.contains (s.rd (R.CMP_FLUE_DIRECT_UNIT f))

/-- The region clocks as step 3 gives them. -/
def refreshClocks (s : State) : State :=
  let on := inForce s .clock
  (List.range 4).foldl (fun s r =>
    let c := if on && regionIdle s r then (if (span (8 * r) 8).any (idleStandin s) then 2 else 3) else 0
    if s.rd (clockFld r) = c then s else setClock r c s) s

/-! ### Resting flues (R268) -/

/-- The resting order. -/
def restOrder (s : State) : List Nat :=
  (List.range 24).filterMap fun k =>
    let w := (s.word (R.DMP_REST_ORDER_VALID0 (k / 4)).addr).toNat
    if bitOf w (8 * (k % 4) + 7) then some (bits w (8 * (k % 4) + 4) (8 * (k % 4))) else none

/-- A flue that may be rested. -/
def restable (s : State) (f : Nat) : Bool :=
  s.rdb (R.CMP_FLUE_CTRL_ENABLE f) && s.rd (R.CMP_FLUE_VTIME_V_TOTAL f) != 0 && !bitOf (s.rd R.DMP_RESTED_FLUES) f

/-- Put an action in force. -/
def pushAction (emergency : Bool) (a : DmpAction) (s : State) : State :=
  { s with damper := { s.damper with actions := { act := a, emergency } :: s.damper.actions } }

/-- Rest flue `f` at this edge. -/
def restFlue (emergency : Bool) (f : Nat) (s : State) : State :=
  let s := pushAction emergency (.rest f) (setBit R.DMP_RESTED_FLUES f true s)
  { s with damper := { s.damper with
    announcing := (f, s.rd R.TICK_COUNT_COUNT) :: s.damper.announcing.filter (·.1 != f) } }

/-! ### Actions -/

/-- The step of an action. -/
def actionStep : DmpAction → Nat
  | .defer => 1
  | .deferFirm => 1
  | .reduce _ _ => 2
  | .clock => 3
  | .rest _ => 4

/-- One escalation (R261): the events, the step taken or 0 for none, and the state. BLOCKED follows each attempt of step 2. -/
def escalateDamper (s : State) : List (Nat × Nat) × Nat × State :=
  if !inForce s .defer && !inForce s .deferFirm then ([], 1, pushAction false .defer s)
  else
    let (reels, some_) := step2Reels s
    let s := s.wr R.DMP_STATUS_BLOCKED (b2n (!some_))
    let lim := s.rdb R.DMP_CTRL_STEP2_LIMIT
    if !reels.isEmpty then ([], 2, pushAction false (.reduce reels (!lim)) s)
    else
      let evs := if lim then [] else [(0x0A05, (lowerable s).length)]
      if !inForce s .clock && (List.range 4).any (regionIdle s) then (evs, 3, pushAction false .clock s)
      else
        match (restOrder s).find? (restable s) with
        | some f => (evs ++ [(0x0A03, f)], 4, restFlue false f s)
        | none =>
          if s.rdb R.DMP_STATUS_EXHAUSTED then (evs, 0, s)
          else (evs ++ [(0x0A06, 0)], 0, s.wr R.DMP_STATUS_EXHAUSTED 1)

/-- What follows when an action is in force no more (R270). -/
def endAction (a : DmpAction) (s : State) : List (Nat × Nat) × State :=
  match a with
  | .rest f =>
    ([(0x0A04, f)], setBit R.DMP_RESTED_FLUES f false
      { s with damper := { s.damper with announcing := s.damper.announcing.filter (·.1 != f) } })
  | _ => ([], s)

/-- Undo the most recent action in force (R270). -/
def undoAction (s : State) : List (Nat × Nat) × State :=
  match s.damper.actions with
  | [] => ([], s)
  | a :: as => endAction a.act { s.wr R.DMP_STATUS_EXHAUSTED 0 with damper := { s.damper with actions := as } }

/-- Undo every budget action in force, the most recent first; those that an emergency took stay (R271). -/
def undoBudget (s : State) : List (Nat × Nat) × State :=
  let gone := s.damper.actions.filter fun a => !a.emergency
  let s := { s.wr R.DMP_STATUS_EXHAUSTED 0 with damper := { s.damper with
    actions := s.damper.actions.filter (·.emergency) } }
  gone.foldl (fun acc a =>
    let (e, s) := endAction a.act acc.2
    (acc.1 ++ e, s)) ([], s)

/-- Raise one level each of the reels that R266 corrects: the latest action under STEP2_LIMIT = 0 that lowered each forgets it. -/
def correctReels (rs : List Nat) (s : State) : State :=
  let drop1 (r : Nat) (l : List DmpTaken) : List DmpTaken :=
    let i := l.findIdx fun a => match a.act with | .reduce x true => x.contains r | _ => false
    l.zipIdx.map fun p => if p.2 = i then
      (match p.1.act with | .reduce x k => { p.1 with act := .reduce (x.filter (· != r)) k } | _ => p.1) else p.1
  { s with damper := { s.damper with actions := rs.foldl (fun l r => drop1 r l) s.damper.actions } }

/-- The four steps of an edge in an emergency (R272). -/
def emergencyEdge (s : State) : List (Nat × Nat) × State :=
  let s := s.when (!inForce s .deferFirm) (pushAction true .deferFirm)
  let vis := (List.range 128).filter fun r => decodeReel s r && reelVisible s r
  let zero := vis.filter fun r => baseLevel s r == 0
  let s := s.when (!zero.isEmpty) (pushAction true (.reduce zero false))
  let low := vis.filter fun r => baseLevel s r == 1
  let s := s.when (!low.isEmpty) (pushAction true (.reduce low false))
  let s := s.when (!inForce s .clock) (pushAction true .clock)
  let order := restOrder s ++ ((List.range 24).reverse.filter fun f => !(restOrder s).contains f)
  match order.find? (restable s) with
  | some f => ([(0x0A03, f)], restFlue true f s)
  | none => ([], s)

/-- The registers of a reel show a level of R264; an encode reel reads DEFERRED at level 3 (R305). -/
def setLevel (s : State) (p : Nat × Nat) : State :=
  let (r, v) := p
  let s := (s.wr (levelFld r) v).wr (R.REEL_STATUS_LEVEL r) v
  if s.rd (R.REEL_CFG_MODE r) = 1 ∧ (s.enc r).up then
    s.wr (R.ENC_STATUS_STATE r) (if v = 3 then 3 else if (s.enc r).refSize.isSome then 2 else 1)
  else s

/-- The level of reel `r` in the sheet in use (R262). -/
def levelNow (s : State) (r : Nat) : Nat :=
  match s.tick.current with
  | none => 0
  | some sh => ((sh.levels.find? (·.1 == r)).map Prod.snd).getD 0

/-- A sheet's levels take effect with its publication: a decode reel that returns from level 2 waits for an intra picture (R264);
with encoding deferred, frames that wait for an engine start no more, and are counted (R263). `old` are the levels before. -/
def takeLevels (old : Nat → Nat) (s : State) : State :=
  let back := (List.range 128).filter fun r => decodeReel s r && old r == 2 && decide (levelNow s r < 2)
  let s := back.foldl (fun s r => s.setReel r { s.reel r with needIntra := true }) s
  let cut := (List.range 128).filter fun e => encDeferred s && (s.enc e).ready.isSome
  cut.foldl (fun s e => (s.setEnc e { s.enc e with ready := none, gap := true }).wr R.DMP_SOFT_SKIP_ENC_FRAMES
    (satTo 16 (s.rd R.DMP_SOFT_SKIP_ENC_FRAMES + 1))) s

/-- The registers that follow the actions in force: levels, STAGE, clocks, counts; with DMP_STAGE and DMP_REEL_LEVEL. -/
def refreshDamper (s : State) : List (Nat × Nat) × State :=
  let lv := (List.range 128).map fun r => (r, reelLevel s r)
  let ch := lv.filter fun p => s.rd (levelFld p.1) != p.2
  let s := ch.foldl setLevel s
  let stage := (s.damper.actions.map fun a => actionStep a.act).foldl max 0
  let evs := ch.map (fun p => (0x0A02, p.1)) ++ if s.rd R.DMP_STATUS_STAGE = stage then [] else [(0x0A01, stage)]
  let s := s.wr R.DMP_STATUS_STAGE stage
  let s := s.wr R.DMP_STATUS_REELS_REDUCED (lv.filter fun p => decodeReel s p.1 && reelVisible s p.1 && p.2 != 0).length
  let n := ((List.range 24).filter fun f => bitOf (s.rd R.DMP_RESTED_FLUES) f).length
  (evs, refreshClocks (s.wr R.DMP_STATUS_RESTED n))

/-- The ages of the reels' layers at this edge join the last 64, an edge at which a reel has no layer outside DC15 as 0 (R265);
the reels to be corrected at the next edge are those lowered under STEP2_LIMIT = 0 that put a tile into EMBER through row 5
(R266). -/
def noteReels (las : List LayerAge) (s : State) : State :=
  match s.tick.current with
  | none => s
  | some sh =>
    let rs := (List.range 128).filter (decodeReel s)
    let s := rs.foldl (fun s r =>
      let a := ((reelLayers sh r).filter fun l => sh.rd (R.LYR_CTRL_DC l) != 15).map fun l => (findAge las l).age
      let new := (a.foldl max 0 :: s.damper.ages.get (fun _ => []) r).take 64
      { s with damper := { s.damper with
        ages := s.damper.ages.set (fun _ => []) r (if new.all (· == 0) then [] else new) } }) s
    let strict (r : Nat) : Bool := s.damper.actions.any fun a => match a.act with | .reduce l true => l.contains r | _ => false
    let bad := rs.filter fun r => strict r && (reelLayers sh r).any fun l => (s.layer l).overPrev
    { s with damper := { s.damper with correct := bad } }

/-- The escalation threshold is exceeded, and E lies below the relaxation threshold (R260). -/
def overBudget (s : State) : Bool :=
  decide (s.rd R.DMP_BUDGET_UJ * (256 - s.rd R.DMP_LIMIT_MARGIN) < s.rd R.DMP_ENERGY_UJ * 256)
def underBudget (s : State) : Bool :=
  decide ((s.rd R.DMP_ENERGY_UJ * 256 : Int) < (s.rd R.DMP_BUDGET_UJ : Int)
    * (256 - (s.rd R.DMP_LIMIT_MARGIN : Int) - (s.rd R.DMP_LIMIT_HYST : Int)))

/-- Set the wait and the count of relaxed edges. -/
def setWait (w r : Nat) (s : State) : State := { s with damper := { s.damper with wait := w, relaxRun := r } }

/-- A commit that clears ENABLE undoes the budget actions (R271). -/
def damperOff (wasOn : Bool) (s : State) : List (Nat × Nat) × State :=
  if wasOn && !s.rdb R.DMP_CTRL_ENABLE then undoBudget s else ([], s)

/-- What the damper decides at an edge (R260, R266, R271, R272): the events and the state. While ENABLE is 0 it takes no budget
action, and only the relaxation of what an emergency left goes on. -/
def damperDecide (wasOn : Bool) (s : State) : List (Nat × Nat) × State :=
  let (e0, s) := damperOff wasOn s
  let d := s.damper
  let on := s.rdb R.DMP_CTRL_ENABLE
  if s.rdb R.DMP_STATUS_EMERGENCY then
    let (e, s) := emergencyEdge s
    (e0 ++ e, setWait 0 0 s)
  else if on && !d.correct.isEmpty then (e0, setWait 1 0 (correctReels d.correct s))
  else if on && d.wait != 0 then (e0, setWait (d.wait - 1) 0 s)
  else if on && overBudget s then
    let (e, step, s) := escalateDamper s
    (e0 ++ e, setWait (if step = 4 then 2 else if step = 0 then 0 else 1) 0 s)
  else if underBudget s then (e0, setWait 0 (d.relaxRun + 1) s)
  else (e0, setWait 0 0 s)

/-- Every valid sensor read 105 °C or less in the tick just ended, and no die lacks its two sensors (R272). -/
def coolTick (s : State) : Bool := (List.range 3).all fun d => decide ((dieValue s d).1 ≤ 840)

/-- The damper at an edge: budget, emergency, decision, registers. `wasOn` is ENABLE before the commit. -/
def damperTickEdge (energyUj : Nat) (wasOn : Bool) (las : List LayerAge) (s : State) : List (Nat × Nat) × State :=
  let hot := (List.range 2).find? fun d => decide ((validSensors s d).length < 2)
  let s := match hot with | some d => beginEmergency d s | none => s
  let cool := coolTick s
  let s := damperBudget energyUj s
  let s := { s with damper := { s.damper with tickMax := [], coolRun := if cool then s.damper.coolRun + 1 else 0 } }
  let (e1, s) := damperDecide wasOn s
  let s := noteReels las s
  let (e2, s) := refreshDamper s
  (e1 ++ e2, s)

/-- The damper's part of a sheet that is built from the present edge (R262, R263, R264, R268). -/
def damperSheet (s : State) (sh : Sheet) : Sheet :=
  let ann := (s.damper.announcing.filter fun p => p.2 == s.rd R.TICK_COUNT_COUNT).map Prod.fst
  let annMask := ann.eraseDups.foldl (fun m f => m + 2 ^ f) 0
  { sh with
    announce := annMask
    rested := s.rd R.DMP_RESTED_FLUES - (s.rd R.DMP_RESTED_FLUES &&& annMask)
    deferSig := deferred s R.DMP_CLASS_SIG_FIRM
    deferEnc := deferred s R.DMP_CLASS_ENCODE_FIRM
    deferScrub := deferred s R.DMP_CLASS_SCRUB_FIRM
    levels := (List.range 128).filterMap fun r => if reelLevel s r = 0 then none else some (r, reelLevel s r) }

/-- After a decision between edges the sheet that is being built follows it. -/
def rebuildDamper (s : State) : State :=
  { s with tick := { s.tick with building := s.tick.building.map (damperSheet s) } }

/-- DAMPER_RELAX: E has lain below the relaxation threshold at RELAX_TICKS edges in a row: one action is undone and the count
begins again (R260, R270). -/
def damperRelax (s : State) : State :=
  let lim := max 1 (s.rd R.DMP_RELAX_RELAX_TICKS)
  if s.damper.relaxRun < lim ∨ s.damper.actions.isEmpty ∨ s.rdb R.DMP_STATUS_EMERGENCY then s
  else
    let (e1, s) := undoAction (setWait 0 0 s)
    let (e2, s) := refreshDamper s
    checkLost (rebuildDamper (raiseEdges (e1 ++ e2) s))

/-- THERM_CLEAR: every sensor has read 105 °C or less for 64 edges in a row, and the emergency ends (R272). -/
def thermClear (s : State) : State :=
  if s.rdb R.DMP_STATUS_EMERGENCY && decide (64 ≤ s.damper.coolRun) then
    let (e, s) := refreshDamper (s.wr R.DMP_STATUS_EMERGENCY 0)
    rebuildDamper (raiseEdges ((0x0A08, 0) :: e) s)
  else s

/-- Capture stops on a sink whose layers all lie on rested flues while an emergency lasts (R272). -/
def captureStopped (s : State) (sink : Nat) : Bool :=
  let ls := (enabledLayers s).filter fun l => s.rd (R.LYR_SRC_KIND l) == 1 && s.rd (R.LYR_SRC_INDEX l) == sink
  s.rdb R.DMP_STATUS_EMERGENCY && !ls.isEmpty
    && ls.all fun l => restedNow s (s.rd (R.LYR_CTRL_FLUE l))

end Sys2Proof.Machine
end

