-- ==== Sys2Proof/Machine/EncInput.lean ====
section
/-!
DEFINITION. What an encode reel is made of and what it codes (R302, R303, R307, R310, R312, R313, R321): its configuration, the
samples of a frame, the composition hints, the QP of each block, the target of a frame.
-/
namespace Sys2Proof.Machine

/-- Bytes of a slot of a picture buffer for a size and `b` bytes a sample, without its last part (R278). -/
def planeBytes (w h b : Nat) : Nat := pageUp (w * h * b) + pageUp (w * h * b / 2)

/-- The coded size of an encode reel (R303). -/
def codedSize (s : State) (e : Nat) : Nat × Nat :=
  let d := s.rd (R.ENC_SRC_SCALE e) + 1
  ((s.rd (R.ENC_RECT_SIZE_WIDTH_M1 e) + 1) / d, (s.rd (R.ENC_RECT_SIZE_HEIGHT_M1 e) + 1) / d)

/-- The side of a QP block: 32 in HEVC, 16 in AVC (R312). -/
def qpSide (s : State) (e : Nat) : Nat := if s.rd (R.REEL_CFG_CODEC e) = 0 then 32 else 16

/-- QP blocks in a row of the coded picture, and its rows (R312, R314). -/
def qpGrid (s : State) (e : Nat) : Nat × Nat :=
  let (w, h) := codedSize s e
  ((w + qpSide s e - 1) / qpSide s e, (h + qpSide s e - 1) / qpSide s e)

/-- The fill bound of a row (R316). -/
def fillBound (n : Nat) (idr : Bool) : Nat := 16 + (if idr then 8 else 1) * n

/-- The words of an encode reel that a frame is coded and sent with: GOP, RATE, CAP, QP, NET, DST0 to DST3, SSRC, then the
three words of each ROI. -/
def encWords (s : State) (e : Nat) : List Nat :=
  ([R.ENC_GOP_GOP_LEN e, R.ENC_RATE_BITRATE_KBPS e, R.ENC_CAP_CAP_BYTES e, R.ENC_QP_CRIT_QP e, R.ENC_NET_PT e, R.ENC_DST_ADDR e 0,
    R.ENC_DST_ADDR e 1, R.ENC_DST_ADDR e 2, R.ENC_DST_ADDR e 3, R.ENC_SSRC_SSRC e]
    ++ (List.range 16).flatMap fun n => [R.ENC_ROI_POS_X0 e n, R.ENC_ROI_SIZE_WIDTH_M1 e n, R.ENC_ROI_CTRL_QP_OFF e n]).map
    fun f => (s.word f.addr).toNat

/-- Bits are counted in this many parts, of which the frame rates of R12 and their doubles make whole numbers. -/
def bitParts : Nat := 2880000

/-- T_base of R313 in parts of a bit: the bits of one due frame at the bit rate, on a flue with the tick's rate or, with X2,
twice it. -/
def tBase (s : State) (e : Nat) (words : List Nat) : Nat :=
  let rate := rateFrac (s.rd R.TICK_CFG_RATE)
  let mul := s.rd (R.CMP_FLUE_CTRL_X2 (s.rd (R.ENC_SRC_FLUE e))) + 1
  words.getD 1 0 % 2 ^ 24 * 1000 * s.rd (R.ENC_SRC_DIV e) * rate.2 * (bitParts / (rate.1 * mul))

/-- cap_bits of R313 in parts of a bit. -/
def capParts (s : State) (e : Nat) (words : List Nat) : Nat :=
  let c := words.getD 2 0 % 2 ^ 24
  if c = 0 then 4 * tBase s e words else c * 8 * bitParts

/-- The target of a frame in parts of a bit (R313). -/
def frameTarget (s : State) (e : Nat) (words : List Nat) (idr : Bool) : Nat :=
  let tb := tBase s e words
  let ratio := max 4 (min 60 (bits (words.headD 0) 23 16))
  let w4 := if idr then ratio else 4
  min (max (tb * w4 / 4 - (s.enc e).carry) (tb / 4)) (capParts s e words)

/-- An encode reel with the same source flue is enabled, other than `e`, and has started. -/
def encsOn (s : State) (f e : Nat) : Nat :=
  ((List.range 128).filter fun x => x != e && encodeReel s x && (s.enc x).up && s.rd (R.ENC_SRC_FLUE x) == f).length

/-- Encode reel `e` cannot start (R303, R321). -/
def encBadCfg (s : State) (e : Nat) : Bool :=
  let f := s.rd (R.ENC_SRC_FLUE e)
  let codec := s.rd (R.REEL_CFG_CODEC e)
  let (x0, y0) := (s.rd (R.ENC_RECT_POS_X0 e), s.rd (R.ENC_RECT_POS_Y0 e))
  let (w, h) := (s.rd (R.ENC_RECT_SIZE_WIDTH_M1 e) + 1, s.rd (R.ENC_RECT_SIZE_HEIGHT_M1 e) + 1)
  let (cw, ch) := codedSize s e
  let blocks := (cw + 15) / 16 * ((ch + 15) / 16)
  let words := encWords s e
  let (n, rows) := qpGrid s e
  let a := s.rd (R.REEL_BUF_BASE_ADDR e) * 64
  let slot := planeBytes cw ch 1 + pageUp (64 + 8 * blocks)
  let ring := s.rd (R.ENC_RING_BASE_ADDR e) * 64
  decide (2 ≤ codec) || s.rd (R.ENC_SRC_DIV e) == 0 || decide (24 ≤ f)
    || decide (x0 % 32 ≠ 0) || decide (y0 % 32 ≠ 0) || decide (w % 8 ≠ 0) || decide (h % 8 ≠ 0)
    || decide (w < 256) || decide (h < 128)
    || decide (s.rd (R.CMP_FLUE_HTIME_H_ACTIVE f) < x0 + w) || decide (s.rd (R.CMP_FLUE_VTIME_V_ACTIVE f) < y0 + h)
    || decide (4096 < cw) || decide (2304 < ch)
    || (if codec = 0 then decide (8912896 < cw * ch) else decide (36864 < blocks))
    || decide (words.getD 1 0 % 2 ^ 24 = 0)
    || decide (capParts s e words < (256 * 8 + rows * fillBound n true) * bitParts)
    || decide (a % 4096 ≠ 0) || decide (ring % 4096 ≠ 0) || decide (s.rd (R.ENC_RING_SIZE_SIZE_4K e) < 16)
    || !inUse s 5 a (a + 2 * slot) || !inUse s 5 ring (ring + s.rd (R.ENC_RING_SIZE_SIZE_4K e) * 4096)
    || decide (s.rd (R.CMP_FLUE_HELD_IDX_COUNT f) - 5 ≤ encsOn s f e)

/-- The next frame is coded as an IDR picture (R317). -/
def codesIdr (s : State) (e : Nat) : Bool :=
  let st := s.enc e
  let g := s.rd (R.ENC_GOP_GOP_LEN e)
  st.idrReq || st.lostBefore || (st.refSize.any fun z => z != codedSize s e)
    || match st.sinceIdr with
       | none => true
       | some n => g != 0 && decide (g ≤ n)

/-! ### From held copy to coded samples (R306, R307) -/

/-- The 10-bit codes (red, green, blue) of a pixel of the held copy. -/
def heldCodes10 (s : State) (sh : Sheet) (f b x y : Nat) : List Nat :=
  let d := flueDepth sh f
  (unpackCodes (heldCodes s sh f b x y)).map fun v => if d = 12 then v / 4 else if d = 8 then v * 4 else v

/-- A coded pixel: a pixel of the rectangle, or the average of 2 × 2 of them, rounded half up (R303). -/
def codedPixel (s : State) (sh : Sheet) (f b e x y : Nat) : List Nat :=
  let (x0, y0) := (s.rd (R.ENC_RECT_POS_X0 e), s.rd (R.ENC_RECT_POS_Y0 e))
  if s.rd (R.ENC_SRC_SCALE e) = 0 then heldCodes10 s sh f b (x0 + x) (y0 + y)
  else
    let ps := [(0, 0), (1, 0), (0, 1), (1, 1)].map fun (d : Nat × Nat) =>
      heldCodes10 s sh f b (x0 + 2 * x + d.1) (y0 + 2 * y + d.2)
    (List.range 3).map fun c => ((ps.map fun p => p.getD c 0).foldl (· + ·) 0 + 2) / 4

/-- Kr and Kb of R307 in 1/10000. -/
def lumaWeights (sh : Sheet) (f : Nat) : Int × Int :=
  if sh.rd (R.CMP_FLUE_CTRL_BT2020 f) = 1 then (2627, 593) else (2126, 722)

/-- num / den rounded to the nearest, halves upward, for a positive den. -/
def roundHalfUp (num den : Int) : Int := (2 * num + den) / (2 * den)

/-- 10000 times the luma of a sum of pixels. -/
def lumaSum (k : Int × Int) (p : List Nat) : Int :=
  k.1 * (p.getD 0 0 : Nat) + (10000 - k.1 - k.2) * (p.getD 1 0 : Nat) + k.2 * (p.getD 2 0 : Nat)

/-- The luma sample of a coded pixel (R307). -/
def lumaSample (k : Int × Int) (p : List Nat) : Nat := (16 + roundHalfUp (219 * lumaSum k p) (10000 * 1023)).toNat

/-- A chroma sample of a 2 × 2 block whose pixels sum to `p`: blue difference for c = 2, red difference for c = 0 (R307). -/
def chromaSample (k : Int × Int) (c : Nat) (p : List Nat) : Nat :=
  let kc := if c = 2 then k.2 else k.1
  (128 + roundHalfUp (112 * (10000 * (p.getD c 0 : Nat) - lumaSum k p)) (4 * (10000 - kc) * 1023)).toNat

/-- The samples of a frame: luma in raster order, then Cb and Cr of each 2 × 2 block (R306, R307). -/
def codedSamples (s : State) (e : Nat) (fr : EncFrame) : List Nat :=
  let sh := asSheet s
  let f := s.rd (R.ENC_SRC_FLUE e)
  let (w, h) := codedSize s e
  let k := lumaWeights sh f
  if fr.dark then List.replicate (w * h) 16 ++ List.replicate (w * h / 2) 128
  else
    let px := fun (x y : Nat) => codedPixel s sh f fr.buffer e x y
    let luma := (List.range (w * h)).map fun i => lumaSample k (px (i % w) (i / w))
    let chroma := (List.range (w / 2 * (h / 2))).flatMap fun i =>
      let (x, y) := (i % (w / 2) * 2, i / (w / 2) * 2)
      let ps := [px x y, px (x + 1) y, px x (y + 1), px (x + 1) (y + 1)]
      let sum := (List.range 3).map fun c => (ps.map fun p => p.getD c 0).foldl (· + ·) 0
      [chromaSample k 2 sum, chromaSample k 0 sum]
    luma ++ chroma

/-! ### Composition hints (R310) -/

/-- A hint component `num / den` in quarter-pel, halved with SCALE, halves rounded away from zero. -/
def quarterPel (scale : Nat) (num : Int) (den : Nat) : Int := roundAway (4 * num) (den * (scale + 1))

/-- The hints of a block from the dominant layers of the reference frame and of this one. -/
def blockHints (scale : Nat) (ref cur : List Int) : List (Int × Int) :=
  match ref, cur with
  | [l, x, y, x0, y0, cw, dw, ch, dh], [l', x', y', x0', y0', cw', dw', ch', dh'] =>
    if l = l' ∧ dw * cw' = dw' * cw ∧ dh * ch' = dh' * ch then
      let h1 := (x - x', y - y')
      [(quarterPel scale h1.1 1, quarterPel scale h1.2 1),
       (quarterPel scale (h1.1 * cw' + (x0' - x0) * dw') cw'.toNat, quarterPel scale (h1.2 * ch' + (y0' - y0) * dh') ch'.toNat)]
    else []
  | _, _ => []

/-- The hints of every block of a frame. -/
def frameHints (s : State) (e : Nat) (fr : EncFrame) : List (List (Int × Int)) :=
  (fr.dominant.zipIdx).map fun (c, i) => blockHints (s.rd (R.ENC_SRC_SCALE e)) ((s.enc e).refDominant.getD i []) c

/-! ### Quantisation (R312) -/

/-- A 5-bit QP offset, limited to −12 to +12. -/
def qpOffset (v : Nat) : Int := max (-12) (min 12 (signed 5 v))

/-- The ROI words of a frame: position, size, control. -/
def roiWords (words : List Nat) (n : Nat) : Nat × Nat × Nat :=
  (words.getD (10 + 3 * n) 0, words.getD (11 + 3 * n) 0, words.getD (12 + 3 * n) 0)

/-- ROI `n` contains a pixel of the box at (x, y) with side `d`. -/
def roiMeets (words : List Nat) (n x y d : Nat) : Bool :=
  let (p, z, c) := roiWords words n
  let (rx, ry) := (bits p 12 0, bits p 28 16)
  bitOf c 31 && decide (rx < x + d) && decide (x < rx + bits z 12 0 + 1)
    && decide (ry < y + d) && decide (y < ry + bits z 28 16 + 1)

/-- The QP block at column `i` and row `j` maps to a critical tile of the frame. -/
def blockCritical (s : State) (e : Nat) (fr : EncFrame) (i j : Nat) : Bool :=
  let d := qpSide s e * (s.rd (R.ENC_SRC_SCALE e) + 1)
  let (x, y) := (s.rd (R.ENC_RECT_POS_X0 e) + i * d, s.rd (R.ENC_RECT_POS_Y0 e) + j * d)
  fr.crit.any fun t => decide (32 * t.1 < x + d) && decide (x < 32 * t.1 + 32)
    && decide (32 * t.2 < y + d) && decide (y < 32 * t.2 + 32)

/-- The offset of a QP block (R312). -/
def blockOffset (s : State) (e : Nat) (words : List Nat) (fr : EncFrame) (i j : Nat) : Int :=
  let d := qpSide s e
  let roi := match (List.range 16).find? fun n => roiMeets words n (i * d) (j * d) d with
    | none => 0
    | some n => qpOffset (roiWords words n).2.2
  if blockCritical s e fr i j then min roi (qpOffset (words.getD 3 0)) else roi

/-- The QP of a block in a row: the row's with its offset, clamped to QP_MIN and QP_MAX; an exhausted row has no offsets
(R312, R315). -/
def blockQp (words : List Nat) (rowQp : Int) (exhausted : Bool) (off : Int) : Int :=
  let lo : Int := bits (words.getD 3 0) 13 8
  let hi : Int := bits (words.getD 3 0) 21 16
  max lo (min hi (rowQp + if exhausted then 0 else off))

end Sys2Proof.Machine
end

