-- ==== Sys2Proof/Machine/Motion.lean ====
section
/-!
DEFINITION. The encoder's motion search and mode decision (R302, R308, R309, R311): candidates, search, costs, the vectors and the
SAD sums of a frame, and the reel's two picture slots.
-/
namespace Sys2Proof.Machine

/-- A vector in quarter-pel. -/
abbrev Vec := Int × Int

/-- Add two vectors. -/
def Vec.plus (a b : Vec) : Vec := (a.1 + b.1, a.2 + b.2)

/-- The first of the things that cost least. -/
def leastBy {α : Type} (cost : α → Nat) : List α → Option α
  | [] => none
  | x :: l => match leastBy cost l with
    | none => some x
    | some y => if cost y < cost x then some y else some x

/-! ### The reference (R302, R311) -/

/-- The reference of a search: its luma samples, extended beyond its edges, and the codec, whose interpolation gives the samples
between them. -/
structure Reference where
  codec : Nat
  w : Nat
  h : Nat
  luma : Nat → Nat → Nat

/-- A luma sample at a whole position of the padded reference. -/
def Reference.whole (r : Reference) (x y : Int) : Int :=
  (r.luma (max 0 (min x (r.w - 1 : Nat))).toNat (max 0 (min y (r.h - 1 : Nat))).toNat : Int)

/-- A value limited to 8 bits. -/
def clip8 (v : Int) : Int := max 0 (min 255 v)

/-- The luma taps of HEVC for a quarter-pel phase, from three samples before (ITU-T H.265). -/
def hevcTaps (phase : Int) : List Int :=
  if phase = 0 then [0, 0, 0, 64, 0, 0, 0, 0] else if phase = 1 then [-1, 4, -10, 58, 17, -5, 1, 0]
  else if phase = 2 then [-1, 4, -11, 40, 40, -11, 4, -1] else [0, 1, -5, 17, 58, -10, 4, -1]

/-- A sum of products of taps with what stands from `base` on. -/
def tapSum (taps : List Int) (base : Int) (get : Int → Int) : Int :=
  taps.zipIdx.foldl (fun acc p => acc + p.1 * get (base + (p.2 : Nat))) 0

/-- The prediction sample of HEVC at a quarter-pel position. -/
def hevcSample (r : Reference) (x y : Int) : Int :=
  let row (j : Int) : Int := tapSum (hevcTaps (x % 4)) (x / 4 - 3) fun i => r.whole i j
  clip8 ((tapSum (hevcTaps (y % 4)) (y / 4 - 3) row / 64 + 32) / 64)

/-- The six taps of AVC (ITU-T H.264). -/
def avcTaps : List Int := [1, -5, 20, 20, -5, 1]

/-- The samples of AVC half way to the right of, below, and both from a whole position. -/
def avcRight (r : Reference) (x y : Int) : Int := clip8 ((tapSum avcTaps (x - 2) (fun i => r.whole i y) + 16) / 32)
def avcBelow (r : Reference) (x y : Int) : Int := clip8 ((tapSum avcTaps (y - 2) (fun j => r.whole x j) + 16) / 32)
def avcMiddle (r : Reference) (x y : Int) : Int :=
  clip8 ((tapSum avcTaps (y - 2) (fun j => tapSum avcTaps (x - 2) fun i => r.whole i j) + 512) / 1024)

/-- The prediction sample of AVC at a quarter-pel position: a whole or half sample, or the mean of the two nearest. -/
def avcSample (r : Reference) (x y : Int) : Int :=
  let (i, j, a, b) := (x / 4, y / 4, x % 4, y % 4)
  let mean (u v : Int) : Int := (u + v + 1) / 2
  let right := avcRight r i (if b = 3 then j + 1 else j)
  let below := avcBelow r (if a = 3 then i + 1 else i) j
  if a = 0 ∧ b = 0 then r.whole i j
  else if b = 0 then (if a = 2 then right else mean right (r.whole (if a = 3 then i + 1 else i) j))
  else if a = 0 then (if b = 2 then below else mean below (r.whole i (if b = 3 then j + 1 else j)))
  else if a = 2 ∧ b = 2 then avcMiddle r i j
  else if a = 2 then mean right (avcMiddle r i j)
  else if b = 2 then mean below (avcMiddle r i j)
  else mean right below

/-- The prediction sample at a quarter-pel position. -/
def Reference.at_ (r : Reference) (x y : Int) : Int := if r.codec = 0 then hevcSample r x y else avcSample r x y

/-! ### Costs (R308) -/

/-- λ in sixteenths: 2^((QP − 12) / 6) rounded to 1/16 (R308). -/
def lambda16 (qp : Nat) : Nat := (rootFrom 6 (2 ^ (qp + 18)) 16 0 + 1) / 2

/-- A frame being decided: its size and luma, the reference, and the vectors of the reference's blocks. -/
structure MotionFrame where
  w : Nat
  h : Nat
  luma : List Nat
  ref : Reference
  refVectors : List (Option Vec)
  hints : List (List Vec)
  costs : List BlockCost

/-- The 16 × 16 blocks of a frame across and down. -/
def MotionFrame.across (m : MotionFrame) : Nat := (m.w + 15) / 16
def MotionFrame.down (m : MotionFrame) : Nat := (m.h + 15) / 16

/-- The sum of absolute differences of block `b` under vector `v`, over its samples in the picture. -/
def sadOf (m : MotionFrame) (b : Nat) (v : Vec) : Nat :=
  let (x0, y0) := (b % max 1 m.across * 16, b / max 1 m.across * 16)
  (List.range (min 16 (m.h - y0))).foldl (fun acc j => (List.range (min 16 (m.w - x0))).foldl (fun acc i =>
    let o : Int := (m.luma.getD ((y0 + j) * m.w + x0 + i) 0 : Nat)
    acc + (o - m.ref.at_ (4 * (x0 + i : Nat) + v.1) (4 * (y0 + j : Nat) + v.2)).natAbs) acc) 0

/-- J of R308, in sixteenths. -/
def costOf (lam sad bits_ : Nat) : Nat := 16 * sad + lam * bits_

/-! ### The search (R309, R311) -/

/-- The vector that a block decided so far has. -/
def vectorAt (done : List (Nat × Option Vec)) (b : Nat) : Option Vec := (done.find? (·.1 == b)).bind Prod.snd

/-- The vectors of the left, upper and upper-right blocks. -/
def spatialVectors (m : MotionFrame) (done : List (Nat × Option Vec)) (b : Nat) : List Vec :=
  let n := max 1 m.across
  ((if 0 < b % n then (vectorAt done (b - 1)).toList else []) ++ (if n ≤ b then (vectorAt done (b - n)).toList else []))
    ++ if n ≤ b ∧ b % n + 1 < n then (vectorAt done (b - n + 1)).toList else []

/-- The vectors of the co-located block of the reference and of the block below and to the right of it. -/
def temporalVectors (m : MotionFrame) (b : Nat) : List Vec :=
  let n := max 1 m.across
  ((m.refVectors.getD b none).toList) ++
    if b % n + 1 < n ∧ b / n + 1 < m.down then (m.refVectors.getD (b + n + 1) none).toList else []

/-- A vector limited to ±2048 pixels across and ±512 down (R309). -/
def clampVec (v : Vec) : Vec := (max (-8192) (min 8192 v.1), max (-2048) (min 2048 v.2))

/-- The candidates of a block (R309): spatial, temporal, zero, hints; duplicates merged, each clamped. -/
def candidateVectors (m : MotionFrame) (done : List (Nat × Option Vec)) (b : Nat) : List Vec :=
  ((spatialVectors m done b ++ temporalVectors m b ++ [(0, 0)] ++ (m.hints.getD b [])).eraseDups).map clampVec

/-- The whole position nearest to a vector. -/
def wholeVec (v : Vec) : Vec := (4 * roundAway v.1 4, 4 * roundAway v.2 4)

/-- The positions within `n` steps of a length, the middle first. -/
def around (n step : Nat) (v : Vec) : List Vec :=
  v :: ((List.range (2 * n + 1)).flatMap fun j => (List.range (2 * n + 1)).map fun i =>
    v.plus (((i : Int) - n) * step, ((j : Int) - n) * step))

/-- The vector that the search finds for a block: from the best candidate every whole position within ±8, then the half-pel and
the quarter-pel neighbours of the best (R309, R311). Of equal costs the first is kept (log 114). -/
def searchVector (m : MotionFrame) (lam : Nat) (done : List (Nat × Option Vec)) (b : Nat) : Vec :=
  let near := spatialVectors m done b
  let cost (v : Vec) : Nat := costOf lam (sadOf m b v) (Config.vectorBits m.ref.codec 16 v near).toNat
  let best (l : List Vec) : Vec := (leastBy cost l).getD (0, 0)
  let start := best ((candidateVectors m done b).map wholeVec)
  best (around 1 1 (best (around 1 2 (best (around 8 4 start)))))

/-! ### Modes (R308) -/

/-- What a block is coded as: its vector, or none for intra; its SAD; its cost; and the vector its search found. -/
structure BlockMode where
  vec : Option Vec
  sad : Nat
  cost : Nat
  found : Vec
  deriving DecidableEq, Repr

/-- The mode of a block of a P picture with the least cost: skip, inter or intra (R308). -/
def blockMode (m : MotionFrame) (lam : Nat) (done : List (Nat × Option Vec)) (b : Nat) : BlockMode :=
  let k := m.costs.getD b { skipVec := (0, 0), skipBits := 0, intraSad := 0, intraBits := 0 }
  let v := searchVector m lam done b
  let mode (vec : Option Vec) (sad n : Nat) : BlockMode := { vec, sad, cost := costOf lam sad n, found := v }
  let skip := mode (some k.skipVec) (sadOf m b k.skipVec) k.skipBits
  let inter := mode (some v) (sadOf m b v) (Config.vectorBits m.ref.codec 16 v (spatialVectors m done b)).toNat
  (leastBy BlockMode.cost [skip, inter, mode none k.intraSad k.intraBits]).getD skip

/-- The blocks of a frame decided so far, with the SAD of each. -/
structure MotionRun where
  done : List (Nat × Option Vec) := []
  sads : List (Nat × Nat) := []
  deriving DecidableEq, Repr

/-- Block `b` takes a vector, or intra, and a SAD. -/
def MotionRun.take (x : MotionRun) (b : Nat) (v : Option Vec) (sad : Nat) : MotionRun :=
  { done := x.done ++ [(b, v)], sads := x.sads ++ [(b, sad)] }

/-- The blocks of a CTU in coding order, those in the picture; of a macroblock the one. -/
def qpBlocks (m : MotionFrame) (side i j : Nat) : List Nat :=
  if side = 16 then [j * m.across + i]
  else [(0, 0), (1, 0), (0, 1), (1, 1)].filterMap fun (d : Nat × Nat) =>
    if 2 * i + d.1 < m.across ∧ 2 * j + d.2 < m.down then some ((2 * j + d.2) * m.across + 2 * i + d.1) else none

/-- A QP block of a P picture: a macroblock with its mode; a CTU as one CU with the vector of its blocks that costs least over it,
or as its blocks, whichever costs less (R308). -/
def decideQpBlock (m : MotionFrame) (side lam : Nat) (x : MotionRun) (bs : List Nat) : MotionRun :=
  let (split, total, found) := bs.foldl (fun (acc : MotionRun × Nat × List Vec) b =>
    let k := blockMode m lam acc.1.done b
    (acc.1.take b k.vec k.sad, acc.2.1 + k.cost, acc.2.2 ++ [k.found])) (x, 0, [])
  let near := spatialVectors m x.done (bs.headD 0)
  let cu (v : Vec) : Nat :=
    costOf lam (bs.foldl (fun a b => a + sadOf m b v) 0) (Config.vectorBits m.ref.codec 32 v near).toNat
  match leastBy cu found with
  | some v => if side = 32 ∧ cu v < total then bs.foldl (fun x b => x.take b (some v) (sadOf m b v)) x else split
  | none => split

/-- A QP block of an IDR picture, or of a fill row (R316): intra, or in a P picture skip. -/
def plainQpBlock (m : MotionFrame) (idr : Bool) (x : MotionRun) (bs : List Nat) : MotionRun :=
  bs.foldl (fun x b =>
    let k := m.costs.getD b { skipVec := (0, 0), skipBits := 0, intraSad := 0, intraBits := 0 }
    if idr then x.take b none k.intraSad else x.take b (some k.skipVec) (sadOf m b k.skipVec)) x

/-- The SAD sum of row `j` of QP blocks. -/
def rowSad (m : MotionFrame) (side : Nat) (x : MotionRun) (j : Nat) : Nat :=
  x.sads.foldl (fun a p => if p.1 / max 1 m.across * 16 / side = j then a + p.2 else a) 0

/-- The vectors of a decided frame by block. -/
def MotionRun.vectors (x : MotionRun) (m : MotionFrame) : List (Option Vec) :=
  (List.range (m.across * m.down)).map fun b => vectorAt x.done b

/-! ### The reel's slots (R302) -/

/-- The address of slot `n` of an encode reel: its planes and its motion area, each rounded up (R278, R302). -/
def encSlot (s : State) (e n : Nat) : Nat :=
  let (w, h) := codedSize s e
  s.rd (R.REEL_BUF_BASE_ADDR e) * 64 + n * (planeBytes w h 1 + pageUp (64 + 8 * ((w + 15) / 16 * ((h + 15) / 16))))

/-- The reference of an encode reel: the reconstruction in its slot. -/
def encReference (s : State) (e : Nat) : Reference :=
  let (w, h) := codedSize s e
  let a := encSlot s e (s.enc e).refSlot
  { codec := s.rd (R.REEL_CFG_CODEC e), w, h
    luma := fun x y => (s.mem.bytes.get memDefault (a + y * w + x)).toNat }

/-- The reconstruction of a coded frame and its motion area go into the slot that does not hold the reference, which becomes the
reference's (R302). -/
def storeReconstruction (e : Nat) (recon : List Byte) (vectors : List (Option Vec)) (s : State) : State :=
  let (w, h) := codedSize s e
  let n := 1 - (s.enc e).refSlot
  let a := encSlot s e n
  let s := (s.memWrite a (recon.take (w * h))).memWrite (a + pageUp (w * h)) ((recon.drop (w * h)).take (w * h / 2))
  let s := s.memWrite (a + planeBytes w h 1) ((List.range (64 + 8 * vectors.length)).map (Config.motionByte vectors))
  s.setEnc e { s.enc e with refSlot := n, refVectors := vectors }

end Sys2Proof.Machine
end

