-- ==== Sys2Proof/Machine/Check.lean ====
section
/-!
DEFINITION. The sixteen check units (R494 to R502): the CRC of R495, the trailers of R496, and what a unit does with a
message at its snoop point.
-/
namespace Sys2Proof.Machine

/-- The low `n` bits of `x` in reverse order. -/
def reverseBits : Nat → Nat → Nat
  | 0, _ => 0
  | n + 1, x => x % 2 * 2 ^ n + reverseBits n (x / 2)

/-- The parameters of one unit's computation (R495). -/
structure CrcParams where
  width : Nat
  poly : Nat
  init : Nat
  xorout : Nat
  refin : Bool
  refout : Bool
  deriving DecidableEq, Repr

/-- One bit of the computation of R495. -/
def crcBit (p : CrcParams) (c : Nat) (b : Bool) : Nat :=
  let fb := bitOf c (p.width - 1) != b
  let c := 2 * c % 2 ^ p.width
  if fb then c ^^^ p.poly else c

/-- One byte of the computation of R495. -/
def crcByte (p : CrcParams) (c : Nat) (m : Byte) : Nat :=
  let b := if p.refin then reverseBits 8 m.toNat else m.toNat
  (List.range 8).foldl (fun c k => crcBit p c (bitOf b (7 - k))) c

/-- The value the computation starts from. -/
def crcStart (p : CrcParams) : Nat := p.init % 2 ^ p.width

/-- The result from the running value. -/
def crcFinish (p : CrcParams) (c : Nat) : Nat :=
  ((if p.refout then reverseBits p.width c else c) ^^^ p.xorout) % 2 ^ p.width

/-- check(m, len) of R495. -/
def crcCheck (p : CrcParams) (m : List Byte) : Nat := crcFinish p (m.foldl (crcByte p) (crcStart p))

/-- The parameters held by unit `u`'s registers. -/
def chkParams (s : State) (u : Nat) : CrcParams where
  width := s.rd (R.CHK_CU_CFG_WIDTH u)
  poly := s.rd (R.CHK_CU_POLY_VALUE u)
  init := s.rd (R.CHK_CU_INIT_VALUE u)
  xorout := s.rd (R.CHK_CU_XOROUT_VALUE u)
  refin := s.rdb (R.CHK_CU_CFG_REFIN u)
  refout := s.rdb (R.CHK_CU_CFG_REFOUT u)

/-- A unit's trailer length in bytes (R496). -/
def trailerLen (p : CrcParams) : Nat := (p.width + 7) / 8

/-- The trailer that holds result `r`: least significant byte first, or most significant first when `order` is set
(R496). -/
def trailerOf (p : CrcParams) (order : Bool) (r : Nat) : List Byte :=
  let t := leBytes (trailerLen p) r
  if order then t.reverse else t

def State.checkUnit (s : State) (u : Nat) : CheckUnit := s.chk.get (fun _ => {}) u
def State.setCheckUnit (s : State) (u : Nat) (o : CheckUnit) : State := { s with chk := s.chk.set (fun _ => {}) u o }

/-- Unit `u` watches a message that began at time `t`: it was enabled then (R499). -/
def watchedFrom (s : State) (u t : Nat) : Bool :=
  let turns := (s.checkUnit u).turns
  match turns.find? fun x => decide (x.1 ≤ t) with
  | some x => x.2
  | none => match turns.getLast? with
    | some x => !x.2
    | none => s.rdb (R.CHK_CU_CFG_ENABLE u)

/-- The compute units at a point that watch a message that began at time `t` (R494, R499). -/
def unitsSince (s : State) (point ix t : Nat) : List Nat :=
  (List.range 16).filter fun u => watchedFrom s u t && s.rd (R.CHK_CU_CFG_POINT u) == point
    && s.rd (R.CHK_CU_CFG_INDEX u) == ix && s.rd (R.CHK_CU_CFG_MODE u) == 0

/-- Enabled units at a point with index `ix` and mode `mode`; `port` is the UDP port that the Ethernet points filter on
(R494). -/
def unitsAt (s : State) (point ix mode : Nat) (port : Option Nat) : List Nat :=
  (List.range 16).filter fun u =>
    s.rdb (R.CHK_CU_CFG_ENABLE u) && s.rd (R.CHK_CU_CFG_POINT u) == point
      && s.rd (R.CHK_CU_CFG_INDEX u) == ix && s.rd (R.CHK_CU_CFG_MODE u) == mode
      && (match port with | none => true | some p => s.rd (R.CHK_CU_FILTER_UDP_PORT u) == p)

/-- A compute unit takes the result of a whole message (R495, R497). -/
def chkResult (m : List Byte) (s : State) (u : Nat) : State :=
  s.wr (R.CHK_CU_RESULT_VALUE u) (crcCheck (chkParams s u) m)

/-- Every compute unit at the point sees the message (R497, R499). -/
def chkCompute (point ix : Nat) (port : Option Nat) (m : List Byte) (s : State) : State :=
  (unitsAt s point ix 0 port).foldl (chkResult m) s

/-- The compute units at the point see a message that began at time `t`: those that a commit has enabled since let it pass, and those
that one has disabled finish it (R499). -/
def chkComputeSince (point ix t : Nat) (m : List Byte) (s : State) : State :=
  let us := unitsSince s point ix t
  if us.isEmpty then s else us.foldl (chkResult m) s

/-- A commit sets or clears ENABLE of unit `u` (R499). -/
def chkTurn (u : Nat) (on : Bool) (s : State) : State :=
  let o := s.checkUnit u
  s.setCheckUnit u { o with turns := ((s.monoNs, on) :: o.turns).take 4 }

/-- Append mode (R497): the message with the trailer of the appending unit, if one stands at the point. -/
def chkAppend (point ix : Nat) (port : Option Nat) (m : List Byte) (s : State) : List Byte × State :=
  match (unitsAt s point ix 1 port).head? with
  | none => (m, s)
  | some u =>
    let p := chkParams s u
    let r := crcCheck p m
    (m ++ trailerOf p (s.rdb (R.CHK_CU_CFG_ORDER u)) r, s.wr (R.CHK_CU_RESULT_VALUE u) r)

/-- The trailer at the end of a message agrees with the computation over the rest (R498). -/
def trailerAgrees (p : CrcParams) (order : Bool) (m : List Byte) : Bool :=
  let n := trailerLen p
  decide (n ≤ m.length) && m.drop (m.length - n) == trailerOf p order (crcCheck p (m.take (m.length - n)))

/-- Check-and-strip mode (R498): the message that passes on, or none when it is discarded. `always` is set at a Crinus
ingress, which always discards (R420). -/
def chkStrip (point ix : Nat) (port : Option Nat) (always : Bool) (m : List Byte) (s : State) :
    Option (List Byte) × State :=
  match (unitsAt s point ix 2 port).head? with
  | none => (some m, s)
  | some u =>
    let p := chkParams s u
    let order := s.rdb (R.CHK_CU_CFG_ORDER u)
    let body := m.take (m.length - trailerLen p)
    let s := s.wr (R.CHK_CU_RESULT_VALUE u) (crcCheck p body)
    if trailerAgrees p order m then (some body, s)
    else
      let t := m.drop (m.length - trailerLen p)
      let s := s.wr (R.CHK_CU_COUNT_MISMATCHES u) (satTo 16 (s.rd (R.CHK_CU_COUNT_MISMATCHES u) + 1))
      let s := s.wr (R.CHK_CU_RECEIVED_VALUE u) (ofLeBytes (if order then t.reverse else t))
      let s := s.raiseOnce 0x0C01 u
      (if always || s.rdb (R.CHK_CU_CFG_DISCARD u) then none else some body, s)

/-- The endless message of a matrix point restarts at unit `u` (R494). -/
def chkRestart (u : Nat) (s : State) : State :=
  let p := chkParams s u
  (s.setCheckUnit u { s.checkUnit u with run := crcStart p }).wr (R.CHK_CU_RESULT_VALUE u) (crcFinish p (crcStart p))

/-- A line at a matrix point (0x7 writes, 0x8 reads) of source `src`: it is taken into the running value, or left out and
counted when it was refused or poisoned (`none`) (R494, R495). -/
def chkLine (point src : Nat) (line : Option (List Byte)) (s : State) : State :=
  (unitsAt s point src 0 none).foldl (fun s u =>
    match line with
    | none => s.wr (R.CHK_CU_COUNT_SKIPPED u) (satTo 8 (s.rd (R.CHK_CU_COUNT_SKIPPED u) + 1))
    | some bs =>
      let p := chkParams s u
      let c := bs.foldl (crcByte p) (s.checkUnit u).run
      (s.setCheckUnit u { s.checkUnit u with run := c }).wr (R.CHK_CU_RESULT_VALUE u) (crcFinish p c)) s

/-- CHK_RESTART: a write of 1 to CHK_CU_CFG.RESTART (R494). -/
def chkRestartWrite (u : Nat) (s : State) : State :=
  if s.rdb (R.CHK_CU_CFG_ENABLE u) ∧ (s.rd (R.CHK_CU_CFG_POINT u) = 7 ∨ s.rd (R.CHK_CU_CFG_POINT u) = 8)
  then chkRestart u s else s

end Sys2Proof.Machine
end

