-- ==== Sys2Proof/Machine/Timebase.lean ====
section
/-!
DEFINITION. The timebase and the timed signals: TMB, TMO and TMC commands (R439 to R453).
-/
namespace Sys2Proof.Machine

/-- The limits of TMB_INC in units of 2^-32 ns: 1.996 ns and 2.004 ns (R440), each taken to the nearest 8.32 value that
lies within them. -/
def incMin : Nat := (1996 * 2 ^ 32 + 999) / 1000
def incMax : Nat := 2004 * 2 ^ 32 / 1000

/-- A write of TMB_INC_INT (R440): the written integer part with the fraction written last, clamped to the limits. -/
def tmbIncWrite (w : Nat) (s : State) : State :=
  let inc := bits w 7 0 * 2 ^ 32 + s.time.heldFrac
  let c := max incMin (min incMax inc)
  let s := (s.wr R.TMB_INC_INT_INT (c / 2 ^ 32)).wr R.TMB_INC_FRAC_FRAC (c % 2 ^ 32)
  if c = inc then s else (s.wr R.TMB_STATUS_INC_CLAMPED 1).raise 0x1502 0

/-- A write of TMB_INC_FRAC alone is held until the next write of TMB_INC_INT (R440). -/
def tmbFracWrite (w : Nat) (s : State) : State :=
  { s with time := { s.time with heldFrac := bits w 31 0 } }

/-- The signed step of R442 in ns: TMB_STEP_S seconds plus TMB_STEP_NS clamped to ±999,999,999. -/
def stepNs (s : State) : Int :=
  signed 32 (s.rd R.TMB_STEP_S_VALUE) * 1000000000
    + max (-999999999) (min 999999999 (signed 32 (s.rd R.TMB_STEP_NS_VALUE)))

/-- The first instant of the series `start + k·period` that is not before `t`. -/
def firstInSeries (start period t : Nat) : Nat :=
  if t ≤ start then start else start + (t - start + period - 1) / period * period

/-- START of timed output `k` in ns of timebase time (R448). -/
def tmoStart (s : State) (k : Nat) : Nat :=
  (s.rd (R.TMO_CTRL_START_S_HI k) * 2 ^ 32 + s.rd (R.TMO_START_S_LO_VALUE k)) * 1000000000
    + s.rd (R.TMO_START_NS_VALUE k)

/-- What a step does to one timed output (R450): an unfired one-shot whose START has passed fires at once with LATE, a
periodic output goes on at its first instant not before the new time, a tick-mode output moves with the tick. -/
def tmoAfterStep (d : Int) (s : State) (k : Nat) : State :=
  let o := s.tmo k
  if s.rd (R.TMO_CTRL_ENABLE k) = 0 then s
  else if s.rd (R.TMO_CTRL_MODE k) = 0 then
    if o.fired = false ∧ tmoStart s k < s.nowNs then
      ((s.setTmo k { o with next := none, fired := true, inPulse := true }).wr (R.TMO_CTRL_LATE k) 1).raise 0x1505 k
    else s
  else if s.rd (R.TMO_CTRL_MODE k) = 1 then
    s.setTmo k { o with next := some (firstInSeries (tmoStart s k) (s.rd (R.TMO_PERIOD_NS_VALUE k)) s.nowNs) }
  else s.setTmo k { o with next := o.next.map fun t => (t + d).toNat }

/-- The first whole multiple of D/N seconds at least 64 µs after `t`, in ns rounded to the 2 ns cycle (R452, R12). -/
def firstTarget (rate t : Nat) : Nat × Nat :=
  let k := ((t + 64000) * (rateFrac rate).1 + (rateFrac rate).2 * 1000000000 - 1) / ((rateFrac rate).2 * 1000000000)
  (k, gridNs rate k)

/-- The tick's next edge at the first target from `t` on. -/
def edgeAtTarget (rate t : Nat) (o : TickState) : TickState :=
  let f := firstTarget rate t
  { o with nextEdgeNs := f.2, edgeRest := gridRest rate f.1 }

/-- TMB_CTRL.STEP (R442): the timebase moves by the step in one cycle; the tick's next edge keeps its real instant (R452),
the PLLs lose their phase (R453), the timed outputs follow R450. -/
def tmbStep (s : State) : State :=
  let d := stepNs s
  let s := s.addNs d
  let s := s.wr R.TMB_STATUS_STEPS (satTo 16 (s.rd R.TMB_STATUS_STEPS + 1))
  let s := (s.wr R.TMB_STATUS_APLL0_LOCK 0).wr R.TMB_STATUS_APLL1_LOCK 0
  let t := s.tick
  let t := { t with
    lastEdgeNs := (t.lastEdgeNs + d).toNat
    nextEdgeNs := (t.nextEdgeNs + d).toNat
    runBase := (t.runBase + d).toNat
    sourceEdges := t.sourceEdges.map fun (e : Nat) => ((e : Int) + d).toNat }
  let s := { s with tick := if t.geometryApplied ∧ s.rd R.TICK_STATUS_RUN = 0
    then edgeAtTarget (s.rd R.TICK_CFG_RATE) s.nowNs t else t }
  let s := { s with time := { s.time with steps := s.time.steps + 1, offset := s.time.offset + d } }
  ((List.range 16).foldl (tmoAfterStep d) (s.raise 0x1501 0))

/-- TMB_CTRL.SNAP (R439, R441): the whole time into the snapshot registers. -/
def tmbSnap (s : State) : State :=
  (((s.wr R.TMB_SNAP_S_HI_S_HI (s.time.sec / 2 ^ 32)).wr R.TMB_SNAP_S_LO_S_LO (s.time.sec % 2 ^ 32)).wr
    R.TMB_SNAP_NS_NS s.time.ns).wr R.TMB_SNAP_FRAC_FRAC s.time.frac

/-- The period of the tick in ns as TICK_PERIOD_NS gives it. -/
def tickPeriod (s : State) : Nat := s.rd R.TICK_PERIOD_NS_PERIOD

/-- A write of ENABLE = 1 does not start the output (R449). -/
def tmoBad (s : State) (k : Nat) : Bool :=
  let mode := s.rd (R.TMO_CTRL_MODE k)
  let width := s.rd (R.TMO_WIDTH_NS_VALUE k)
  let period := s.rd (R.TMO_PERIOD_NS_VALUE k)
  let startNs := s.rd (R.TMO_START_NS_VALUE k)
  mode == 3 || decide (10 ^ 9 ≤ startNs) || decide (width < 4)
    || (mode == 1 && (decide (period < 100) || decide (period < width + 4)))
    || (mode == 2 && decide (tickPeriod s ≤ startNs + width))

/-- An accepted ENABLE: the first instant, or a one-shot that fires late at once (R448, R449). -/
def tmoStartOutput (k : Nat) (s : State) : State :=
  let s := (s.wr (R.TMO_CTRL_ENABLE k) 1).wr (R.TMO_CTRL_BAD k) 0
  let mode := s.rd (R.TMO_CTRL_MODE k)
  if mode = 0 then
    if tmoStart s k < s.nowNs then
      ((s.setTmo k { inPulse := true, fired := true }).wr (R.TMO_CTRL_LATE k) 1).raise 0x1505 k
    else s.setTmo k { next := some (tmoStart s k) }
  else if mode = 1 then
    s.setTmo k { next := some (firstInSeries (tmoStart s k) (s.rd (R.TMO_PERIOD_NS_VALUE k)) s.nowNs) }
  else
    let due := s.tick.lastEdgeNs + s.rd (R.TMO_START_NS_VALUE k)
    s.setTmo k { next := if s.rdb R.TICK_STATUS_RUN ∧ s.nowNs ≤ due then some due else none }

/-- A write of word `w` to the fields of TMO_CTRL of output `k` that mask `t` touches: the run-locked fields and LATE by their
access types, ENABLE under R449. A write of ENABLE = 1 to an output that runs leaves it running. -/
def tmoEnableTouched (t k w : Nat) (s : State) : State :=
  let was := s.rdb (R.TMO_CTRL_ENABLE k)
  let s := applyTouched t (0xE0100 + 0x20 * k) (putBits w 31 31 (b2n was)) s
  if bitOf w 31 then
    if was then s
    else if tmoBad s k then (s.wr (R.TMO_CTRL_BAD k) 1).raise 0x1506 k
    else tmoStartOutput k s
  else (s.wr (R.TMO_CTRL_ENABLE k) 0).setTmo k {}

/-- TMO_ENABLE: a write of word `w` to TMO_CTRL of output `k` (R449). -/
def tmoEnable (k w : Nat) (s : State) : State := tmoEnableTouched allBits k w s

/-- TMO_PULSE_START: the due instant of output `k` has come, to the nearest reference cycle (R448). -/
def tmoPulseStart (k : Nat) (s : State) : State :=
  let o := s.tmo k
  match o.next with
  | some n =>
    if s.rdb (R.TMO_CTRL_ENABLE k) && !o.inPulse && decide (n ≤ s.nowNs + 1) then
      let mode := s.rd (R.TMO_CTRL_MODE k)
      let next := if mode = 1 then some (n + s.rd (R.TMO_PERIOD_NS_VALUE k)) else none
      s.setTmo k { next, inPulse := true, fired := o.fired || mode == 0 }
    else s
  | none => s

/-- TMO_PULSE_END: the pulse of output `k` has lasted WIDTH_NS; a one-shot that has fired clears ENABLE (R449). -/
def tmoPulseEnd (k : Nat) (s : State) : State :=
  let o := s.tmo k
  if o.inPulse then
    let s := s.setTmo k { o with inPulse := false }
    if o.fired then (s.wr (R.TMO_CTRL_ENABLE k) 0).setTmo k {} else s
  else s

/-- At a tick edge at `edge` ns a tick-mode output takes its next instant (R448). -/
def tmoTickEdge (edge : Nat) (s : State) : State :=
  (List.range 16).foldl (fun s k =>
    if s.rdb (R.TMO_CTRL_ENABLE k) && s.rd (R.TMO_CTRL_MODE k) == 2
    then s.setTmo k { s.tmo k with next := some (edge + s.rd (R.TMO_START_NS_VALUE k)) } else s) s

/-- EDGE of capture `c` selects this edge (R451). -/
def tmcSelects (s : State) (c : Nat) (falling : Bool) : Bool :=
  let e := s.rd (R.TMC_CTRL_EDGE c)
  e == 3 || (e == 1 && !falling) || (e == 2 && falling)

/-- TMC_EDGE: an edge at capture input `c` (R451). -/
def tmcEdge (c : Nat) (falling : Bool) (s : State) : State :=
  if s.rdb (R.TMC_CTRL_ENABLE c) && tmcSelects s c falling then
    let q := s.tmc c
    if 8 ≤ q.queue.length then (s.wr (R.TMC_CTRL_OVERFLOW c) 1).raiseOnce 0x1507 c
    else
      let t := ((s.nowNs : Int) - 6).emod ((2 : Int) ^ 48 * 1000000000)
      let e : TmcEntry := { sec := t.toNat / 1000000000, ns := t.toNat % 1000000000, falling
                            stepped := q.lastSteps.any (· ≠ s.time.steps) }
      let s := s.setTmc c { queue := q.queue ++ [e], lastSteps := some s.time.steps }
      s.wr (R.TMC_CTRL_COUNT c) (q.queue.length + 1)
  else s

/-- TMC_TS_READ: a read of TMC_TS_NS of capture `c` removes the oldest entry and latches its seconds; an empty queue reads
VALID 0 (R451). -/
def tmcTsRead (c : Nat) (s : State) : State :=
  match (s.tmc c).queue with
  | [] => s.wr (R.TMC_TS_NS_VALID c) 0
  | e :: q =>
    let s := (s.setTmc c { s.tmc c with queue := q }).wr (R.TMC_CTRL_COUNT c) q.length
    let s := ((s.wr (R.TMC_TS_NS_VALID c) 1).wr (R.TMC_TS_NS_FALLING c) (b2n e.falling)).wr (R.TMC_TS_NS_NS c) e.ns
    ((s.wr (R.TMC_TS_S_LO_S_LO c) (e.sec % 2 ^ 32)).wr (R.TMC_TS_S_HI_S_HI c) (e.sec / 2 ^ 32)).wr
      (R.TMC_TS_S_HI_STEPPED c) (b2n e.stepped)

/-- APLL_LOCK: audio PLL `p` has locked, or re-phased after a step (R453). -/
def apllLock (p : Nat) (s : State) : State :=
  if p = 0 then s.wr R.TMB_STATUS_APLL0_LOCK 1 else s.wr R.TMB_STATUS_APLL1_LOCK 1

/-- TMB_APLL_UNLOCK: audio PLL `p` loses lock for a reason other than a step (R453). -/
def tmbApllUnlock (p : Nat) (s : State) : State :=
  let f := if p = 0 then R.TMB_STATUS_APLL0_LOCK else R.TMB_STATUS_APLL1_LOCK
  if s.rdb f then (s.wr f 0).raise 0x1504 p else s

/-! ### PTP transmit ring (R447) -/

/-- Where the PTP message begins in an Ethernet frame: after the header of 802.3, or of IPv4 or IPv6 with UDP (R444). -/
def ptpOffset (f : List Byte) : Nat :=
  let et := (f.getD 12 0).toNat * 256 + (f.getD 13 0).toNat
  if et = 0x0800 then 14 + 4 * ((f.getD 14 0).toNat % 16) + 8 else if et = 0x86DD then 62 else 14

/-- Bytes of a frame from `o` on replaced by `b`. -/
def splice (f : List Byte) (o : Nat) (b : List Byte) : List Byte := f.take o ++ b ++ f.drop (o + b.length)

/-- The one's-complement sum of 16-bit words, odd lengths padded with a zero byte. -/
def onesSum : List Byte → Nat
  | [] => 0
  | [a] => a.toNat * 256
  | a :: b :: t => a.toNat * 256 + b.toNat + onesSum t

/-- A one's-complement checksum of 16 bits over the given sum. -/
def checksum (t : Nat) : Nat :=
  let t := t % 65536 + t / 65536
  let t := t % 65536 + t / 65536
  65535 - (t % 65536 + t / 65536)

/-- The UDP checksum recomputed over the pseudo-header and the datagram (R447). -/
def fixUdp (f : List Byte) : List Byte :=
  let et := (f.getD 12 0).toNat * 256 + (f.getD 13 0).toNat
  if et = 0x0800 ∨ et = 0x86DD then
    let u := ptpOffset f - 8
    let addrs := if et = 0x0800 then (f.drop 26).take 8 else (f.drop 22).take 32
    let len := (f.getD (u + 4) 0).toNat * 256 + (f.getD (u + 5) 0).toNat
    let z := splice f (u + 6) [0, 0]
    let c := checksum (onesSum addrs + 17 + len + onesSum ((z.drop u).take len))
    splice f (u + 6) (beBytes 2 (if c = 0 then 65535 else c))
  else f

/-- What ONE_STEP writes into the frame (R447): originTimestamp of a Sync (message type 0), or the turnaround added to
correctionField of a Pdelay_Resp (message type 3) whose flag is set. The places are IEEE 1588's. PRESUMED (log 12). -/
def oneStep (flags placed tsNs : Nat) (f : List Byte) : List Byte :=
  let o := ptpOffset f
  if bitOf flags 2 ∧ (f.getD o 0).toNat % 16 = 3 then
    let old := ofLeBytes ((f.drop (o + 8)).take 8).reverse
    let turn : Int := (tsNs : Int) - placed
    fixUdp (splice f (o + 8) (beBytes 8 (((old : Int) + turn * 65536).emod (2 ^ 64)).toNat))
  else if (f.getD o 0).toNat % 16 = 0 then
    fixUdp (splice f (o + 34) (beBytes 6 (tsNs / 1000000000) ++ beBytes 4 (tsNs % 1000000000)))
  else f

/-- The IPv4 header checksum recomputed. -/
def fixIp4 (f : List Byte) : List Byte :=
  let n := 4 * ((f.getD 14 0).toNat % 16)
  let z := splice f 24 [0, 0]
  splice f 24 (beBytes 2 (checksum (onesSum ((z.drop 14).take n))))

/-- The DSCP of an untagged IP frame (R408). -/
def withDscp (dscp : Nat) (f : List Byte) : List Byte :=
  let et := (f.getD 12 0).toNat * 256 + (f.getD 13 0).toNat
  if et = 0x0800 then fixIp4 (splice f 15 (beBytes 1 (dscp * 4 + (f.getD 15 0).toNat % 4)))
  else if et = 0x86DD then
    let v := ofLeBytes ((f.drop 14).take 4).reverse
    splice f 14 (beBytes 4 (putBits v 27 22 dscp))
  else f

/-- An untagged frame passes the egress check units of port `p` (R494, R497): an appended trailer lengthens the UDP payload. -/
def ethEgress (p : Nat) (f : List Byte) (s : State) : Option (List Byte) × State :=
  let et := (f.getD 12 0).toNat * 256 + (f.getD 13 0).toNat
  let u := ptpOffset f - 8
  if (et = 0x0800 ∧ f.getD 23 0 = 17) ∨ (et = 0x86DD ∧ f.getD 20 0 = 17) then
    let src := (f.getD u 0).toNat * 256 + (f.getD (u + 1) 0).toNat
    let len := (f.getD (u + 4) 0).toNat * 256 + (f.getD (u + 5) 0).toNat
    let m := (f.drop (u + 8)).take (len - 8)
    let s := chkCompute 4 p (some src) m s
    let (m', s) := chkAppend 4 p (some src) m s
    let d := m'.length - m.length
    if d = 0 then (some f, s)
    else if 9216 < f.length + d + 4 then
      (none, (unitsAt s 4 p 1 (some src)).foldl (fun s v =>
        (s.wr (R.CHK_CU_COUNT_OVERSIZE v) (satTo 8 (s.rd (R.CHK_CU_COUNT_OVERSIZE v) + 1))).raiseOnce 0x0C02 v) s)
    else
      let g := f.take (u + 4) ++ beBytes 2 (len + d) ++ (f.drop (u + 6)).take 2 ++ m'
      let g := if et = 0x0800 then fixIp4 (splice g 16 (beBytes 2 (u - 14 + len + d))) else splice g 18 (beBytes 2 (len + d))
      (some (fixUdp g), s)
  else (some f, s)

/-- The tag of a port with VLAN_EN set goes into an untagged frame (R405). -/
def withTag (s : State) (p : Nat) (f : List Byte) : List Byte :=
  if s.rdb (R.PORT_ETH_CTRL_VLAN_EN (p - 40)) then
    f.take 12 ++ beBytes 2 0x8100
      ++ beBytes 2 (s.rd (R.PORT_ETH_CTRL_PCP (p - 40)) * 2 ^ 13 + s.rd (R.PORT_ETH_CTRL_VID (p - 40))) ++ f.drop 12
  else f

/-- A frame of the transmit ring leaves on port `p`, with the port's PTP DSCP, VLAN and PCP (R447, R408). -/
def ptpSendFrame (p : Nat) (f : List Byte) (s : State) : State :=
  let (f, s) := ethEgress p (withDscp (s.rd (R.PORT_ETH_DSCP_PTP (p - 40))) f) s
  match f with
  | some f => s.send (.ethFrame p (withTag s p f))
  | none => s

/-- A timestamp with the signed correction `lat` of TMB_PTP_PORT added (R445). -/
def ptpStamp (s : State) (lat : Nat) : Nat :=
  (((s.nowNs : Int) + signed 12 lat).emod (2 ^ 48 * 1000000000)).toNat

/-- Send the record at byte offset `o` of the transmit ring, and the offset of the next (R447). -/
def ptpSendRecord (base o : Nat) (s : State) : Nat × State :=
  let h := s.memRead (base + o) 16
  let len := ofLeBytes ((h.drop 12).take 2)
  if len = 0xFFFF then (0, s)
  else
    let port := (h.getD 10 0).toNat
    let flags := (h.getD 11 0).toNat
    let up := s.rdb (R.PORT_CFG_ENABLE port) && s.rd (R.PORT_STATUS_STATE port) == 3
    let ts := ptpStamp s (s.rd (R.TMB_PTP_PORT_TX_LAT (port - 40)))
    let placed := ofLeBytes (h.take 6) * 1000000000 + ofLeBytes ((h.drop 6).take 4)
    let frame := s.memRead (base + o + 16) len
    let frame := if bitOf flags 0 then oneStep flags placed ts frame else frame
    let stamp := leBytes 6 (ts / 1000000000) ++ leBytes 4 (ts % 1000000000)
    let s := if up then ptpSendFrame port frame s
      else if 40 ≤ port ∧ port < 48 then
        (s.wr (R.PORT_ETH_DROP_TX (port - 40)) (satTo 16 (s.rd (R.PORT_ETH_DROP_TX (port - 40)) + 1))).raiseOnce 0x1308 port
      else s
    let s := if up = false then s.memWrite (base + o) (List.replicate 10 0)
      else if bitOf flags 1 then s.memWrite (base + o) stamp else s
    let s := s.memWrite (base + o + 11) [BitVec.ofNat 8 (putBits flags 7 7 1)]
    (o + (16 + len + 63) / 64 * 64, s)

/-- Send records in ring order until the read pointer meets the write pointer. -/
def ptpSendAll (base size wr : Nat) : Nat → Nat → State → State
  | 0, _, s => s
  | n + 1, o, s =>
    if o = wr then s.wr R.TMB_PTP_TX_RD_OFFSET o
    else
      let (o', s) := ptpSendRecord base o s
      ptpSendAll base size wr n (if size ≤ o' then 0 else o') s

/-- PTP_TX_WR_WRITE: firmware advances TX_WR, and the device sends the records up to it (R447). -/
def ptpTxWrWrite (w : Nat) (s : State) : State :=
  let s := s.wr R.TMB_PTP_TX_WR_OFFSET w
  let size := s.rd R.TMB_PTP_TX_SIZE_SIZE_4K * 4096
  ptpSendAll (s.rd R.TMB_PTP_TX_BASE_ADDR * 64) size (s.rd R.TMB_PTP_TX_WR_OFFSET) (size / 64 + 1)
    (s.rd R.TMB_PTP_TX_RD_OFFSET) s

/-- A PTP message received by port `p` goes into the receive ring with the time `tsNs` of its timestamp point (R445, R446). -/
def ptpReceive (p : Nat) (event : Bool) (frame : List Byte) (s : State) : State :=
  let base := s.rd R.TMB_PTP_RX_BASE_ADDR * 64
  let size := s.rd R.TMB_PTP_RX_SIZE_SIZE_4K * 4096
  let wr := s.rd R.TMB_PTP_RX_WR_OFFSET
  let rd := s.rd R.TMB_PTP_RX_RD_OFFSET
  let len := (16 + frame.length + 63) / 64 * 64
  let fits := decide (wr + len ≤ size)
  let at_ := if fits then wr else 0
  let after := if at_ + len = size then 0 else at_ + len
  -- free bytes from WR round to RD, one line short of a full ring
  let free := if rd ≤ wr then size - wr + rd else rd - wr
  let need := if fits then len else size - wr + len
  if size = 0 ∨ free ≤ need then
    (s.wr R.TMB_PTP_RX_SIZE_DROPS (satTo 16 (s.rd R.TMB_PTP_RX_SIZE_DROPS + 1))).raiseOnce 0x1503 p
  else
    let ts := ptpStamp s (s.rd (R.TMB_PTP_PORT_RX_LAT (p - 40)))
    let s := if fits then s else s.memWrite (base + wr) (List.replicate 12 0 ++ [0xFF, 0xFF, 0, 0])
    let hdr := leBytes 6 (ts / 1000000000) ++ leBytes 4 (ts % 1000000000)
      ++ [BitVec.ofNat 8 p, BitVec.ofNat 8 (b2n event)] ++ leBytes 2 frame.length ++ [0, 0]
    let s := s.memWrite (base + at_) (hdr ++ frame ++ List.replicate (len - 16 - frame.length) 0)
    s.wr R.TMB_PTP_RX_WR_OFFSET after

end Sys2Proof.Machine
end

