-- ==== Sys2Proof/Machine/Net.lean ====
section
/-!
DEFINITION. What the Ethernet ports send (R405 to R409): addresses, next hops and the neighbour cache, ARP and neighbour
discovery, membership reports, packets held and packets dropped. The layouts of the protocols are those of their standards.
PRESUMED (log 20).
-/
namespace Sys2Proof.Machine

/-! ### Hidden state by object -/

def State.port (s : State) (p : Nat) : PortState := s.ports.get (fun _ => {}) p
def State.setPort (s : State) (p : Nat) (o : PortState) : State := { s with ports := s.ports.set (fun _ => {}) p o }
def State.link (s : State) (k : Nat) : LinkState := s.links.get (fun _ => {}) k
def State.setLink (s : State) (k : Nat) (o : LinkState) : State := { s with links := s.links.set (fun _ => {}) k o }
def State.import_ (s : State) (i : Nat) : ImportState := s.crl.imports.get (fun _ => {}) i
def State.setImport (s : State) (i : Nat) (o : ImportState) : State :=
  { s with crl := { s.crl with imports := s.crl.imports.set (fun _ => {}) i o } }

/-- The body of a section of the image in force; empty when there is none. -/
def State.section_ (s : State) (t : Nat) : List Byte := s.img.sections.get (fun _ => []) t

/-! ### Addresses -/

/-- An IPv4 address as the IPv4-mapped IPv6 address. -/
def mapped (a : Nat) : Nat := 0xFFFF * 2 ^ 32 + a

/-- An address is an IPv4-mapped one. -/
def isV4 (a : Nat) : Bool := a / 2 ^ 32 == 0xFFFF

/-- The 128-bit address that four register words spell, first byte in bits [31:24] of the first. -/
def wordsAddr (ws : List Nat) : Nat := ws.foldl (fun a w => a * 2 ^ 32 + w % 2 ^ 32) 0

def ethIp4 (s : State) (p : Nat) : Nat := mapped (s.rd (R.PORT_ETH_IP4_ADDR (p - 40)))
def ethIp6 (s : State) (p : Nat) : Nat := wordsAddr ((List.range 4).map fun k => s.rd (R.PORT_ETH_IP6_ADDR (p - 40) k))
def ethGw4 (s : State) (p : Nat) : Nat := mapped (s.rd (R.PORT_ETH_GW4_ADDR (p - 40)))
def ethGw6 (s : State) (p : Nat) : Nat := wordsAddr ((List.range 4).map fun k => s.rd (R.PORT_ETH_GW6_ADDR (p - 40) k))

/-- The port's own address in the family of `a`. -/
def ownAddr (s : State) (p a : Nat) : Nat := if isV4 a then ethIp4 s p else ethIp6 s p

/-- An address is one of the port's own. -/
def isOwn (s : State) (p a : Nat) : Bool := a == ethIp4 s p || (s.rdb (R.PORT_ETH_CTRL_IPV6 (p - 40)) && a == ethIp6 s p)

/-- A multicast address. -/
def isGroup (a : Nat) : Bool := if isV4 a then a % 2 ^ 32 / 2 ^ 28 == 0xE else a / 2 ^ 120 == 0xFF

/-- The MAC address of a multicast address, or of the broadcast address. -/
def groupMac (a : Nat) : Nat :=
  if a = mapped 0xFFFFFFFF then 0xFFFFFFFFFFFF
  else if isV4 a then 0x01005E000000 + a % 2 ^ 23 else 0x333300000000 + a % 2 ^ 32

/-- The MAC address that the port map gives a port (R393). -/
def ethMac (s : State) (p : Nat) : Nat := ofLeBytes (((s.section_ 2).drop (32 * p + 4)).take 6).reverse

/-- The next hop of a packet (R406): the destination inside the port's prefix, the gateway otherwise. -/
def nextHop (s : State) (p a : Nat) : Nat :=
  if isV4 a then
    let n := 32 - min 32 (s.rd (R.PORT_ETH_PREFIX_PREFIX4 (p - 40)))
    if a % 2 ^ 32 / 2 ^ n = ethIp4 s p % 2 ^ 32 / 2 ^ n then a else ethGw4 s p
  else
    let n := 128 - min 128 (s.rd (R.PORT_ETH_PREFIX_PREFIX6 (p - 40)))
    if a / 2 ^ n = ethIp6 s p / 2 ^ n then a else ethGw6 s p

/-! ### Frames -/

/-- An Ethernet frame of port `p`, tagged when VLAN_EN is 1, padded to the shortest frame. -/
def ethFrame (s : State) (p dst etherType : Nat) (body : List Byte) : List Byte :=
  let tag := if s.rdb (R.PORT_ETH_CTRL_VLAN_EN (p - 40))
    then beBytes 2 0x8100 ++ beBytes 2 (s.rd (R.PORT_ETH_CTRL_PCP (p - 40)) * 2 ^ 13 + s.rd (R.PORT_ETH_CTRL_VID (p - 40))) else []
  let f := beBytes 6 dst ++ beBytes 6 (ethMac s p) ++ tag ++ beBytes 2 etherType ++ body
  f ++ List.replicate (60 - f.length) 0

/-- An IPv4 packet; `opts` is the option field. -/
def ip4Packet (src dst proto ttl : Nat) (opts body : List Byte) : List Byte :=
  let n := 20 + opts.length
  let h := beBytes 1 (0x40 + n / 4) ++ [0] ++ beBytes 2 (n + body.length) ++ [0, 0, 0, 0] ++ beBytes 1 ttl ++ beBytes 1 proto
  let a := beBytes 4 (src % 2 ^ 32) ++ beBytes 4 (dst % 2 ^ 32) ++ opts
  h ++ beBytes 2 (checksum (onesSum (h ++ [0, 0] ++ a))) ++ a ++ body

/-- An ICMPv6 message in an IPv6 packet, after the hop-by-hop header `ext`; the checksum field of `m` is zero. -/
def icmp6Packet (src dst hops : Nat) (ext m : List Byte) : List Byte :=
  let ck := checksum (onesSum (beBytes 16 src ++ beBytes 16 dst ++ beBytes 4 m.length ++ beBytes 4 58 ++ m))
  beBytes 4 0x60000000 ++ beBytes 2 (ext.length + m.length) ++ beBytes 1 (if ext.isEmpty then 58 else 0) ++ beBytes 1 hops
    ++ beBytes 16 src ++ beBytes 16 dst ++ ext ++ splice m 2 (beBytes 2 ck)

/-- An ARP packet: operation, target hardware and protocol addresses. -/
def arpBody (s : State) (p op mac addr : Nat) : List Byte :=
  beBytes 2 1 ++ beBytes 2 0x0800 ++ [6, 4] ++ beBytes 2 op ++ beBytes 6 (ethMac s p) ++ beBytes 4 (ethIp4 s p % 2 ^ 32)
    ++ beBytes 6 mac ++ beBytes 4 (addr % 2 ^ 32)

/-- The solicited-node multicast address of an IPv6 address. -/
def solicitedNode (a : Nat) : Nat := 0xFF02 * 2 ^ 112 + 0x1FF * 2 ^ 24 + a % 2 ^ 24

/-- The request that resolves a next hop: ARP or a neighbour solicitation (R406). -/
def resolveFrame (s : State) (p hop : Nat) : List Byte :=
  if isV4 hop then ethFrame s p 0xFFFFFFFFFFFF 0x0806 (arpBody s p 1 0 hop)
  else
    let g := solicitedNode hop
    let m := [135, 0, 0, 0, 0, 0, 0, 0] ++ beBytes 16 hop ++ [1, 1] ++ beBytes 6 (ethMac s p)
    ethFrame s p (groupMac g) 0x86DD (icmp6Packet (ethIp6 s p) g 255 [] m)

/-- A membership report of records (type, group) of one family: IGMPv3 or MLDv2 without source lists (R407). -/
def reportFrame (s : State) (p : Nat) (v4 : Bool) (recs : List (Nat × Nat)) : List Byte :=
  if v4 then
    let r := (recs.map fun (x : Nat × Nat) => beBytes 1 x.1 ++ [0, 0, 0] ++ beBytes 4 (x.2 % 2 ^ 32)).flatten
    let m := [0x22, 0, 0, 0, 0, 0] ++ beBytes 2 recs.length ++ r
    let m := splice m 2 (beBytes 2 (checksum (onesSum m)))
    let g := mapped 0xE0000016
    ethFrame s p (groupMac g) 0x0800 (ip4Packet (ethIp4 s p) g 2 1 [0x94, 4, 0, 0] m)
  else
    let r := (recs.map fun (x : Nat × Nat) => beBytes 1 x.1 ++ [0, 0, 0] ++ beBytes 16 x.2).flatten
    let m := [143, 0, 0, 0, 0, 0] ++ beBytes 2 recs.length ++ r
    let g := 0xFF02 * 2 ^ 112 + 0x16
    ethFrame s p (groupMac g) 0x86DD (icmp6Packet (ethIp6 s p) g 1 [58, 0, 5, 2, 0, 0, 1, 0] m)

/-- Send a report of the given records, one frame a family. -/
def sendReport (p : Nat) (recs : List (Nat × Nat)) (s : State) : State :=
  let v4 := recs.filter fun x => isV4 x.2
  let v6 := recs.filter fun x => !isV4 x.2
  let s := if v4.isEmpty then s else s.send (.ethFrame p (reportFrame s p true v4))
  if v6.isEmpty then s else s.send (.ethFrame p (reportFrame s p false v6))

/-! ### Sending -/

/-- A packet to be sent is dropped and counted (R406, R409). -/
def dropTx (p : Nat) (s : State) : State :=
  (s.wr (R.PORT_ETH_DROP_TX (p - 40)) (satTo 16 (s.rd (R.PORT_ETH_DROP_TX (p - 40)) + 1))).raiseOnce 0x1308 p

/-- A cache entry that has gone unused for 300 s has lapsed (R406). -/
def neighbourLive (s : State) (x : Neighbour) : Bool := decide (s.monoNs < x.usedNs + 300000000000)

/-- The live cache entry of a next hop. -/
def findNeighbour (s : State) (p hop : Nat) : Option Neighbour :=
  (s.port p).neighbours.find? fun x => x.addr == hop && neighbourLive s x

/-- A packet for address `dst` leaves Ethernet port `p`: at once to a group or a resolved next hop, later when the next hop
is not resolved, not at all while the link is down (R406, R409). -/
def sendNet (p dst : Nat) (m : Sent) (s : State) : State :=
  if p < 40 ∨ 48 ≤ p then s
  else if portUp s p = false then dropTx p s
  else if isGroup dst || dst == mapped 0xFFFFFFFF then s.send m
  else
    let hop := nextHop s p dst
    let o := s.port p
    match findNeighbour s p hop with
    | some _ =>
      let use := fun (x : Neighbour) => if x.addr = hop then { x with usedNs := s.monoNs } else x
      (s.setPort p { o with neighbours := o.neighbours.map use }).send m
    | none =>
      let s := s.setPort p { o with held := o.held ++ [{ hop, packet := m, sinceNs := s.monoNs }] }
      s.send (.ethFrame p (resolveFrame s p hop))

/-- A next hop is resolved: it enters the cache of 64 entries, in place of the one that has gone unused longest when the
cache is full, and the packets that waited for it leave (R406). -/
def learnNeighbour (p addr mac : Nat) (s : State) : State :=
  let o := s.port p
  let rest := o.neighbours.filter fun x => x.addr != addr && neighbourLive s x
  let oldest := rest.foldl (fun (b : Option Neighbour) x => match b with
    | none => some x
    | some y => if x.usedNs < y.usedNs then some x else b) none
  let rest := if rest.length < 64 then rest else rest.filter fun x => some x != oldest
  let go := o.held.filter fun h => h.hop == addr
  let s := s.setPort p { o with
    neighbours := rest ++ [{ addr, mac, usedNs := s.monoNs }], held := o.held.filter fun h => h.hop != addr }
  go.foldl (fun s h => s.send h.packet) s

/-- ETH_NEXT_HOP_TIMEOUT: packets that have waited 1 ms for their next hop are dropped (R406). -/
def ethNextHopTimeout (p : Nat) (s : State) : State :=
  let o := s.port p
  let late := fun (h : HeldPacket) => decide (h.sinceNs + 1000000 ≤ s.monoNs)
  let n := (o.held.filter late).length
  let s := s.setPort p { o with held := o.held.filter fun h => !late h }
  (List.range n).foldl (fun s _ => dropTx p s) s

/-- NEIGHBOUR_LAPSE: cache entries unused for 300 s lapse (R406). -/
def neighbourLapse (p : Nat) (s : State) : State :=
  let o := s.port p
  s.setPort p { o with neighbours := o.neighbours.filter (neighbourLive s) }

end Sys2Proof.Machine
end

