-- ==== Sys2Proof/Machine/Reel.lean ====
section
/-!
DEFINITION. Decode reels (R96, R276 to R288, R297 to R301, R408): intake from RTP with its NAL units, stamps, which streams are
supported, the engines and what they take.
-/
namespace Sys2Proof.Machine

/-! ### Configuration (R277, R278, R300) -/

/-- Bytes of a slot of a decode reel (R278). -/
def slotBytes (w h b : Nat) : Nat :=
  planeBytes w h b + pageUp (64 + ((w + 15) / 16 * ((h + 15) / 16) + 3) / 4)

/-- The largest size of a reel. -/
def reelMax (s : State) (r : Nat) : Nat × Nat :=
  (s.rd (R.REEL_MAXSIZE_WIDTH_M1 r) + 1, s.rd (R.REEL_MAXSIZE_HEIGHT_M1 r) + 1)

/-- The UNSUP code of a picture buffer that breaks R278 or lies outside the decode partitions, if it does (R300). -/
def reelBadBuffer (s : State) (r : Nat) : Option Nat :=
  let (w, h) := reelMax s r
  let a := s.rd (R.REEL_BUF_BASE_ADDR r) * 64
  let n := s.rd (R.REEL_BUF_CFG_SLOTS r)
  if n < 4 ∨ a % 4096 ≠ 0 ∨ 4096 < w ∨ 2304 < h ∨ 8912896 < w * h then some 6
  else if inUse s 4 a (a + n * slotBytes w h (s.rd (R.REEL_BUF_CFG_DEPTH10 r) + 1)) then none else some 8

/-- The codec engines of the die that a reel names have no power (R503). -/
def codecUnpowered (s : State) (r : Nat) : Bool := !s.powered (9 + 5 * s.rd (R.REEL_CFG_DIE r))

/-- The sender reports of a reel count: STAMP is 1 and one came within the timeout (R96). -/
def ptpLocked (s : State) (r : Nat) : Bool :=
  s.rdb (R.REEL_CFG_STAMP r)
    && match (s.reel r).sr with
       | none => false
       | some x => decide (s.monoNs < x.2.2 + max 1 (s.rd (R.REEL_SR_TIMEOUT_100MS r)) * 100000000)

/-- A commit sets or clears ENABLE of a decode reel, or leaves it (R299, R300, R226). -/
def reelCommit (before : Nat → Bool) (s : State) (r : Nat) : State :=
  let on := s.rdb (R.REEL_CFG_ENABLE r)
  if s.rd (R.REEL_CFG_MODE r) ≠ 0 then s
  else if on && !before r then
    let s := ((s.wr (R.REEL_PKT_LOST r) 0).wr (R.REEL_PKT_LATE r) 0).wr (R.REEL_PICS_DECODED r) 0
    let s := ((s.wr (R.REEL_PICS_DROPPED r) 0).wr (R.REEL_STATUS_SILENT r) 0).wr (R.REEL_STATUS_DAMAGED r) 0
    if codecUnpowered s r then ((s.setReel r {}).wr (R.REEL_STATUS_STATE r) 0).raise 0x0D0C r
    else match reelBadBuffer s r with
    | some c => (((s.setReel r {}).wr (R.REEL_STATUS_STATE r) 3).wr (R.REEL_STATUS_UNSUP r) c).raise 0x0D0C r
    | none =>
      let wait := s.rd (R.REEL_CFG_START r) == 0
      let s := s.setReel r { up := true, upNs := s.monoNs, acceptedNs := s.monoNs, needIntra := wait, starting := wait }
      ((s.wr (R.REEL_STATUS_STATE r) 1).wr (R.REEL_STATUS_UNSUP r) 0).wr (R.REEL_STATUS_MAPPED r) 0
  else if !on && before r then
    let drop (e : EngineState) : EngineState := if e.reel = r ∧ e.au.isSome then { e with busy := false, au := none } else e
    let es := (List.range 24).foldl (fun s v => s.setEngine v (drop (s.engine v))) s
    ((es.setReel r {}).wr (R.REEL_STATUS_STATE r) (if reelRuns s r then 4 else 0)).wr (R.REEL_STATUS_MAPPED r) 0
  else s.wr (R.REEL_STATUS_MAPPED r) (b2n (ptpLocked s r))

/-- A stopped reel is off once no sheet binds a picture of it (R299). -/
def reelTickEdge (s : State) : State :=
  (List.range 128).foldl (fun s r =>
    if s.rd (R.REEL_STATUS_STATE r) = 4 ∧ reelRuns s r = false then s.wr (R.REEL_STATUS_STATE r) 0 else s) s

/-! ### The engines (R279 to R283, R304) -/

/-- The lowest extended sequence number of an access unit. -/
def AccessUnit.low (a : AccessUnit) : Nat := a.seqs.foldl min (a.seqs.headD 0)
/-- The highest extended sequence number of an access unit. -/
def AccessUnit.high (a : AccessUnit) : Nat := a.seqs.foldl max 0

/-- The access unit of a reel that comes next in decode order, when it is ready: none while an older one is being collected
(R279). -/
def nextAu (st : ReelState) : Option AccessUnit :=
  match st.ready with
  | [] => none
  | a :: _ => if st.open_.any fun o => decide (o.low < a.low) then none else some a

/-- A job that an engine of die `d` could take: rank (R280, R304), time, reel. No frame starts encoding while SOFT work is deferred
(R263). -/
def engineJobs (s : State) (d : Nat) : List (Nat × Nat × Nat) :=
  (List.range 128).filterMap fun r =>
    if s.rd (R.REEL_CFG_DIE r) ≠ d ∨ s.codec.engines.any (fun e => e.2.busy && e.2.reel == r) then none
    else if s.rd (R.REEL_CFG_MODE r) = 0 then
      (nextAu (s.reel r)).map fun a => (if reelVisible s r then 0 else 1, a.firstNs, r)
    else if encDeferred s then none else (s.enc r).ready.map fun e => (1, e.readyNs, r)

/-- The first of the jobs: by rank, then time, then reel. -/
def firstJob (l : List (Nat × Nat × Nat)) : Option (Nat × Nat × Nat) :=
  l.foldl (fun b j => match b with
    | none => some j
    | some x => if j.1 < x.1 ∨ (j.1 = x.1 ∧ (j.2.1 < x.2.1 ∨ (j.2.1 = x.2.1 ∧ j.2.2 < x.2.2))) then some j else b) none

/-- The engine of die `d` that takes work of reel `r`: a free one that holds its context, else the lowest free one (R280). -/
def freeEngine (s : State) (d r : Nat) : Option Nat :=
  let free := (span (12 * d) 12).filter fun v => !(s.engine v).busy
  match free.find? fun v => (s.engine v).context == some r with
  | some v => some v
  | none => free.head?

/-- Count an access unit discarded under R281 to R283. -/
def countDropped (r : Nat) (s : State) : State :=
  s.wr (R.REEL_PICS_DROPPED r) (satTo 16 (s.rd (R.REEL_PICS_DROPPED r) + 1))

/-- A packet goes to the address that the reel's sender reports come from (R408). -/
def sendRtcp (r : Nat) (m : Sent) (s : State) : State := sendNet (s.rd (R.REEL_NET_PORT r)) (s.reel r).srFrom.1 m s

/-- A PLI goes to the sender of the sender reports when R298 lets one go now; `keyreq` is the REEL_KEYREQ word in force. -/
def sendPli (r keyreq : Nat) (s : State) : Bool × State :=
  let st := s.reel r
  let gap := bits keyreq 11 0 * 1000000
  let early : Bool := match st.pliNs with | none => false | some t => decide (s.monoNs < t + gap)
  if bitOf keyreq 31 = false ∨ s.rd (R.REEL_CFG_CODEC r) = 2 ∨ st.sr.isNone ∨ early then (false, s)
  else (true, sendRtcp r (.rtcpPli r st.srFrom.1 st.srFrom.2) (s.setReel r { st with pliNs := some s.monoNs }))

/-! ### NAL units (R281, R284, R289, R297) -/

/-- A NAL unit of an access unit, and whether all of it has arrived. -/
structure NalUnit where
  bytes : List Byte
  whole : Bool
  deriving DecidableEq, Repr

/-- The units of an aggregation packet: each a 16-bit length and its bytes; a length that the packet does not hold leaves the unit
incomplete. -/
def aggregated : Nat → List Byte → List NalUnit
  | 0, _ => []
  | n + 1, bs =>
    match bs with
    | a :: b :: rest =>
      let len := a.toNat * 256 + b.toNat
      { bytes := rest.take len, whole := decide (len ≤ rest.length) } :: aggregated n (rest.drop len)
    | _ => []

/-- What a packet of an access unit carries (R284): whole NAL units, a fragment with its first and last flags, or nothing. -/
inductive RtpForm where
  | units (l : List NalUnit)
  | fragment (first last : Bool) (header : List Byte) (body : List Byte)
  | none_
  | unsupported
  deriving DecidableEq, Repr

/-- The form of a payload of codec `c`: RFC 7798 for HEVC, RFC 6184 for AVC; a JPEG packet (RFC 2435) is a fragment of its picture,
after a header that gives the fragment's offset. -/
def rtpForm (c : Nat) (bs : List Byte) : RtpForm :=
  let byte (i : Nat) : Nat := (bs.getD i 0).toNat
  if bs.isEmpty then .none_
  else if c = 0 then
    let k := bits (byte 0) 6 1
    if k < 48 then .units [{ bytes := bs, whole := true }]
    else if k = 48 then .units (aggregated bs.length (bs.drop 2))
    else if k = 49 then
      .fragment (bitOf (byte 2) 7) (bitOf (byte 2) 6)
        [BitVec.ofNat 8 (byte 0 % 2 + byte 0 / 128 * 128 + byte 2 % 64 * 2), bs.getD 1 0] (bs.drop 3)
    else .none_
  else if c = 1 then
    let k := byte 0 % 32
    if 1 ≤ k ∧ k < 24 then .units [{ bytes := bs, whole := true }]
    else if k = 24 then .units (aggregated bs.length (bs.drop 1))
    else if k = 28 then
      .fragment (bitOf (byte 1) 7) (bitOf (byte 1) 6) [BitVec.ofNat 8 (byte 0 / 32 * 32 + byte 1 % 32)] (bs.drop 2)
    else if k = 25 ∨ k = 26 ∨ k = 27 ∨ k = 29 then .unsupported
    else .none_
  else .fragment (byte 1 = 0 && byte 2 = 0 && byte 3 = 0) false [] (bs.drop 8)

/-- The depacketiser over the payloads of an access unit in sequence order: a fragment that does not follow the one before it
leaves its unit incomplete. `run` is the unit being put together and the sequence number before. -/
def depacketise (c : Nat) : List (Nat × List Byte) → Option (Nat × List Byte) → List NalUnit
  | [], none => []
  | [], some r => [{ bytes := r.2, whole := false }]
  | (n, bs) :: l, run =>
    let cut := (run.map fun r => { bytes := r.2, whole := false : NalUnit }).toList
    match rtpForm c bs with
    | .units us => cut ++ us ++ depacketise c l none
    | .fragment first last header body =>
      if first then
        let u := header ++ body
        if last then cut ++ { bytes := u, whole := true } :: depacketise c l none
        else cut ++ depacketise c l (some (n, u))
      else
        match run with
        | some (m, u) =>
          if m + 1 = n then
            if last then { bytes := u ++ body, whole := true } :: depacketise c l none
            else depacketise c l (some (n, u ++ body))
          else { bytes := u, whole := false } :: { bytes := header ++ body, whole := false } :: depacketise c l none
        | none => { bytes := header ++ body, whole := false } :: depacketise c l none
    | _ => cut ++ depacketise c l none

/-- The NAL units of an access unit. A JPEG picture is one unit; it is whole when its packets run on to the marker's. -/
def AccessUnit.nals (a : AccessUnit) (c : Nat) : List NalUnit :=
  let us := depacketise c a.data none
  if c = 2 then
    match us, a.marker with
    | [u], some m => [{ u with whole := a.data.getLast?.any fun x => x.1 == m }]
    | us, _ => us
  else us

/-- A packet of the access unit uses interleaved packetisation (R284). -/
def AccessUnit.interleaved (a : AccessUnit) (c : Nat) : Bool := a.data.any fun p => rtpForm c p.2 == .unsupported

/-- The type of a NAL unit of codec `c`. -/
def NalUnit.kind (u : NalUnit) (c : Nat) : Nat :=
  let b := (u.bytes.headD 0).toNat
  if c = 0 then bits b 6 1 else b % 32

/-- The messages of an SEI unit (AVC): a recovery point whose recovery frame count, an Exp-Golomb code, is 0 (R297). -/
def recoveryNow : Nat → List Byte → Bool
  | 0, _ => false
  | n + 1, bs =>
    match bs with
    | t :: len :: rest =>
      (t == 6 && bitOf (rest.headD 0).toNat 7) || recoveryNow n (rest.drop len.toNat)
    | _ => false

/-- An access unit is an intra random-access picture: IRAP in HEVC, IDR or a recovery point with count 0 in AVC, and every JPEG
picture (R285, R297). -/
def AccessUnit.intra (a : AccessUnit) (c : Nat) : Bool :=
  c == 2 || (a.nals c).any fun u =>
    let k := u.kind c
    if c = 0 then decide (16 ≤ k ∧ k ≤ 23) else k == 5 || (k == 6 && recoveryNow u.bytes.length (u.bytes.drop 1))

/-- An access unit's coding declares it a non-reference picture: nal_ref_idc 0 in AVC, a sub-layer non-reference unit type in HEVC
(R281). -/
def AccessUnit.nonRef (a : AccessUnit) (c : Nat) : Bool :=
  let slices := (a.nals c).filter fun u => if c = 0 then decide (u.kind c < 32) else decide (1 ≤ u.kind c ∧ u.kind c ≤ 5)
  c != 2 && !slices.isEmpty && slices.all fun u =>
    if c = 0 then u.kind c % 2 == 0 && decide (u.kind c < 16) else bits (u.bytes.headD 0).toNat 6 5 == 0

/-! ### What is supported (R276 to R278, R285) -/

/-- The format that R277 gives the pictures of a stream. -/
def pictureFmt (i : AuInfo) : Nat :=
  if i.profile = 2 then 0xA else if i.profile = 6 ∧ i.sampling = 2 then 6 else 9

/-- A picture fits the planes of a slot of its reel (R278). -/
def fitsSlot (s : State) (r : Nat) (i : AuInfo) : Bool :=
  let (w, h) := reelMax s r
  let b := s.rd (R.REEL_BUF_CFG_DEPTH10 r) + 1
  let rows := if fmtSubY (pictureFmt i) then (i.h + 1) / 2 else i.h
  decide (fmtBytes (pictureFmt i) ≤ b) && decide (rows * (w * b) ≤ pageUp (w * h * b / 2))

/-- The reason for which a stream with parameters `i` is unsupported, 0 for none (R276 to R278, R285). Which code High tier, FMO,
arbitrary slice order, a sample depth and a slot that is too small have, R299 does not say (log 111). -/
def unsupported (s : State) (r : Nat) (i : AuInfo) : Nat :=
  let (w, h) := reelMax s r
  let c := s.rd (R.REEL_CFG_CODEC r)
  let profiles := if c = 0 then [1, 2] else if c = 1 then [3, 4, 5] else [6]
  let depth := if i.profile = 2 then 10 else 8
  if profiles.contains i.profile = false ∨ i.highTier ∨ i.flexible then 1
  else if (c = 0 ∧ 153 < i.levelIdc) ∨ (c = 1 ∧ 51 < i.levelIdc) then 2
  else if w < i.w ∨ h < i.h ∨ 4096 < i.w ∨ 2304 < i.h ∨ 8912896 < i.w * i.h then 3
  else if c = 1 ∧ i.interlaced then 4
  else if depth < i.depth ∨ 2 < i.sampling ∨ (c ≠ 2 ∧ i.sampling = 2) ∨ (c = 0 ∧ i.sampling ≠ 1) then 5
  else if s.rd (R.REEL_BUF_CFG_SLOTS r) < i.dpb + 4 then 6
  else if fitsSlot s r i = false then 3
  else 0

/-- A parameter set of an access unit: a whole one replaces the one of its id; a damaged one is ignored, and the one before it
stays (R289). -/
def takeSet (x : Tab AuInfo) (p : Nat × Nat × Option AuInfo) : Tab AuInfo :=
  match p.2.2 with | none => x | some i => x.put p.2.1 i

/-- An access unit is parsed (R281, R289): its parameter sets become the reel's, its damaged and incomplete units are counted. -/
def parseAu (r : Nat) (a : AccessUnit) (s : State) : State :=
  let st := s.reel r
  let bad := (a.sets.filter fun p => p.2.2.isNone).length + ((a.nals (s.rd (R.REEL_CFG_CODEC r))).filter fun u => !u.whole).length
  let s := s.setReel r { st with context := { st.context with sets := a.sets.foldl takeSet st.context.sets } }
  (s.wr (R.REEL_ERR_SYNTAX r) (satTo 16 (s.rd (R.REEL_ERR_SYNTAX r) + bad))).when (decide (0 < bad)) (·.raiseOnce 0x0D05 r)

/-- The parameters that an access unit's slices name, if the reel holds them. -/
def auParams (s : State) (r : Nat) (a : AccessUnit) : Option AuInfo :=
  ((s.reel r).context.sets.find? (·.1 == a.uses)).map Prod.snd

/-- What becomes of a ready access unit at the moment it is taken (R281, R285, R289, R297): the parameters that it is decoded under,
or none, and the state. A picture whose parameter sets are unavailable is not decoded. -/
def takeAu (r : Nat) (a : AccessUnit) (s : State) : Option AuInfo × State :=
  let s := parseAu r a s
  let c := s.rd (R.REEL_CFG_CODEC r)
  let par := auParams s r a
  let u := if a.interleaved c then 7 else (par.map (unsupported s r)).getD 0
  let lvl := levelNow s r
  let was := s.rd (R.REEL_STATUS_STATE r) == 3
  let intra := a.intra c
  if u ≠ 0 then
    if was then (none, s)
    else
      let s := s.setReel r { s.reel r with needIntra := true, starting := s.rd (R.REEL_CFG_START r) == 0 }
      (none, ((s.wr (R.REEL_STATUS_STATE r) 3).wr (R.REEL_STATUS_UNSUP r) u).raise 0x0D07 r)
  else
    match par with
    | none => (none, s)
    | some i =>
      if was ∧ intra = false then (none, s)
      else
        let s := if was then (s.wr (R.REEL_STATUS_STATE r) 1).wr (R.REEL_STATUS_UNSUP r) 0 else s
        let s := (s.wr (R.REEL_STATUS_PROFILE r) i.profile).wr (R.REEL_STATUS_LEVEL_IDC r) i.levelIdc
        if (lvl = 1 ∧ a.nonRef c) ∨ (2 ≤ lvl ∧ intra = false) then (none, countDropped r s)
        else if (s.reel r).needIntra ∧ intra = false then
          (none, if (s.reel r).starting then (sendPli r (s.word (R.REEL_KEYREQ_PLI_EN r).addr).toNat s).2 else s)
        else (some i, s.setReel r { s.reel r with needIntra := false, starting := false })

/-- An engine that takes work of reel `r` saves the context of another reel that it holds (R280). -/
def saveContext (v r : Nat) (s : State) : State :=
  match (s.engine v).context with
  | none => s
  | some q => if q = r then s else s.setReel q { s.reel q with saved := (s.reel q).context }

/-- The free engines of die `d` take jobs, the first of them each time (R280). -/
def engineTake (d : Nat) : Nat → State → State
  | 0, s => s
  | n + 1, s =>
    match firstJob (engineJobs s d) with
    | none => s
    | some (_, _, r) =>
      match freeEngine s d r with
      | none => s
      | some v =>
        if s.rd (R.REEL_CFG_MODE r) = 0 then
          match nextAu (s.reel r) with
          | none => s
          | some a =>
            let (go, t) := takeAu r a (s.setReel r { s.reel r with ready := (s.reel r).ready.drop 1 })
            let e : EngineState := { busy := true, reel := r, sinceNs := t.monoNs, au := some { a with info := go }
                                     context := some r, words := [(t.word (R.REEL_KEYREQ_PLI_EN r).addr).toNat] }
            engineTake d n (if go.isSome then (saveContext v r t).setEngine v e else t)
        else
          let st := s.enc r
          let e : EngineState := { busy := true, reel := r, sinceNs := s.monoNs, enc := st.ready, context := some r,
                                   idr := codesIdr s r, words := encWords s r
                                   samples := (st.ready.map (codedSamples s r)).getD []
                                   hints := (st.ready.map (frameHints s r)).getD [] }
          engineTake d n ((((saveContext v r s).setEnc r { st with ready := none, idrReq := false }).setEngine v e).wr (R.ENC_STATUS_STATE r) 2)

/-- The engines of both dies take what is ready for them. -/
def dispatchEngines (s : State) : State := engineTake 1 4096 (engineTake 0 4096 s)

/-! ### Intake (R284 to R287) -/

/-- The destination group of a reel, as a 128-bit number with byte 0 on top. -/
def reelGroup (s : State) (r : Nat) : Nat := (List.range 4).foldl (fun x k => x * 2 ^ 32 + s.rd (R.REEL_GROUP_ADDR r k)) 0

/-- A packet belongs to reel `r` (R284). -/
def packetBelongs (s : State) (r : Nat) (p : RtpPacket) : Bool :=
  (s.reel r).up && p.port == s.rd (R.REEL_NET_PORT r) && p.dst == reelGroup s r
    && p.udp == s.rd (R.REEL_NET_UDP_PORT r) && p.pt == s.rd (R.REEL_NET_PT r)
    && (if s.rdb (R.REEL_CFG_SSRC_EN r) then p.ssrc == s.rd (R.REEL_SSRC_SSRC r)
        else match (s.reel r).ssrc with | none => true | some x => x == p.ssrc)

/-- Extend a sequence number to the one nearest the highest so far (R286). -/
def extendSeq (high : Option Nat) (seq : Nat) : Nat :=
  match high with
  | none => 65536 + seq % 65536
  | some h => ((h : Int) + signed 16 (seq % 65536 + 65536 - h % 65536)).toNat

/-- The stamp of an access unit whose first packet arrives now (R96, R288), whether it is mapped, and whether it lies ahead of its
arrival. -/
def auStamp (s : State) (r ts : Nat) : Nat × Bool × Bool :=
  match (s.reel r).sr with
  | some (ntp, rtp, _) =>
    if ptpLocked s r then
      let d := signed 32 (ts % 2 ^ 32 + 2 ^ 32 - rtp % 2 ^ 32)
      let us := ((ntp : Int) * 90000 + d * 2 ^ 32) * 1000000 / (2 ^ 32 * 90000)
      let w := (us.emod (2 ^ 32)).toNat
      (w, true, decide (0 < signed 32 (w + 2 ^ 32 - s.wus)))
    else (s.wus, false, false)
  | none => (s.wus, false, false)

/-- The last sequence number of the access unit before the one that begins at `low`, if it is known: `some none` where no
access unit came before. -/
def prevEnd (st : ReelState) (low : Nat) : Option (Option Nat) :=
  let opens := (st.open_.filter fun o => decide (o.low < low)).map fun o => (o.high, o.marker)
  let all := opens ++ (st.closed.filter fun c => decide (c.2 < low)).map fun c => (c.2, some c.2)
  match all.foldl (fun (b : Option (Nat × Option Nat)) x =>
    match b with | none => some x | some y => if y.1 < x.1 then some x else b) none with
  | none => some none
  | some x => x.2.map some

/-- Every packet of an access unit is there (R286). -/
def auComplete (st : ReelState) (a : AccessUnit) : Bool :=
  match a.marker, prevEnd st a.low with
  | some m, some e => (span ((e.map (· + 1)).getD a.low) (m + 1 - (e.map (· + 1)).getD a.low)).all a.seqs.contains
  | _, _ => false

/-- The sequence numbers missing from an access unit that is handed on. -/
def auMissing (st : ReelState) (a : AccessUnit) : List Nat :=
  let from_ := match prevEnd st a.low with | some (some e) => e + 1 | _ => a.low
  (span from_ (a.high + 1 - from_)).filter fun x => !a.seqs.contains x

/-- The packets taken as lost, and the register that shows them. -/
def setLost (r n : Nat) (s : State) : State :=
  (s.setReel r { s.reel r with lost := n }).wr (R.REEL_PKT_LOST r) (satTo 16 n)

/-- Put an access unit into a list in decode order. -/
def insertAu (a : AccessUnit) : List AccessUnit → List AccessUnit
  | [] => [a]
  | b :: l => if a.low < b.low then a :: b :: l else b :: insertAu a l

/-- An access unit becomes ready (R286, R282); what it brings is noted for the slack of R265. Its missing packets count as lost
unless they still arrive (log 112). -/
def makeReady (r : Nat) (s : State) (a : AccessUnit) : State :=
  let st := s.reel r
  let gone := auMissing st a
  let s := setLost r (st.lost + gone.length) s
  let c := s.rd (R.REEL_CFG_CODEC r)
  let q := insertAu a st.ready
  let s := s.setReel r { s.reel r with
    open_ := st.open_.filter (·.ts != a.ts)
    closed := ((a.ts, a.high) :: st.closed).take 16
    missing := (gone ++ st.missing).take 65536
    ready := if 8 < q.length then q.drop 1 else q }
  let lvl := if a.intra c then 2 else if a.nonRef c then 0 else 1
  let now := s.rd R.TICK_COUNT_COUNT
  let old := (s.damper.stamps.get (fun _ => []) r).filter fun e => decide ((now + 2 ^ 32 - e.1) % 2 ^ 32 ≤ 64)
  let s := { s with damper := { s.damper with stamps := s.damper.stamps.set (fun _ => []) r ((now, a.stamp, lvl) :: old) } }
  if 8 < q.length then (countDropped r s).raiseOnce 0x0D08 r else s

/-- The access units whose JB_US has passed become ready (R286). -/
def expireAus (r : Nat) (s : State) : State :=
  let due := (s.reel r).open_.filter fun a => decide (a.firstNs + s.rd (R.REEL_JB_JB_US r) * 1000 ≤ s.monoNs)
  due.foldl (makeReady r) s

/-- The access units of which every packet is there become ready, the first in sequence order first. -/
def readyAus (r : Nat) : Nat → State → State
  | 0, s => s
  | n + 1, s =>
    match (s.reel r).open_.find? (auComplete (s.reel r)) with
    | none => s
    | some a => readyAus r n (makeReady r s a)

/-- Put a payload into its place by sequence number. -/
def insertData (x : Nat × List Byte) : List (Nat × List Byte) → List (Nat × List Byte)
  | [] => [x]
  | y :: l => if x.1 < y.1 then x :: y :: l else y :: insertData x l

/-- Put a packet's parameter sets into their place by sequence number. -/
def insertSets (xs l : List (Nat × Nat × Option AuInfo)) : List (Nat × Nat × Option AuInfo) :=
  let e := (xs.map Prod.fst).headD 0
  (l.filter fun y => decide (y.1 < e)) ++ xs ++ l.filter fun y => decide (e ≤ y.1)

/-- A packet joins its access unit, or begins it, taking its stamp (R286, R96, R288). -/
def joinAu (r : Nat) (p : RtpPacket) (e : Nat) (s : State) : State :=
  let st := s.reel r
  match st.open_.find? (·.ts == p.ts) with
  | some a =>
    let fresh := !a.seqs.contains e
    let a' := { a with
      seqs := if fresh then a.seqs ++ [e] else a.seqs
      data := if fresh then insertData (e, p.payload) a.data else a.data
      sets := if fresh then insertSets (p.sets.map fun x => (e, x)) a.sets else a.sets
      marker := if p.marker then some e else a.marker }
    s.setReel r { st with open_ := insertAu a' (st.open_.filter (·.ts != p.ts)) }
  | none =>
    let (w, mapped, ahead) := auStamp s r p.ts
    let a : AccessUnit := { ts := p.ts, seqs := [e], marker := if p.marker then some e else none, firstNs := s.monoNs
                            data := [(e, p.payload)], sets := p.sets.map fun x => (e, x), uses := p.uses, stamp := w }
    let s := s.setReel r { st with open_ := insertAu a st.open_, ahead := if mapped then ahead else st.ahead }
    if mapped && ahead && !st.ahead then s.raise 0x0D0A r else s

/-- RTP_PACKET_RECEIVED: a packet arrives for reel `r` (R284, R286, R287). -/
def rtpPacketReceived (r : Nat) (p : RtpPacket) (s : State) : State :=
  if packetBelongs s r p = false then s
  else
    let s := expireAus r s
    let s := if (s.reel r).ssrc.isNone && !s.rdb (R.REEL_CFG_SSRC_EN r) then s.wrBoth (R.REEL_SSRC_SSRC r) p.ssrc else s
    let st := s.reel r
    let e := extendSeq st.highSeq p.seq
    let s := (s.setReel r { st with
      ssrc := some (st.ssrc.getD p.ssrc)
      highSeq := some (max e (st.highSeq.getD e))
      acceptedNs := s.monoNs }).wr (R.REEL_STATUS_SILENT r) 0
    let st := s.reel r
    let isOpen := st.open_.any (·.ts == p.ts)
    let late := !isOpen && st.closed.any fun c => c.1 == p.ts || decide (e < c.2)
    if late then
      let s := s.setReel r { st with
        closed := st.closed.map fun c => if c.1 = p.ts then (c.1, max c.2 e) else c
        missing := st.missing.erase e }
      let s := if st.missing.contains e then setLost r (st.lost - 1) s else s
      dispatchEngines (s.wr (R.REEL_PKT_LATE r) (satTo 16 (s.rd (R.REEL_PKT_LATE r) + 1)))
    else dispatchEngines (readyAus r (st.open_.length + 1) (joinAu r p e s))

/-- ACCESS_UNIT_JB_EXPIRY: JB_US has passed since the first packet of an access unit of reel `r` (R286). -/
def accessUnitJbExpiry (r : Nat) (s : State) : State :=
  let t := expireAus r s
  dispatchEngines (readyAus r ((t.reel r).open_.length + 1) t)

/-- DEC_SILENT: no packet was accepted for LOSS_MS (R287). -/
def decSilent (r : Nat) (s : State) : State :=
  let ms := s.rd (R.REEL_JB_LOSS_MS r)
  if (s.reel r).up && ms != 0 && !s.rdb (R.REEL_STATUS_SILENT r)
      && decide ((s.reel r).acceptedNs + ms * 1000000 ≤ s.monoNs)
  then (s.wr (R.REEL_STATUS_SILENT r) 1).raise 0x0D0B r else s

/-! ### Sender and receiver reports (R288, R408) -/

/-- RTCP_SR_RECEIVED: a sender report for reel `r` arrives from address `addr` and UDP port `udp`. -/
def rtcpSrReceived (r ntp rtp addr udp : Nat) (s : State) : State :=
  let st := s.reel r
  if st.up then
    let s := s.setReel r { st with
      sr := some (ntp, rtp, s.monoNs), srFrom := (addr, udp), srLost := false
      rrNs := if st.sr.isNone then s.monoNs else st.rrNs }
    s.wr (R.REEL_STATUS_MAPPED r) (b2n (ptpLocked s r))
  else s

/-- DEC_SR_LOST: no sender report came within the timeout (R288). -/
def decSrLost (r : Nat) (s : State) : State :=
  let st := s.reel r
  let since := match st.sr with | none => st.upNs | some x => x.2.2
  if st.up && s.rdb (R.REEL_CFG_STAMP r) && !st.srLost
      && decide (since + max 1 (s.rd (R.REEL_SR_TIMEOUT_100MS r)) * 100000000 ≤ s.monoNs)
  then ((s.setReel r { st with srLost := true }).wr (R.REEL_STATUS_MAPPED r) 0).raise 0x0D09 r else s

/-- RTCP_RR_TIMER: five seconds after the last one a receiver report goes to the sender of the sender reports (R408). -/
def rtcpRrTimer (r : Nat) (s : State) : State :=
  let st := s.reel r
  if st.up && st.sr.isSome && decide (st.rrNs + 5000000000 ≤ s.monoNs)
  then sendRtcp r (.rtcpRr r st.srFrom.1 st.srFrom.2) (s.setReel r { st with rrNs := s.monoNs }) else s

end Sys2Proof.Machine
end

