-- ==== Sys2Proof/Machine/Pictures.lean ====
section
/-!
DEFINITION. Decoded pictures (R277, R278, R283, R289 to R299): lost blocks and their concealment, references never received, trust
and concealment marks with CSTAMP, the slots of the picture buffer, output, damage episodes and keyframe requests.
-/
namespace Sys2Proof.Machine

/-! ### Blocks and samples -/

/-- The 16 × 16 blocks of a picture across and down. -/
def blocksAcross (i : AuInfo) : Nat := (i.w + 15) / 16
def blocksDown (i : AuInfo) : Nat := (i.h + 15) / 16

/-- The blocks of a slice that decode (R289): all of them when its unit is whole and keeps to the standard, those before the error
otherwise, none under a damaged header. -/
def sliceDecoded (x : Slice) (bad : List Nat) : List Nat :=
  if x.badHeader then [] else if bad.contains x.nal then x.blocks.take x.good else x.blocks

/-- The NAL units of an access unit that are damaged: incomplete, or breaking the standard (R289). -/
def damagedNals (us : List NalUnit) (p : Picture) : List Nat :=
  (us.zipIdx.filterMap fun u => if u.1.whole then none else some u.2) ++ p.bad

/-- The blocks of a picture that decode, in decode order. -/
def decodedBlocks (us : List NalUnit) (p : Picture) : List Nat :=
  p.slices.flatMap fun x => sliceDecoded x (damagedNals us p)

/-- The lost blocks of a picture (R289). -/
def lostBlocks (i : AuInfo) (dec : List Nat) : List Nat := (List.range (blocksAcross i * blocksDown i)).filter fun b => !dec.contains b

/-- The size of plane `c`: luma, Cb, Cr. -/
def planeSize (i : AuInfo) (c : Nat) : Nat × Nat :=
  let f := pictureFmt i
  (if 0 < c ∧ fmtSubX f then (i.w + 1) / 2 else i.w, if 0 < c ∧ fmtSubY f then (i.h + 1) / 2 else i.h)

/-- The block that holds a sample of plane `c`. -/
def blockAt (i : AuInfo) (c x y : Nat) : Nat :=
  let f := pictureFmt i
  (if 0 < c ∧ fmtSubY f then 2 * y else y) / 16 * blocksAcross i + (if 0 < c ∧ fmtSubX f then 2 * x else x) / 16

/-- Mid-range of a sample of a picture (R277). -/
def midSample (i : AuInfo) : Nat := 2 ^ (fmtDepth (pictureFmt i) - 1)

/-- A stored sample of frame `fr`: plane `c` at (x, y). -/
def storedSample (mem : Tab Byte) (fr : Frame) (c x y : Nat) : Nat :=
  (frameFetch mem fr).at_ false c (x : Int) (y : Int) / 2 ^ (12 - fmtDepth fr.fmt)

/-- The earlier picture that block `b` of a picture is copied from (R290): one that holds the co-located block in the same format
(log 109). -/
def copySource (last : Option Frame) (i : AuInfo) (b : Nat) : Option Frame :=
  last.filter fun o => o.fmt == pictureFmt i && decide (b % max 1 (blocksAcross i) < (o.w + 15) / 16) && decide (b / max 1 (blocksAcross i) < (o.h + 15) / 16)

/-- The co-located block of an earlier picture. -/
def colocated (i : AuInfo) (o : Frame) (b : Nat) : Nat := b / max 1 (blocksAcross i) * ((o.w + 15) / 16) + b % max 1 (blocksAcross i)

/-- The value at `d` of `n` lines on the line from `a` to `b`, a whole number next to it where it is none (R290, log 109). -/
def interpolate (a b d n : Nat) : Nat :=
  let x := a * (n - d) + b * d
  x / max 1 n + (if x % max 1 n = 0 then 0 else (Config.interpolation a b d n).toNat)

/-- The sample of a lost block that no picture is copied into: interpolated in its column between the nearest decoded samples above
and below, the one of them that exists, or mid-grey (R290). -/
def columnSample (dec : List Nat) (i : AuInfo) (get : Nat → Nat) (c x y : Nat) : Nat :=
  let h := (planeSize i c).2
  let ok (y : Nat) : Bool := dec.contains (blockAt i c x y)
  match (List.range y).reverse.find? ok, (span (y + 1) (h - (y + 1))).find? ok with
  | some u, some d => interpolate (get u) (get d) (y - u) (d - u)
  | some u, none => get u
  | none, some d => get d
  | none, none => midSample i

/-- A sample of a decoded picture as it is written: decoded, or concealed; chroma at mid-range where the stream has none (R277,
R290). -/
def pictureSample (mem : Tab Byte) (last : Option Frame) (dec : List Nat) (i : AuInfo) (p : Picture) (c x y : Nat) : Nat :=
  let w := (planeSize i c).1
  let own (y : Nat) : Nat := (p.planes.getD c []).getD (y * w + x) 0 * 2 ^ (fmtDepth (pictureFmt i) - i.depth)
  if 0 < c ∧ i.sampling = 0 then midSample i
  else
    let b := blockAt i c x y
    if dec.contains b then own y
    else match copySource last i b with
      | some o => storedSample mem o c x y
      | none => columnSample dec i own c x y

/-! ### Slots (R93, R278, R293) -/

/-- The frames of reel `r` that must not be overwritten: its references, the pictures not given out, its newest pictures, and those
that sheets bind (R93, R278). -/
def heldPictures (s : State) (r : Nat) : List Frame :=
  let o := s.source (sourceKey 2 r)
  (s.reel r).context.refs.map Prod.snd ++ (s.reel r).dpb.map Prod.snd ++ o.newest.toList ++ o.prior.toList
    ++ (sheetsHeld s).flatMap fun sh => (sh.layers.filter fun l => sh.layerKey l.num == sourceKey 2 r).filterMap (·.frame)

/-- The address of slot `n` of a reel. -/
def slotAddr (s : State) (r n : Nat) : Nat :=
  let (w, h) := reelMax s r
  s.rd (R.REEL_BUF_BASE_ADDR r) * 64 + n * slotBytes w h (s.rd (R.REEL_BUF_CFG_DEPTH10 r) + 1)

/-- The slot for a new picture: the lowest-numbered that holds none of those and not the last decoded picture, else the
lowest-numbered that holds none of those (log 110). -/
def pictureSlot (s : State) (r : Nat) : Nat :=
  let slots := List.range (s.rd (R.REEL_BUF_CFG_SLOTS r))
  let free (keep : List Frame) : Option Nat := slots.find? fun n => keep.all fun fr => (fr.place.map Prod.fst) != some (slotAddr s r n)
  let held := heldPictures s r
  (free (held ++ (s.reel r).last.toList)).getD ((free held).getD 0)

/-- A sample as stored (R105): a byte, or a 16-bit container with the value on top. -/
def sampleBytes (fmt v : Nat) : List Byte :=
  if fmtBytes fmt = 1 then [BitVec.ofNat 8 v] else leBytes 2 (v * 2 ^ (16 - fmtDepth fmt))

/-- A picture is written into its slot: the luma rows, the chroma rows, and the map area (R277, R278, R293). `sample` gives its
samples by plane. -/
def writePicture (a pitch uv area : Nat) (i : AuInfo) (sample : Nat → Nat → Nat → Nat) (map_ : List Byte) (s : State) : State :=
  let fmt := pictureFmt i
  let s := (List.range i.h).foldl (fun s y =>
    s.memWrite (a + y * pitch) ((List.range i.w).flatMap fun x => sampleBytes fmt (sample 0 x y))) s
  let s := (List.range (planeSize i 1).2).foldl (fun s y =>
    s.memWrite (uv + y * pitch) ((List.range (planeSize i 1).1).flatMap fun x =>
      sampleBytes fmt (sample 1 x y) ++ sampleBytes fmt (sample 2 x y))) s
  s.memWrite area map_

/-! ### References, trust, concealment (R290 to R296) -/

/-- A frame with every sample untrusted, that stands for a reference never received: the most recent decoded picture, or mid-grey
(R291). -/
def substitute (st : ReelState) (i : AuInfo) : Frame :=
  let all := List.range (blocksAcross i * blocksDown i)
  match st.last with
  | some o => { o with untrusted := List.range ((o.w + 15) / 16 * ((o.h + 15) / 16)) }
  | none => { w := i.w, h := i.h, fmt := pictureFmt i, untrusted := all }

/-- The reference pictures that a picture refers to and the reel does not hold (R291). -/
def missingRefs (st : ReelState) (p : Picture) : List Nat :=
  p.refs.eraseDups.filter fun n => !st.context.refs.any (·.1 == n)

/-- The picture that a reference by name reads. -/
def referenceFrame (st : ReelState) (i : AuInfo) (n : Nat) : Frame :=
  ((st.context.refs.find? (·.1 == n)).map Prod.snd).getD (substitute st i)

/-- The marks of the blocks decoded so far: untrusted, concealed, and the reference pictures whose concealed blocks were used. -/
structure Marks where
  untrusted : List Nat := []
  concealed : List Nat := []
  sources : List Frame := []
  deriving DecidableEq, Repr

/-- The marks of one block from its prediction sources (R292, R293, R296). -/
def markBlock (st : ReelState) (i : AuInfo) (p : Picture) (m : Marks) (b : Nat) : Marks :=
  match p.sources.find? (·.block == b) with
  | none => m
  | some x =>
    let refs := x.inter.map fun e => (referenceFrame st i e.1, e.2)
    let hit := refs.filter fun e => e.2.any e.1.concealed.contains
    let u := x.poisoned || refs.any (fun e => e.2.any e.1.untrusted.contains) || x.intra.any m.untrusted.contains
    let c := !hit.isEmpty || x.intra.any m.concealed.contains
    { untrusted := if u then m.untrusted ++ [b] else m.untrusted
      concealed := if c then m.concealed ++ [b] else m.concealed
      sources := m.sources ++ hit.map Prod.fst }

/-- An interpolated block is trusted when the nearest decoded samples above and below it that exist are, and one exists
(R290). -/
def interpTrusted (i : AuInfo) (dec untrusted : List Nat) (b : Nat) : Bool :=
  let bw := max 1 (blocksAcross i)
  let col (ys : List Nat) : Option Nat := (ys.map fun y => y * bw + b % bw).find? dec.contains
  let near := (col (List.range (b / bw)).reverse).toList ++ (col (span (b / bw + 1) (blocksDown i - (b / bw + 1)))).toList
  !near.isEmpty && near.all fun j => !untrusted.contains j

/-- The older of two stamps with their ancient flags at time `now`. -/
def olderStamp (now : Nat) (a b : Nat × Bool) : Nat × Bool := if ageOf a.1 a.2 now < ageOf b.1 b.2 now then b else a

/-- The stamps that the concealment of a picture brings: of the picture copied from, of the picture itself for a block
interpolated, and the CSTAMP of each reference whose concealed blocks were used (R294). -/
def concealStamps (last : Option Frame) (i : AuInfo) (stamp : Nat) (lost : List Nat) (m : Marks) : List (Nat × Bool) :=
  lost.map (fun b => match copySource last i b with
    | some o => (o.stamp, o.ancient)
    | none => (stamp, false)) ++ m.sources.filterMap (·.cstamp)

/-- The frame that a decoded picture becomes, in the slot at `place`, with its chroma plane at `uv`: its marks and its stamps
(R290 to R294). -/
def pictureFrame (s : State) (r : Nat) (i : AuInfo) (stamp : Nat) (dec : List Nat) (p : Picture) (place : Nat × Nat) (uv : Nat) :
    Frame :=
  let st := s.reel r
  let lost := lostBlocks i dec
  let m := dec.foldl (markBlock st i p) {}
  let lostUntrusted := lost.filter fun b => match copySource st.last i b with
    | some o => o.untrusted.contains (colocated i o b)
    | none => !interpTrusted i dec m.untrusted b
  let concealed := m.concealed ++ lost
  { serial := s.comp.serial, stamp, w := i.w, h := i.h, fmt := pictureFmt i, place := some place, chroma := some uv
    untrusted := m.untrusted ++ lostUntrusted, concealed
    cstamp := if concealed.isEmpty then none else
      match concealStamps st.last i stamp lost m with
      | [] => none
      | x :: l => some (l.foldl (olderStamp s.wus) x) }

/-- The map area of a slot: the 64-byte picture record and two bits for each block, in the implementation's layout (R278, R293,
R294). -/
def mapArea (i : AuInfo) (fr : Frame) : List Byte :=
  let record := [fr.stamp, fr.w, fr.h, fr.fmt] ++ (fr.cstamp.toList.map Prod.fst)
  let marks := (List.range (blocksAcross i * blocksDown i)).map fun b => b2n (fr.untrusted.contains b) + 2 * b2n (fr.concealed.contains b)
  (List.range (64 + (blocksAcross i * blocksDown i + 3) / 4)).map (Config.mapByte record marks)

/-- The registers that describe the newest decoded picture, decoded by engine `v` since `since` (R299). -/
def notePicture (r v since : Nat) (fr : Frame) (s : State) : State :=
  let s := (s.wr (R.REEL_PICSIZE_HEIGHT_M1 r) (fr.h - 1)).wr (R.REEL_PICSIZE_WIDTH_M1 r) (fr.w - 1)
  let s := (s.wr (R.REEL_LAST_STAMP_WUS r) fr.stamp).wr (R.REEL_CSTAMP_WUS r) ((fr.cstamp.map Prod.fst).getD fr.stamp)
  let s := (s.wr (R.REEL_MAPS_UNTRUSTED r) fr.untrusted.length).wr (R.REEL_MAPS_CONCEALED r) fr.concealed.length
  let s := (s.wr (R.REEL_ENGINE_ENGINE r) v).wr (R.REEL_ENGINE_DEC_US r) (satTo 16 ((s.monoNs - since) / 1000))
  (s.wr (R.REEL_PICS_DECODED r) (satTo 16 (s.rd (R.REEL_PICS_DECODED r) + 1))).wr (R.REEL_STATUS_STATE r) 2

/-- The pictures that the output process gives out complete as frames of the reel, in output order; the first ever raises
DEC_STARTED (R91, R297). -/
def outputPictures (r : Nat) : Nat → State → State
  | 0, s => s
  | n + 1, s =>
    let st := s.reel r
    match st.dpb.foldl (fun (b : Option (Nat × Frame)) x =>
      match b with | none => some x | some y => if x.1 < y.1 then some x else b) none with
    | none => s
    | some x =>
      let t := completeSource (sourceKey 2 r) x.2 (s.setReel r { st with dpb := st.dpb.erase x, started := true })
      outputPictures r n (if st.started then t else t.raise 0x0D01 r)

/-- A damage episode begins, goes on or ends with a picture (R298); answers whether a PLI was due for it. -/
def damageEpisode (r : Nat) (fr : Frame) (s : State) : Bool × State :=
  let st := s.reel r
  let bad := !fr.untrusted.isEmpty || !fr.concealed.isEmpty
  match st.episode, bad with
  | none, true =>
    (true, ((s.setReel r { st with episode := some s.monoNs, firNs := none, pliRaised := false }).wr
      (R.REEL_STATUS_DAMAGED r) 1).raise 0x0D02 r)
  | some _, true => (true, s)
  | some _, false => (false, ((s.setReel r { st with episode := none }).wr (R.REEL_STATUS_DAMAGED r) 0).raise 0x0D03 r)
  | none, false => (false, s)

/-- A picture of reel `r` is decoded (R277, R290 to R297): it is written into its slot with its maps, becomes the reel's last one
and, where it is one, a reference, and pictures are given out. Answers its frame and the state. -/
def storePicture (r : Nat) (i : AuInfo) (stamp : Nat) (dec : List Nat) (p : Picture) (s : State) : Frame × State :=
  let (w, h) := reelMax s r
  let b := s.rd (R.REEL_BUF_CFG_DEPTH10 r) + 1
  let a := slotAddr s r (pictureSlot s r)
  let uv := a + pageUp (w * h * b)
  let fr := pictureFrame s r i stamp dec p (a, w * b) uv
  let sample := pictureSample s.mem.bytes (s.reel r).last dec i p
  let s := writePicture a (w * b) uv (a + planeBytes w h b) i sample (mapArea i fr) s
  let s := { s with comp := { s.comp with serial := s.comp.serial + 1 } }
  let st := s.reel r
  let refs := (st.context.refs ++ [(p.name, fr)]).filter fun x => p.keep.contains x.1
  (fr, outputPictures r p.bump (s.setReel r { st with
    last := some fr, dpb := st.dpb ++ [(p.order, fr)], context := { st.context with refs } }))

/-- DECODE_PICTURE_DONE: engine `v` completes its picture and becomes free; a picture of which no slice decodes is never received
(R289). -/
def decodePictureDone (v : Nat) (p : Picture) (s : State) : State :=
  let e := s.engine v
  match e.busy, e.au.bind fun a => a.info.map fun i => (a, i) with
  | true, some (a, i) =>
    let r := e.reel
    let us := a.nals (s.rd (R.REEL_CFG_CODEC r))
    let dec := decodedBlocks us p
    let gone := missingRefs (s.reel r) p
    let bad := (p.bad.filter fun k => (us[k]?).any (·.whole)).length
    let s := s.setEngine v { e with busy := false, au := none }
    let s := s.wr (R.REEL_ERR_SYNTAX r) (satTo 16 (s.rd (R.REEL_ERR_SYNTAX r) + bad))
    let s := s.wr (R.REEL_ERR_REF_MISSING r) (satTo 8 (s.rd (R.REEL_ERR_REF_MISSING r) + gone.length))
    let s := s.wr (R.REEL_ERR_DRAM_UE r) (satTo 8 (s.rd (R.REEL_ERR_DRAM_UE r) + p.dramUe))
    let errs := fun (s : State) => (s.when (!gone.isEmpty) (·.raiseOnce 0x0D04 r)).when (decide (0 < bad)) (·.raiseOnce 0x0D05 r)
    if dec.isEmpty then dispatchEngines (errs s)
    else
      let (fr, s) := storePicture r i a.stamp dec p s
      let (damaged, s) := damageEpisode r fr (notePicture r v e.sinceNs fr s)
      let s := errs s
      let (sent, s) := if damaged then sendPli r (e.words.headD 0) s else (false, s)
      let s := if sent && !(s.reel r).pliRaised
        then (s.setReel r { s.reel r with pliRaised := true }).raise 0x0D06 r else s
      dispatchEngines s
  | _, _ => s

/-- FIR_TIMER: FIR_MS has passed in a damage episode (R298). -/
def firTimer (r : Nat) (s : State) : State :=
  let st := s.reel r
  match st.episode with
  | none => s
  | some t =>
    let since := (st.firNs).getD t
    if s.rdb (R.REEL_KEYREQ_FIR_EN r) && s.rd (R.REEL_CFG_CODEC r) != 2 && st.sr.isSome
        && decide (since + max 1 (s.rd (R.REEL_KEYREQ_FIR_MS r)) * 1000000 ≤ s.monoNs)
    then (sendRtcp r (.rtcpFir r st.firSeq st.srFrom.1 st.srFrom.2)
      (s.setReel r { st with firNs := some s.monoNs, firSeq := (st.firSeq + 1) % 256 })).raise 0x0D06 r
    else s

/-- The context of a reel goes back to its last saved copy: its parameter sets, and those of its references whose pictures the
reel still holds (R283). -/
def restoreContext (r : Nat) (s : State) : State :=
  let st := s.reel r
  s.setReel r { st with context := {
    sets := st.saved.sets
    refs := st.saved.refs.filter fun x => st.context.refs.any fun y => y.1 == x.1 && y.2.serial == x.2.serial } }

/-- DEC_ENGINE_RESET: an engine that has not completed its picture in 50 ms is reset (R283). -/
def decEngineReset (v : Nat) (s : State) : State :=
  let e := s.engine v
  if e.busy && e.au.isSome && decide (e.sinceNs + 50000000 ≤ s.monoNs) then
    dispatchEngines ((countDropped e.reel (restoreContext e.reel (s.setEngine v { e with busy := false, au := none }))).raise 0x0D0D v)
  else s

end Sys2Proof.Machine
end

