-- ==== Sys2Proof/Machine/Touch.lean ====
section
/-!
DEFINITION. Touch panels and the sense front end (R475 to R493): scans, baselines, contacts, gestures, reports, self-test
and survey.
-/
namespace Sys2Proof.Machine

/-- The drive lines of panel `p`. -/
def panelLines (s : State) (p : Nat) : List Nat := span (s.panel p).first (s.panel p).count

/-- The sense channels of overlay `o`. -/
def overlayChannels (s : State) (o : Nat) : List Nat :=
  span (s.rd (R.TCH_OVL_MAP_SENSE_FIRST o)) (s.rd (R.TCH_OVL_MAP_SENSE_COUNT o))

/-- The sense channels of panel `p`. -/
def panelChannels (s : State) (p : Nat) : List Nat := (panelOverlays s p).flatMap (overlayChannels s)

/-- The node at drive line `d` and sense channel `c` (R492). -/
def nodeIx (d c : Nat) : Nat := d * 192 + c

/-- H[c][r] = (−1)^popcount(c & r), for a chip and a line of a group of eight (R477). -/
def walsh (c r : Nat) : Int :=
  if ((List.range 3).filter fun i => bitOf (c &&& r) i).length % 2 = 0 then 1 else -1

/-- The raw count of R477 of line `r` of group `g` at channel `ch`, from the integrated charges. -/
def rawCount (y : List (List (List Int))) (g r ch : Nat) : Nat :=
  let sum := (List.range 8).foldl (fun acc c => acc + walsh c r * (((y.getD g []).getD c []).getD ch 0)) (0 : Int)
  (max 0 (min 65535 (roundAway sum 8))).toNat

/-- Every node of panel `p` with its raw count under R477. -/
def scanRaw (s : State) (p : Nat) (y : List (List (List Int))) : List (Nat × Nat × Nat) :=
  (panelLines s p).zipIdx.flatMap fun (d, i) =>
    (panelChannels s p).map fun ch => (d, ch, rawCount y (i / 8) (i % 8) ch)

/-- Scans per tick: the largest of 1, 2 and 4 not above RPT and 240 Hz / tick rate (R479). -/
def scansPerTick (s : State) (p : Nat) : Nat :=
  let rpt := [1, 2, 4, 4].getD (s.rd (R.TCH_PNL_CTRL_RPT p)) 4
  let (n, d) := rateFrac (s.rd R.TICK_CFG_RATE)
  if 4 ≤ rpt ∧ 4 * n ≤ 240 * d then 4 else if 2 ≤ rpt ∧ 2 * n ≤ 240 * d then 2 else 1

/-- The slot of the present time in the low-power scan grid, aligned to whole seconds (R488). -/
def lpSlot (s : State) (p : Nat) : Nat :=
  s.time.sec * s.rd (R.TCH_PNL_CTRL_LP_HZ p) + s.time.ns * s.rd (R.TCH_PNL_CTRL_LP_HZ p) / 1000000000

/-- A scan of panel `p` falls due now (R479, R488). -/
def scanFallsDue (s : State) (p : Nat) : Bool :=
  let st := s.panel p
  s.powered 6 && st.count != 0 && s.rdb (R.TCH_PNL_CTRL_ENABLE p) && s.rd (R.TCH_PNL_STAT_STATE p) != 1
    && (if s.rdb (R.TCH_PNL_CTRL_MODE p) then st.lpSlot != lpSlot s p
        else s.rdb R.TICK_STATUS_RUN && decide (st.nextScan < scansPerTick s p)
          && decide (s.tick.lastEdgeNs + st.nextScan * s.rd R.TICK_PERIOD_NS_PERIOD / scansPerTick s p ≤ s.nowNs))

/-- A field of TCH_PNL_THR as it stood when the scan of panel `p` began (R490). -/
def scanThr (s : State) (p : Nat) (f : Nat → Fld) : Nat := bits (s.panel p).thr (f p).hi (f p).lo

/-- TCH_SCAN_DUE: a scan falls due; an unfinished one is abandoned (R479). The thresholds and the mode are those of its start
(R490). -/
def tchScanDue (p : Nat) (s : State) : State :=
  if scanFallsDue s p then
    let s := if bitOf (s.rd R.TCH_STATUS_SCANNING) p then
        (s.wr (R.TCH_PNL_STAT_LATE p) (satTo 16 (s.rd (R.TCH_PNL_STAT_LATE p) + 1))).raiseOnce 0x1703 p
      else s.wr R.TCH_STATUS_SCANNING (s.rd R.TCH_STATUS_SCANNING + 2 ^ p)
    let st := s.panel p
    startPulses p (s.setPanel p { st with
      scanJ := st.nextScan, nextScan := st.nextScan + 1, lpSlot := lpSlot s p
      thr := (s.word (R.TCH_PNL_THR_TOUCH_THR p).addr).toNat, scanLow := s.rdb (R.TCH_PNL_CTRL_MODE p) })
  else s

/-- The baseline of a node minus its raw count, in 1/256 count (R480). -/
def delta (s : State) (d c : Nat) : Int :=
  (s.baseline (nodeIx d c) : Int) - 256 * (s.rawNode (nodeIx d c) : Int)

/-- The 3 × 3 neighbourhood of a node within an overlay, the node itself included. -/
def neighbourhood (s : State) (p o d c : Nat) : List (Nat × Nat) :=
  (panelLines s p).flatMap fun d' => (overlayChannels s o).filterMap fun c' =>
    if d' ≤ d + 1 ∧ d ≤ d' + 1 ∧ c' ≤ c + 1 ∧ c ≤ c' + 1 then some (d', c') else none

/-- The node is the largest of its neighbourhood; of equal deltas the lower line, then the lower channel, wins (R483). -/
def isPeak (s : State) (p o d c : Nat) : Bool :=
  (neighbourhood s p o d c).all fun (d', c') =>
    if (d', c') = (d, c) then true
    else if d' < d ∨ (d' = d ∧ c' < c) then decide (delta s d' c' < delta s d c)
    else decide (delta s d' c' ≤ delta s d c)

/-- The peaks of an overlay: nodes largest in their neighbourhood with a delta of at least `thr` counts. -/
def peaks (s : State) (p o thr : Nat) : List (Nat × Nat) :=
  (panelLines s p).flatMap fun d => (overlayChannels s o).filterMap fun c =>
    if (256 * thr : Int) ≤ delta s d c ∧ isPeak s p o d c then some (d, c) else none

/-- The delta-weighted centroid over a footprint, positive deltas only, in 1/256 electrode along the drive lines and
along the sense channels (R483). -/
def centroid (s : State) (p o d c : Nat) : Nat × Nat :=
  let ns := (neighbourhood s p o d c).map fun (d', c') => (d', c', (delta s d' c').toNat)
  let w := max 1 (ns.foldl (fun a n => a + n.2.2) 0)
  let f := s.rd (R.TCH_OVL_MAP_SENSE_FIRST o)
  (ns.foldl (fun a n => a + n.2.2 * (n.1 - (s.panel p).first)) 0 * 256 / w,
   ns.foldl (fun a n => a + n.2.2 * (n.2.1 - f)) 0 * 256 / w)

/-- The flue pixel of a centroid, exactly from the weighted sums, under SWAP and the mirrors (R476, R483). -/
def touchXY (s : State) (p o d c : Nat) : Nat × Nat :=
  let ns := (neighbourhood s p o d c).map fun (d', c') => (d', c', (delta s d' c').toNat)
  let w := max 1 (ns.foldl (fun a n => a + n.2.2) 0)
  let f := s.rd (R.TCH_OVL_MAP_SENSE_FIRST o)
  let sd := ns.foldl (fun a n => a + n.2.2 * (n.1 - (s.panel p).first)) 0
  let sc := ns.foldl (fun a n => a + n.2.2 * (n.2.1 - f)) 0
  let ov := s.overlay o
  let nd := (s.panel p).count
  let nc := s.rd (R.TCH_OVL_MAP_SENSE_COUNT o)
  let (u, nx, v, ny) := if ov.swap then (sc, nc, sd, nd) else (sd, nd, sc, nc)
  let u := if ov.mirrorX then (nx - 1) * w - u else u
  let v := if ov.mirrorY then (ny - 1) * w - v else v
  let fl := s.rd (R.TCH_OVL_MAP_FLUE o)
  let h := s.rd (R.CMP_FLUE_HTIME_H_ACTIVE fl)
  let va := s.rd (R.CMP_FLUE_VTIME_V_ACTIVE fl)
  (min ((2 * u + w) * h / (2 * w * max 1 nx)) (h - 1), min ((2 * v + w) * va / (2 * w * max 1 ny)) (va - 1))

/-- Distance between two numbers. -/
def dist (a b : Nat) : Nat := max a b - min a b

/-- The unclaimed peak nearest a contact's previous position, within 3 electrodes on both axes (R483). -/
def nearestPeak (s : State) (p o : Nat) (k : Contact) (ps : List (Nat × Nat)) : Option (Nat × Nat) :=
  let f := s.rd (R.TCH_OVL_MAP_SENSE_FIRST o)
  let near := ps.filterMap fun (d, c) =>
    let du := dist (256 * (d - (s.panel p).first)) k.u
    let dv := dist (256 * (c - f)) k.v
    if du ≤ 768 ∧ dv ≤ 768 then some (du * du + dv * dv, (d, c)) else none
  (near.foldl (fun (best : Option (Nat × (Nat × Nat))) n =>
    match best with
    | none => some n
    | some b => if n.1 < b.1 then some n else some b) none).map Prod.snd

/-- A contact at a peak. -/
def contactAt (s : State) (p o id d c downNs : Nat) (ev : Nat) (long : Bool) : Contact :=
  let (u, v) := centroid s p o d c
  let (x, y) := touchXY s p o d c
  { id, line := d, chan := c, u, v, x, y, peak := ((delta s d c) / 256).toNat, downNs, event := ev, long }

/-- Existing contacts of an overlay in ascending id, each continued through the nearest unclaimed peak or released; the
peaks left over (R483). -/
def matchContacts (s : State) (p o : Nat) :
    List Contact → List (Nat × Nat) → List Contact → List Contact → List Contact × List Contact × List (Nat × Nat)
  | [], ps, cont, rel => (cont, rel, ps)
  | k :: ks, ps, cont, rel =>
    match nearestPeak s p o k ps with
    | some (d, c) =>
      matchContacts s p o ks (ps.filter (· ≠ (d, c)))
        (cont ++ [contactAt s p o k.id d c k.downNs 1 (k.long || decide (k.downNs + 60000000000 ≤ s.monoNs))]) rel
    | none => matchContacts s p o ks ps cont (rel ++ [{ k with event := 2 }])

/-- New contacts with the lowest free ids 0–9, in descending order of delta; `true` when a peak found no id (R483). -/
def newContacts (s : State) (p o : Nat) : List (Nat × Nat) → List Contact → List Contact × Bool
  | [], ks => (ks, false)
  | (d, c) :: ps, ks =>
    match (List.range 10).find? fun i => ks.all (·.id ≠ i) with
    | some i => newContacts s p o ps (ks ++ [contactAt s p o i d c s.monoNs 0 false])
    | none => (ks, true)

/-- Insert a peak into a list in descending order of delta, behind equal ones. -/
def insertByDelta (s : State) (n : Nat × Nat) : List (Nat × Nat) → List (Nat × Nat)
  | [] => [n]
  | m :: ms => if delta s m.1 m.2 < delta s n.1 n.2 then n :: m :: ms else m :: insertByDelta s n ms

/-- The contacts of an overlay after a scan: those down, those released, and whether peaks overflowed (R483). -/
def overlayContacts (s : State) (p o : Nat) : List Contact × List Contact × Bool :=
  let cand := peaks s p o (scanThr s p R.TCH_PNL_THR_RELEASE_THR)
  let (cont, rel, left) := matchContacts s p o (s.overlay o).contacts cand [] []
  let fresh := left.filter fun (d, c) => decide ((256 * scanThr s p R.TCH_PNL_THR_TOUCH_THR : Int) ≤ delta s d c)
  let (ks, ovf) := newContacts s p o (fresh.foldl (fun l n => insertByDelta s n l) []) cont
  (ks, rel, ovf)

/-- A node lies in the 3 × 3 footprint of a contact that is down. -/
def inFootprint (s : State) (o d c : Nat) : Bool :=
  (s.overlay o).contacts.any fun k => decide (dist k.line d ≤ 1) && decide (dist k.chan c ≤ 1)

/-- A node is anti-touch: its delta lies below −ANTI_THR (R480). -/
def isAnti (s : State) (p d c : Nat) : Bool := decide (delta s d c < -(256 * scanThr s p R.TCH_PNL_THR_ANTI_THR : Int))

/-- A node is touched (R482). -/
def isTouched (s : State) (p o d c : Nat) : Bool :=
  decide ((256 * scanThr s p R.TCH_PNL_THR_RELEASE_THR : Int) ≤ delta s d c) || inFootprint s o d c

/-- The 200 ms rule of R481 for one node: the run of anti-touch scans goes on, ends, or re-baselines the node. -/
def rebaseNode (p o : Nat) (st : State × Nat) (n : Nat × Nat) : State × Nat :=
  let (s, cnt) := st
  let i := nodeIx n.1 n.2
  if isAnti s p n.1 n.2 && !isTouched s p o n.1 n.2 then
    match s.antiSince i with
    | 0 => (s.setAntiSince i (s.monoNs + 1), cnt)
    | t => if t - 1 + 200000000 ≤ s.monoNs then
        ((s.setBaseline i (256 * s.rawNode i)).setAntiSince i 0, cnt + 1)
      else (s, cnt)
  else (s.setAntiSince i 0, cnt)

/-- The movement of a node that is neither touched nor anti-touch: round((raw − baseline) / 2^DRIFT_SHIFT), halves away
from zero (R482). -/
def driftMove (s : State) (p d c : Nat) : Int :=
  roundAway (-(delta s d c)) (2 ^ scanThr s p R.TCH_PNL_THR_DRIFT_SHIFT)

/-- The movement of any node after a scan (R482). -/
def nodeMove (s : State) (p o d c : Nat) : Int :=
  if isTouched s p o d c then
    let ns := [(d, c + 1), (d + 1, c)] ++ (if 0 < c then [(d, c - 1)] else []) ++ (if 0 < d then [(d - 1, c)] else [])
    let ms := ns.filterMap fun (d', c') =>
      if decide (d' ∈ panelLines s p) && decide (c' ∈ overlayChannels s o)
          && !isTouched s p o d' c' && !isAnti s p d' c' then some (driftMove s p d' c') else none
    if ms = [] then 0 else roundAway (ms.foldl (· + ·) 0) ms.length
  else if isAnti s p d c then 0
  else driftMove s p d c

/-- Baselines of an overlay after a scan, every movement taken from the baselines before it (R482). -/
def driftOverlay (p o : Nat) (s : State) : State :=
  let moves := (panelLines s p).flatMap fun d => (overlayChannels s o).map fun c =>
    (nodeIx d c, nodeMove s p o d c)
  moves.foldl (fun s (i, m) => s.setBaseline i (max 0 ((s.baseline i : Int) + m)).toNat) s

/-- A double tap (R488): contact `b`, just released, was down 30–250 ms, and so was the tap before it in the same overlay,
within 2 electrodes and 400 ms. -/
def isDoubleTap (s : State) (ov : OverlayState) (b : Contact) : Bool :=
  let tap (downNs upNs : Nat) := decide (downNs + 30000000 ≤ upNs) && decide (upNs ≤ downNs + 250000000)
  tap b.downNs s.monoNs && match ov.lastTap with
    | none => false
    | some (a, up) => tap a.downNs up && decide (up ≤ b.downNs) && decide (b.downNs ≤ up + 400000000)
        && decide (dist a.u b.u ≤ 512) && decide (dist a.v b.v ≤ 512)

/-- A two-finger press (R488): two contacts at least 4 electrodes apart on some axis, both down together for 500 ms. -/
def isPress (s : State) (ks : List Contact) : Bool :=
  ks.any fun a => ks.any fun b => decide (a.id < b.id)
    && (decide (1024 ≤ dist a.u b.u) || decide (1024 ≤ dist a.v b.v))
    && decide (max a.downNs b.downNs + 500000000 ≤ s.monoNs)

/-- The wake of R488: the panel's WAKE bit, MODE cleared in both values, the wake action with the panel's flue mask
(R517, R518), and TCH_WAKE. -/
def tchWake (p : Nat) (s : State) : State :=
  let w := s.rd R.TCH_STATUS_WAKE
  let s := if bitOf w p then s else s.wr R.TCH_STATUS_WAKE (w + 2 ^ p)
  let s := s.wrBoth (R.TCH_PNL_CTRL_MODE p) 0
  let l := s.rd R.TCH_STATUS_LOW_POWER
  let s := if bitOf l p then s.wr R.TCH_STATUS_LOW_POWER (l - 2 ^ p) else s
  let s := s.wr (R.TCH_PNL_STAT_STATE p) 3
  let m := (s.panel p).wakeMask
  let s := (s.wr R.PWR_WAKE_PENDING 1).wr R.PWR_WAKE_FLUES m
  ({ s with power := { s.power with wakeMask := some (s.power.wakeMask.getD 0 ||| m) } }).raise 0x1707 p

/-- One contact of a report (R485). -/
def contactBytes (k : Contact) : List Byte :=
  [BitVec.ofNat 8 k.id, BitVec.ofNat 8 (k.event + (if k.long then 128 else 0))]
    ++ leBytes 2 k.x ++ leBytes 2 k.y ++ leBytes 2 k.peak

/-- Bytes padded with zeros to length `n`. -/
def padTo (n : Nat) (bs : List Byte) : List Byte := bs ++ List.replicate (n - bs.length) 0

/-- The 128-byte report of an overlay (R485). -/
def reportBytes (s : State) (p o : Nat) (ks : List Contact) (ovf : Bool) : List Byte :=
  let ks := ks.take 10
  padTo 128 ([BitVec.ofNat 8 o, BitVec.ofNat 8 (s.rd (R.TCH_OVL_MAP_FLUE o)), BitVec.ofNat 8 ks.length,
      BitVec.ofNat 8 (s.rd (R.TCH_PNL_STAT_PROVISIONAL p) + 2 * b2n ovf)]
    ++ leBytes 4 (s.rd R.TICK_COUNT_COUNT) ++ leBytes 4 s.wus ++ [BitVec.ofNat 8 (s.panel p).scanJ, 0, 0, 0]
    ++ ks.flatMap contactBytes)

/-- A report into the ring, or dropped when it would pass TCH_RING_RD (R485). -/
def writeReport (p : Nat) (bs : List Byte) (s : State) : State :=
  let size := s.rd R.TCH_RING_SIZE_VALUE * 4096
  let wr := s.rd R.TCH_RING_WR_VALUE
  let nx := if size ≤ wr + 128 then 0 else wr + 128
  if nx = s.rd R.TCH_RING_RD_VALUE ∨ size = 0 then s.raiseOnce 0x1704 p
  else (s.memWrite (s.rd R.TCH_RING_BASE_VALUE * 64 + wr) bs).wr R.TCH_RING_WR_VALUE nx

/-- What a scan does to one overlay: contacts, re-baselines, drift, gestures, report (R481 to R488). -/
def scanOverlay (p : Nat) (s : State) (o : Nat) : State :=
  let low := (s.panel p).scanLow
  let (ks, rel, ovf) := overlayContacts s p o
  let ov := s.overlay o
  let longs := ks.filter fun k => k.long && !(ov.contacts.any fun c => c.id == k.id && c.long)
  let s := s.setOverlay o { ov with contacts := ks }
  let s := s.wr (R.TCH_OVL_STAT_CONTACTS o) ks.length
  let nodes := (panelLines s p).flatMap fun d => (overlayChannels s o).map fun c => (d, c)
  let (s, cnt) := nodes.foldl (rebaseNode p o) (s, 0)
  let s := if 0 < cnt then
      let s := s.wr (R.TCH_OVL_STAT_REBASES o) (satTo 16 (s.rd (R.TCH_OVL_STAT_REBASES o) + cnt))
      (s.setPanel p { s.panel p with provNs := s.monoNs }).raise 0x1701 o
    else s
  let s := driftOverlay p o s
  let s := longs.foldl (fun s k => s.raise 0x1702 (o * 16 + k.id)) s
  let dbl := s.rdb (R.TCH_PNL_CTRL_WAKE_TAP p) && rel.any (isDoubleTap s ov)
  let press := s.rdb (R.TCH_PNL_CTRL_WAKE_PRESS p) && isPress s ks
  let s := match rel.getLast? with
    | some k => s.setOverlay o { s.overlay o with lastTap := some (k, s.monoNs) }
    | none => s
  if low then (if dbl || press then tchWake p s else s)
  else if s.rdb (R.TCH_PNL_CTRL_MODE p) ∨ s.rd (R.TCH_OVL_STAT_STATE o) = 2 ∨ (ks.isEmpty ∧ rel.isEmpty) then s
  else writeReport p (reportBytes s p o (ks ++ rel) ovf) s

/-- The pulses of one scan of panel `p`: DRIVE_COUNT × PULSES (R479). -/
def scanNeeds (s : State) (p : Nat) : Nat := (s.panel p).count * s.rd (R.TCH_PNL_DRIVE_PULSES p)

/-- TCH_SCAN_DONE: a scan completes with the charges `y`, its pulses all made in quiet windows (R33, R477 to R488). The first
four scans after the survey give the baselines. -/
def tchScanDone (p : Nat) (y : List (List (List Int))) (s : State) : State :=
  if bitOf (s.rd R.TCH_STATUS_SCANNING) p ∧ scanNeeds s p ≤ scanPulses s p then
    let s := s.wr R.TCH_STATUS_SCANNING (s.rd R.TCH_STATUS_SCANNING - 2 ^ p)
    let raws := scanRaw s p y
    let s := raws.foldl (fun s (d, c, v) => s.setRawNode (nodeIx d c) v) s
    let st := s.panel p
    if st.baseScans < 4 then
      let s := raws.foldl (fun s (d, c, v) =>
        let i := nodeIx d c
        s.setBaseline i ((if st.baseScans = 0 then 0 else s.baseline i) + 64 * v)) s
      let s := s.setPanel p { st with baseScans := st.baseScans + 1, provNs := s.monoNs }
      if st.baseScans = 3 then
        (s.wr (R.TCH_PNL_STAT_STATE p) (if s.rdb (R.TCH_PNL_CTRL_MODE p) then 4 else 3)).wr (R.TCH_PNL_STAT_PROVISIONAL p) 1
      else s
    else
      let s := (panelOverlays s p).foldl (scanOverlay p) s
      if s.rdb (R.TCH_PNL_STAT_PROVISIONAL p)
          ∧ (s.panel p).provNs + max 1 (s.rd (R.TCH_PNL_CTRL_PROV_S p)) * 1000000000 ≤ s.monoNs
      then s.wr (R.TCH_PNL_STAT_PROVISIONAL p) 0 else s
  else s

/-- TCH_TEST: a write of 1 to TEST while ENABLE is 0 starts the self-test (R486). -/
def tchTest (p : Nat) (s : State) : State :=
  if s.powered 6 ∧ (s.panel p).count ≠ 0 ∧ s.rd (R.TCH_PNL_CTRL_ENABLE p) = 0 ∧ s.rd (R.TCH_PNL_STAT_STATE p) = 0 then
    startPulses p (((s.wr (R.TCH_PNL_TEST_TEST_DONE p) 0).wr (R.TCH_PNL_TEST_ABORTED p) 0).wr (R.TCH_PNL_STAT_STATE p) 5)
  else s

/-- Bit `i` of the line registers TCH_OPEN or TCH_SHORT: drive lines in registers 0–3, sense channels in 4–9 (R492). -/
def setLineBit (f : Nat → Fld) (i : Nat) (v : Bool) (s : State) : State :=
  s.wr { f (i / 32) with hi := i % 32, lo := i % 32 } (b2n v)

/-- TCH_TEST_DONE: the findings of the two scans of a self-test (R486). `y` are the charges of the mutual scan; `single r`
lists, for each other line of the panel, the readings of its nodes while line `r` alone is driven. A test takes twice the
pulses of a scan. -/
def tchTestDone (p : Nat) (y : List (List (List Int))) (single : List (List (List Nat))) (s : State) : State :=
  if s.rd (R.TCH_PNL_STAT_STATE p) = 5 ∧ 2 * scanNeeds s p ≤ scanPulses s p then
    let lines := panelLines s p
    let chans := panelChannels s p
    let om := 16 * s.rd (R.TCH_PNL_TEST_OPEN_MIN p)
    let sm := 16 * s.rd (R.TCH_PNL_TEST_SHORT_MIN p)
    let raw (i ch : Nat) := rawCount y (i / 8) (i % 8) ch
    let n := lines.length
    let lineOpen := fun i => chans.all fun ch => decide (raw i ch < om)
    let chanOpen := fun ch => (List.range n).all fun i => decide (raw i ch < om)
    let shorted := fun a b => decide (a ∈ chans) && decide (b ∈ chans) &&
      (List.range n).all (fun i => decide (100 * dist (raw i a) (raw i b) < max (raw i a) (raw i b)))
      && decide (om * (2 * n) < (List.range n).foldl (fun acc i => acc + raw i a + raw i b) 0)
    let chanShort := fun ch => shorted ch (ch + 1) || (decide (0 < ch) && shorted (ch - 1) ch)
    let reads := fun i j => ((single.getD i []).getD j []).any fun v => decide (sm < v)
    let lineShort := fun i => (List.range n).any fun j => j != i && (reads i j || reads j i)
    let s := lines.zipIdx.foldl (fun s (d, i) =>
      setLineBit R.TCH_SHORT_LINES d (lineShort i) (setLineBit R.TCH_OPEN_LINES d (lineOpen i) s)) s
    let s := chans.foldl (fun s ch =>
      setLineBit R.TCH_SHORT_LINES (128 + ch) (chanShort ch) (setLineBit R.TCH_OPEN_LINES (128 + ch) (chanOpen ch) s)) s
    let bad := (List.range n).any (fun i => lineOpen i || lineShort i) || chans.any fun ch => chanOpen ch || chanShort ch
    let s := (s.wr (R.TCH_PNL_TEST_TEST_DONE p) 1).wr (R.TCH_PNL_STAT_STATE p) 0
    if bad then s.raise 0x1705 p else s
  else s

/-- TCH_SURVEY: a write of 1 to SURVEY while ENABLE is 0 repeats the survey alone (R487). -/
def tchSurvey (p : Nat) (s : State) : State :=
  if s.powered 6 ∧ (s.panel p).count ≠ 0 ∧ s.rd (R.TCH_PNL_CTRL_ENABLE p) = 0 ∧ s.rd (R.TCH_PNL_STAT_STATE p) = 0 then
    s.wr (R.TCH_PNL_STAT_STATE p) 1
  else s

/-- A mean, given as a sum over `n` readings, lies within `tol` per cent of `ref`. -/
def within (sum n ref tol : Nat) : Bool := decide (100 * dist sum (ref * n) ≤ tol * ref * n)

/-- An overlay matches profile `q`, with the panel's other overlays at their expected profiles (R487). -/
def matchesProfile (s : State) (p o q : Nat) (drive : List Nat) (sense : List Nat) : Bool :=
  let pr := s.profile q
  let others := ((panelOverlays s p).filter (· ≠ o)).foldl
    (fun a o' => a + (s.profile (s.rd (R.TCH_OVL_MAP_PROFILE o'))).meanDrive) 0
  pr.used && within (sense.foldl (· + ·) 0) sense.length pr.meanSense pr.tol
    && within (drive.foldl (· + ·) 0) drive.length (others + pr.meanDrive) pr.tol

/-- The mean of readings, rounded down. -/
def meanOf (l : List Nat) : Nat := l.foldl (· + ·) 0 / max 1 l.length

/-- What a survey finds for one overlay (R487). `caps` gives the capacitance of each sense channel in 0.1 pF. -/
def surveyOverlay (p : Nat) (drive caps : List Nat) (s : State) (o : Nat) : State :=
  let sense := (overlayChannels s o).map fun c => caps.getD c 0
  let want := s.rd (R.TCH_OVL_MAP_PROFILE o)
  let ok := matchesProfile s p o want drive sense
  let ident := if ok then want
    else ((List.range 8).find? fun q => matchesProfile s p o q drive sense).getD 0xF
  let s := ((s.wr (R.TCH_OVL_SURVEY_IDENT o) ident).wr (R.TCH_OVL_SURVEY_SENSE_PF10 o) (satTo 8 (meanOf sense))).wr
    (R.TCH_OVL_SURVEY_DRIVE_PF10 o) (satTo 8 (meanOf drive))
  if ok then s.wr (R.TCH_OVL_STAT_STATE o) 1 else (s.wr (R.TCH_OVL_STAT_STATE o) 2).raise 0x1706 o

/-- TCH_SURVEY_DONE: the survey of a panel completes with the capacitances it measured (R487). -/
def tchSurveyDone (p : Nat) (drive caps : List Nat) (s : State) : State :=
  if s.rd (R.TCH_PNL_STAT_STATE p) = 1 then
    let s := (panelOverlays s p).foldl (surveyOverlay p drive caps) s
    if s.rdb (R.TCH_PNL_CTRL_ENABLE p) then
      (s.wr (R.TCH_PNL_STAT_STATE p) 2).setPanel p { s.panel p with baseScans := 0 }
    else s.wr (R.TCH_PNL_STAT_STATE p) 0
  else s

/-- What a commit does to a panel: a newly enabled one surveys first, abandoning a test; a disabled one is off; MODE
chooses between low power and tick-anchored scans (R486 to R488). -/
def tchCommitPanel (before : Nat → Bool) (s : State) (p : Nat) : State :=
  let on := s.rdb (R.TCH_PNL_CTRL_ENABLE p)
  let bitTo (f : Fld) (v : Bool) (s : State) : State :=
    if bitOf (s.rd f) p = v then s else s.wr f (if v then s.rd f + 2 ^ p else s.rd f - 2 ^ p)
  if (s.panel p).count = 0 then s
  else if on ∧ before p = false then
    let s := if s.rd (R.TCH_PNL_STAT_STATE p) = 5 then
        (s.wr (R.TCH_PNL_TEST_TEST_DONE p) 1).wr (R.TCH_PNL_TEST_ABORTED p) 1 else s
    let s := s.setPanel p { s.panel p with baseScans := 0, nextScan := 0, lpSlot := lpSlot s p }
    bitTo R.TCH_STATUS_LOW_POWER (s.rdb (R.TCH_PNL_CTRL_MODE p)) (s.wr (R.TCH_PNL_STAT_STATE p) 1)
  else if on = false ∧ before p then
    let s := bitTo R.TCH_STATUS_SCANNING false (bitTo R.TCH_STATUS_LOW_POWER false s)
    (panelOverlays s p).foldl (fun s o => (s.setOverlay o { s.overlay o with contacts := [], lastTap := none }).wr
      (R.TCH_OVL_STAT_CONTACTS o) 0) (s.wr (R.TCH_PNL_STAT_STATE p) 0)
  else if on then
    let low := s.rdb (R.TCH_PNL_CTRL_MODE p)
    let s := bitTo R.TCH_STATUS_LOW_POWER low s
    if s.rd (R.TCH_PNL_STAT_STATE p) = 3 ∧ low then s.wr (R.TCH_PNL_STAT_STATE p) 4
    else if s.rd (R.TCH_PNL_STAT_STATE p) = 4 ∧ low = false then s.wr (R.TCH_PNL_STAT_STATE p) 3 else s
  else s

/-- At a tick edge the scans of the tick begin again from index 0 (R479). -/
def tchTickEdge (s : State) : State :=
  (List.range 4).foldl (fun s p => if (s.panel p).count = 0 then s else s.setPanel p { s.panel p with nextScan := 0 }) s

end Sys2Proof.Machine
end

