-- ==== Sys2Proof/Machine/Encode.lean ====
section
/-!
DEFINITION. Encode reels (R302 to R323): their start, rate control, the decision of their rows, the records of the output ring, sending over RTP, and the
requests for IDR pictures.
-/
namespace Sys2Proof.Machine

/-- A commit sets or clears ENABLE of an encode reel (R302, R321, R226). -/
def encCommit (before : Nat → Bool) (s : State) (e : Nat) : State :=
  let on := s.rdb (R.REEL_CFG_ENABLE e)
  if s.rd (R.REEL_CFG_MODE e) ≠ 1 then s
  else if on && !before e then
    let s := ((s.setEnc e {}).wr (R.ENC_FRAMES_ENCODED e) 0).wr (R.ENC_FRAMES_SKIPPED e) 0
    if codecUnpowered s e then (s.wr (R.ENC_STATUS_STATE e) 0).raise 0x0D0C e
    else if encBadCfg s e then (s.wr (R.ENC_STATUS_STATE e) 4).raise 0x0E06 e
    else
      let s := (s.setEnc e { up := true, srNs := s.monoNs }).wr (R.ENC_CARRY_BITS e) 0
      s.wr (R.ENC_STATUS_STATE e) (if s.rd (levelFld e) = 3 then 3 else 1)
  else if !on && before e then
    let s := s.setEnc e { s.enc e with up := false, ready := none, due := [] }
    if reelRuns s e then s else (s.setEnc e {}).wr (R.ENC_STATUS_STATE e) 0
  else s

/-- A frame of flue `f` begins: the encode reels that read the flue count it, and every DIV-th is due (R304). -/
def encFrameStart (f serial : Nat) (s : State) : State :=
  (List.range 128).foldl (fun s e =>
    let st := s.enc e
    if st.up && s.rd (R.ENC_SRC_FLUE e) == f then
      s.setEnc e { st with
        count := st.count + 1
        due := if st.count % max 1 (s.rd (R.ENC_SRC_DIV e)) = 0 then st.due ++ [(serial, st.count)] else st.due }
    else s) s

/-! ### Rate control (R313 to R316) -/

/-- What the rate control knows after the rows so far: bits coded, the next row's QP, exhausted, capped, the cumulative SAD
weight, the sum and number of the QPs of blocks, and for each row the QPs of its blocks, whether it was exhausted and whether it is
fill. -/
structure RateRun where
  bits : Nat
  qp : Int
  exhausted : Bool := false
  capped : Bool := false
  weight : Nat := 0
  qpSum : Int := 0
  blocks : Nat := 0
  rows : List (List Int × Bool × Bool) := []
  deriving DecidableEq, Repr

/-- The weights of a frame's rows: the SAD sums of the previous picture of its type, or equal ones (R314). -/
def rowWeights (prev : List Nat) (n : Nat) : List Nat :=
  if prev.length = n ∧ prev.foldl (· + ·) 0 ≠ 0 then prev else List.replicate n 1

/-- The change of QP after a row: `d` is (b − t_i) and `t` the target, both in the same parts (R314). -/
def qpChange (d t : Int) : Int :=
  if t < 10 * d then 2 else if t < 50 * d then 1 else if 10 * d < -t then -2 else if 50 * d < -t then -1 else 0

/-- One row of a frame: `j` is its number, `row` gives its bits and its fill's bits; the target and the cap are in parts of a bit (R314 to R316). -/
def codeRow (s : State) (e : Nat) (words : List Nat) (fr : EncFrame) (idr : Bool) (ws : List Nat) (t cap : Nat)
    (x : RateRun) (j : Nat) (row : Nat × Nat) : RateRun :=
  let n := (qpGrid s e).1
  let left := ws.length - 1 - j
  let hi : Int := bits (words.getD 3 0) 21 16
  let lo : Int := bits (words.getD 3 0) 13 8
  let rowQp := if x.exhausted then hi else x.qp
  let capped := x.capped || decide (cap < (x.bits + row.1 + left * fillBound n idr) * bitParts)
  let b := x.bits + if capped then row.2 else row.1
  let qps := (List.range n).map fun i => blockQp words rowQp x.exhausted (blockOffset s e words fr i j)
  let w := x.weight + ws.getD j 0
  let total := max 1 (ws.foldl (· + ·) 0)
  let d : Int := (b * bitParts * total : Nat) - (t * w : Nat)
  { bits := b
    qp := max lo (min hi (x.qp + qpChange d (t * total : Nat)))
    exhausted := x.exhausted || (decide (0 < left) && decide (t ≤ b * bitParts))
    capped
    weight := w
    qpSum := x.qpSum + qps.foldl (· + ·) 0
    blocks := x.blocks + n
    rows := x.rows ++ [(qps, x.exhausted, capped)] }

/-- The rows of a frame. -/
def codeRows (s : State) (e : Nat) (words : List Nat) (fr : EncFrame) (idr : Bool) (t cap : Nat) (c : Coded) : RateRun :=
  let st := s.enc e
  let ws := rowWeights (if idr then st.sadI else st.sadP) c.rows.length
  let q0 : Nat := ((if idr then st.lastQpI else st.lastQpP)).getD (bits (words.getD 3 0) 29 24)
  c.rows.zipIdx.foldl (fun x p => codeRow s e words fr idr ws t cap x p.2 p.1) { bits := c.headerBits, qp := (q0 : Int) }

/-- What R308 to R311 decide for a frame: row by row under the QPs of its blocks, with λ eightfold in an exhausted row, and plainly
in an IDR picture and in fill (R315, R316). -/
def decideFrame (m : MotionFrame) (side n : Nat) (idr : Bool) (x : RateRun) : MotionRun :=
  x.rows.zipIdx.foldl (fun run (row : (List Int × Bool × Bool) × Nat) =>
    (List.range n).foldl (fun run i =>
      let bs := qpBlocks m side i row.2
      let lam := lambda16 (row.1.1.getD i 0).toNat * if row.1.2.1 then 8 else 1
      if idr || row.1.2.2 then plainQpBlock m idr run bs else decideQpBlock m side lam run bs) run) {}

/-- The frame on engine `g` of encode reel `e`, to be decided. -/
def motionFrame (s : State) (e : Nat) (g : EngineState) (c : Coded) : MotionFrame :=
  let (w, h) := codedSize s e
  { w, h, luma := g.samples, ref := encReference s e, refVectors := (s.enc e).refVectors, hints := g.hints, costs := c.blocks }

/-- The mean QP of a frame, rounded to the nearest. -/
def meanQp (x : RateRun) : Nat := (roundHalfUp x.qpSum (max 1 x.blocks : Nat)).toNat

/-! ### The output ring (R318, R319) -/

/-- The header of a record. -/
def recordHeader (fr : EncFrame) (len flags qp : Nat) : List Byte :=
  leBytes 4 len ++ leBytes 4 fr.k
    ++ leBytes 8 (fr.startNs / 1000000000 * 2 ^ 30 + fr.startNs % 1000000000)
    ++ leBytes 4 fr.oldest ++ leBytes 4 fr.edgeWus ++ leBytes 2 fr.ember ++ leBytes 2 fr.held
    ++ leBytes 1 flags ++ leBytes 1 qp ++ leBytes 2 0

/-- A record: header, data, zeros to the next 64-byte boundary. -/
def recordBytes (fr : EncFrame) (data : List Byte) (flags qp : Nat) : List Byte :=
  padTo ((32 + data.length + 63) / 64 * 64) (recordHeader fr data.length flags qp ++ data)

/-- The header that says that the next record lies at offset 0; of the rest of it the spec gives no content. -/
def wrapHeader (s : State) : List Byte :=
  leBytes 4 0xFFFFFFFF ++ (List.range 7).flatMap fun i => leBytes 4 (Config.freeValue (s.freeCount + i)).toNat

/-- Write a record to the ring of reel `e`; none where it would pass ENC_RING_RD (R319). -/
def ringWrite (e : Nat) (bs : List Byte) (s : State) : Option State :=
  let size := s.rd (R.ENC_RING_SIZE_SIZE_4K e) * 4096
  let base := s.rd (R.ENC_RING_BASE_ADDR e) * 64
  let wr := s.rd (R.ENC_RING_WR_OFFSET e)
  let used := (wr + size - s.rd (R.ENC_RING_RD_OFFSET e) % max 1 size) % max 1 size
  let wraps := decide (size < wr + bs.length)
  let need := bs.length + if wraps then size - wr else 0
  if size ≤ used + need then none
  else
    let s := if wraps then { s.memWrite (base + wr) (wrapHeader s) with freeCount := s.freeCount + 7 } else s
    let at_ := if wraps then 0 else wr
    some ((s.memWrite (base + at_) bs).wr (R.ENC_RING_WR_OFFSET e) ((at_ + bs.length) % max 1 size))

/-! ### Sending (R320) -/

/-- The RTP timestamp of a time in ns. -/
def rtpTime (ns : Nat) : Nat := ns * 9 / 100000 % 2 ^ 32

/-- The NAL units of Annex B data: what lies between start codes, without the zero bytes before the next (`cur` is the unit so
far, last byte first; `skip` counts bytes of a start code still to pass). -/
def nalUnits : Nat → List Byte → List Byte → List (List Byte)
  | _, cur, [] => if cur.isEmpty then [] else [cur.reverse]
  | skip + 1, cur, _ :: bs => nalUnits skip cur bs
  | 0, cur, b :: bs =>
    if b = 0 ∧ bs.take 2 = [0, 1] then
      let unit := (cur.dropWhile (· == 0)).reverse
      (if unit.isEmpty then [] else [unit]) ++ nalUnits 2 [] bs
    else nalUnits 0 (b :: cur) bs

/-- A list in pieces of `n`, the last perhaps shorter. -/
def pieces (n : Nat) (bs : List Byte) : List (List Byte) :=
  (List.range ((bs.length + n - 1) / n)).map fun i => (bs.drop (i * n)).take n

/-- The RTP payloads of a NAL unit, at most 1400 bytes each: the unit itself, or its fragments with the headers of RFC 7798
or, for AVC, RFC 6184 (R320). -/
def nalPayloads (avc : Bool) (u : List Byte) : List (List Byte) :=
  if u.length ≤ 1400 then [u]
  else
    let hdr := if avc then 1 else 2
    let n0 := (u.headD 0).toNat
    let ps := pieces (1400 - hdr - 1) (u.drop hdr)
    ps.zipIdx.map fun (q, i) =>
      let mark := (if i = 0 then 128 else 0) + if i + 1 = ps.length then 64 else 0
      (if avc then leBytes 1 (n0 / 32 * 32 + 28) ++ leBytes 1 (mark + n0 % 32)
       else leBytes 1 (n0 / 128 * 128 + 49 * 2 + n0 % 2) ++ (u.drop 1).take 1 ++ leBytes 1 (mark + n0 / 2 % 64)) ++ q

/-- Port, payload type, UDP port, destination words and SSRC of a frame's register words. -/
def encNet (words : List Nat) : List Nat :=
  let n := words.getD 4 0
  [bits n 29 24, bits n 22 16, bits n 15 0, words.getD 5 0, words.getD 6 0, words.getD 7 0, words.getD 8 0, words.getD 9 0]

/-- ENCODE_FRAME_DONE: engine `v` finishes its frame, which the encoder's rows and data describe (R313 to R320). -/
def encodeFrameDone (v : Nat) (c : Coded) (s : State) : State :=
  let g := s.engine v
  match g.busy, g.enc with
  | true, some fr =>
    let e := g.reel
    let t := frameTarget s e g.words g.idr
    let x := codeRows s e g.words fr g.idr t (capParts s e g.words) c
    let qp := meanQp x
    let st := s.enc e
    let carry := x.bits * bitParts - t
    let m := motionFrame s e g c
    let run := decideFrame m (qpSide s e) (qpGrid s e).1 g.idr x
    let sad := (List.range c.rows.length).map (rowSad m (qpSide s e) run)
    let s := storeReconstruction e c.recon (run.vectors m) s
    let st := { s.enc e with
      sinceIdr := some (if g.idr then 0 else st.sinceIdr.getD 0 + 1)
      refSize := some (codedSize s e)
      refDominant := fr.dominant
      lastQpI := if g.idr then some qp else st.lastQpI
      lastQpP := if g.idr then st.lastQpP else some qp
      sadI := if g.idr then sad else st.sadI
      sadP := if g.idr then st.sadP else sad
      carry := carry }
    let flags := b2n g.idr + 2 * b2n x.exhausted + 4 * b2n x.capped + 8 * b2n fr.dark + 16 * b2n st.gap + 32 * b2n st.lostBefore
    let s := s.setEngine v { g with busy := false, enc := none, samples := [], hints := [] }
    let s := (s.wr (R.ENC_CARRY_BITS e) (satTo 32 (carry / bitParts))).wr (R.ENC_STATUS_LAST_QP e) qp
    let s := (s.wr (R.ENC_STATUS_EXHAUSTED e) (b2n x.exhausted)).wr (R.ENC_STATUS_CAPPED e) (b2n x.capped)
    let s := s.wr (R.ENC_FRAMES_ENCODED e) (satTo 16 (s.rd (R.ENC_FRAMES_ENCODED e) + 1))
    let s := (s.when x.exhausted (·.raiseOnce 0x0E02 e)).when x.capped (·.raise 0x0E03 e)
    let s := match ringWrite e (recordBytes fr c.data flags qp) s with
      | some u => u.setEnc e { st with gap := false, lostBefore := false }
      | none => ((s.setEnc e { st with gap := false, lostBefore := true }).wr (R.ENC_STATUS_RING_FULL e) 1).raiseOnce 0x0E04 e
    let s := if bitOf (g.words.getD 4 0) 31 then
        let net := encNet g.words
        sendNet (net.headD 0) (wordsAddr ((net.drop 3).take 4)) 
          (.rtpVideo e (s.rd (R.PORT_ETH_DSCP_VIDEO (net.headD 0 - 40))) (rtpTime fr.startNs) net
          ((nalUnits 0 [] c.data).flatMap (nalPayloads (s.rd (R.REEL_CFG_CODEC e) == 1)))) s
      else s
    let s := if s.rdb (R.REEL_CFG_ENABLE e) then s else (s.setEnc e {}).wr (R.ENC_STATUS_STATE e) 0
    dispatchEngines s
  | _, _ => s

/-- ENC_IDR_REQ: a write of 1 to ENC_GOP.IDR_REQ (R317). -/
def encIdrReq (e : Nat) (s : State) : State := s.setEnc e { s.enc e with idrReq := true }

/-- RTCP_FEEDBACK_RECEIVED: a PLI or FIR for the SSRC of reel `e` (R320). -/
def rtcpFeedbackReceived (e : Nat) (s : State) : State :=
  if (s.enc e).up && s.rdb (R.ENC_NET_RTP_EN e) then (encIdrReq e s).raise 0x0E05 e else s

/-- ENC_SR_TIMER: once per second an encode reel that sends over RTP sends a sender report (R320). -/
def encSrTimer (e : Nat) (s : State) : State :=
  let st := s.enc e
  if st.up && s.rdb (R.ENC_NET_RTP_EN e) && decide (st.srNs + 1000000000 ≤ s.monoNs)
  then sendNet (s.rd (R.ENC_NET_PORT e)) (wordsAddr ((List.range 4).map fun k => s.rd (R.ENC_DST_ADDR e k)))
    (.rtcpSr e s.time.sec s.time.ns (rtpTime s.nowNs)) (s.setEnc e { st with srNs := s.monoNs }) else s

end Sys2Proof.Machine
end

