-- ==== Sys2Proof/Machine/Crypto.lean ====
section
/-!
DEFINITION. SHA-384 (FIPS 180-4) and the verification of ECDSA over P-384 (FIPS 186-5, SP 800-186), by which the image loader
checks a structure image (R65 to R67). Multi-byte numbers are big-endian.
-/
namespace Sys2Proof.Machine

/-! ### SHA-384 -/

/-- The first 64 bits of the fraction of the `k`-th root of `n`. -/
def rootFraction (k n : Nat) : Nat := rootFrom k (n * 2 ^ (64 * k)) 70 0 % 2 ^ 64

/-- The first 80 prime numbers. -/
def smallPrimes : List Nat :=
  (span 2 408).filter fun n => (span 2 19).all fun d => decide (n ≤ d) || decide (0 < n % d)

/-- The round constants: from the cube roots of the first 80 primes (FIPS 180-4). -/
def shaK : List Nat := smallPrimes.map (rootFraction 3)

/-- The initial hash value of SHA-384: from the square roots of the ninth to the sixteenth prime. -/
def shaInit : List Nat := ((smallPrimes.drop 8).take 8).map (rootFraction 2)

/-- A 64-bit word rotated right. -/
def rotr64 (n x : Nat) : Nat := x / 2 ^ n + x % 2 ^ n * 2 ^ (64 - n)

def bigSigma0 (x : Nat) : Nat := rotr64 28 x ^^^ rotr64 34 x ^^^ rotr64 39 x
def bigSigma1 (x : Nat) : Nat := rotr64 14 x ^^^ rotr64 18 x ^^^ rotr64 41 x
def smallSigma0 (x : Nat) : Nat := rotr64 1 x ^^^ rotr64 8 x ^^^ x / 2 ^ 7
def smallSigma1 (x : Nat) : Nat := rotr64 19 x ^^^ rotr64 61 x ^^^ x / 2 ^ 6

/-- The big-endian number that bytes spell. -/
def ofBeBytes (bs : List Byte) : Nat := bs.foldl (fun x b => x * 256 + b.toNat) 0

/-- The message schedule, newest word first: `n` more words after the sixteen of the block. -/
def schedule : Nat → List Nat → List Nat
  | 0, w => w
  | n + 1, w =>
    schedule n ((smallSigma1 (w.getD 1 0) + w.getD 6 0 + smallSigma0 (w.getD 14 0) + w.getD 15 0) % 2 ^ 64 :: w)

/-- One round on the working variables a to h, with round constant and schedule word added in `kw`. -/
def shaRound (v : List Nat) (kw : Nat) : List Nat :=
  match v with
  | [a, b, c, d, e, f, g, h] =>
    let t1 := h + bigSigma1 e + ((e &&& f) ^^^ ((2 ^ 64 - 1 - e) &&& g)) + kw
    let t2 := bigSigma0 a + ((a &&& b) ^^^ (a &&& c) ^^^ (b &&& c))
    [(t1 + t2) % 2 ^ 64, a, b, c, (d + t1) % 2 ^ 64, e, f, g]
  | v => v

/-- One 128-byte block. -/
def shaBlock (h : List Nat) (block : List Byte) : List Nat :=
  let w := (List.range 16).map fun i => ofBeBytes ((block.drop (8 * i)).take 8)
  let ws := (schedule 64 w.reverse).reverse
  let v := (ws.zip shaK).foldl (fun v p => shaRound v (p.1 + p.2)) h
  (h.zip v).map fun p => (p.1 + p.2) % 2 ^ 64

/-- The padding of a message of `n` bytes. -/
def shaPad (n : Nat) : List Byte :=
  0x80 :: List.replicate ((239 - n % 128) % 128) 0 ++ beBytes 16 (8 * n)

/-- SHA-384 of a byte string. -/
def sha384 (m : List Byte) : List Byte :=
  let p := m ++ shaPad m.length
  let h := (List.range (p.length / 128)).foldl (fun h i => shaBlock h ((p.drop (128 * i)).take 128)) shaInit
  (h.take 6).flatMap (beBytes 8)

/-! ### P-384 -/

/-- The prime of the field, the coefficient b, the base point, the order. -/
def p384 : Nat := 2 ^ 384 - 2 ^ 128 - 2 ^ 96 + 2 ^ 32 - 1
def p384B : Nat := 0xb3312fa7e23ee7e4988e056be3f82d19181d9c6efe8141120314088f5013875ac656398d8a2ed19d2a85c8edd3ec2aef
def p384Gx : Nat := 0xaa87ca22be8b05378eb1c71ef320ad746e1d3b628ba79b9859f741e082542a385502f25dbf55296c3a545e3872760ab7
def p384Gy : Nat := 0x3617de4a96262c6f5d9e98bf9292dc29f8f41dbd289a147ce9da3113b5f0b8c00a60b1ce1d7e819d7a431d7c90ea0e5f
def p384N : Nat := 0xffffffffffffffffffffffffffffffffffffffffffffffffc7634d81f4372ddf581a0db248b0a77aecec196accc52973

/-- a − b in the field. -/
def fsub (a b : Nat) : Nat := (a + (p384 - b % p384)) % p384

/-- b ^ e modulo m, over `n` bits of e. -/
def powMod (m : Nat) : Nat → Nat → Nat → Nat
  | 0, _, _ => 1 % m
  | n + 1, b, e => powMod m n (b * b % m) (e / 2) * (if e % 2 = 1 then b else 1) % m

/-- A point in Jacobian coordinates; Z = 0 is the point at infinity. -/
structure JPoint where
  x : Nat
  y : Nat
  z : Nat
  deriving DecidableEq, Repr

/-- Twice a point. -/
def jdouble (p : JPoint) : JPoint :=
  let z2 := p.z * p.z % p384
  let m := 3 * fsub p.x z2 * ((p.x + z2) % p384) % p384
  let y2 := p.y * p.y % p384
  let s := 4 * p.x * y2 % p384
  let x := fsub (m * m) (2 * s)
  ⟨x, fsub (m * fsub s x) (8 * y2 * y2), 2 * p.y * p.z % p384⟩

/-- The sum of two points. -/
def jadd (p q : JPoint) : JPoint :=
  if p.z = 0 then q
  else if q.z = 0 then p
  else
    let pz := p.z * p.z % p384
    let qz := q.z * q.z % p384
    let u1 := p.x * qz % p384
    let u2 := q.x * pz % p384
    let s1 := p.y * qz * q.z % p384
    let s2 := q.y * pz * p.z % p384
    if u1 = u2 then (if s1 = s2 then jdouble p else ⟨1, 1, 0⟩)
    else
      let h := fsub u2 u1
      let r := fsub s2 s1
      let h2 := h * h % p384
      let h3 := h * h2 % p384
      let v := u1 * h2 % p384
      let x := fsub (fsub (r * r) h3) (2 * v)
      ⟨x, fsub (r * fsub v x) (s1 * h3), h * p.z * q.z % p384⟩

/-- k times a point, over `n` bits of k. -/
def jmul : Nat → Nat → JPoint → JPoint
  | 0, _, _ => ⟨1, 1, 0⟩
  | n + 1, k, p =>
    let r := jmul n (k / 2) (jdouble p)
    if k % 2 = 1 then jadd r p else r

/-- The point lies on the curve and its coordinates lie in the field. -/
def onCurve (x y : Nat) : Bool :=
  decide (x < p384) && decide (y < p384) && y * y % p384 == (fsub (x * x * x) (3 * x) + p384B) % p384

/-- ECDSA: the signature (r, s) of the message verifies against the public key (x, y). -/
def ecdsaVerify (x y : Nat) (msg : List Byte) (r s : Nat) : Bool :=
  if r = 0 ∨ p384N ≤ r ∨ s = 0 ∨ p384N ≤ s ∨ onCurve x y = false then false
  else
    let e := ofBeBytes (sha384 msg)
    let w := powMod p384N 384 s (p384N - 2)
    let q := jadd (jmul 384 (e * w % p384N) ⟨p384Gx, p384Gy, 1⟩) (jmul 384 (r * w % p384N) ⟨x, y, 1⟩)
    let zi := powMod p384 384 q.z (p384 - 2)
    decide (q.z ≠ 0) && q.x * zi % p384 * zi % p384 % p384N == r

end Sys2Proof.Machine
end

