-- ==== Sys2Proof/Machine/Audio.lean ====
section
/-!
DEFINITION. Audio ports and routing (R456 to R474, R32): source samples and their capture times, destination frames,
underrun and realignment, slot masks, non-audio payloads, clock groups, sample-rate converters, IEC channel status.
-/
namespace Sys2Proof.Machine

/-- The rates of R473's codes, in Hz. -/
def audioRate (code : Nat) : Nat :=
  [32000, 44100, 48000, 88200, 96000, 176400, 192000].getD code 0

/-- The anchored sample count A(n) = floor(n × fs × D / N) of R32. -/
def anchor (s : State) (fs n : Nat) : Nat :=
  n * fs * (rateFrac (s.rd R.TICK_CFG_RATE)).2 / (rateFrac (s.rd R.TICK_CFG_RATE)).1

/-- The clock group of a destination port: IEC0–3, IEC4–7, TDM (R461). -/
def groupOf (kind ix : Nat) : Nat := if kind = 5 then 2 else ix / 4

/-- The destination of route `r` lies in the tick domain (R459). -/
def tickDomainDst (s : State) (r : Nat) : Bool :=
  let kind := s.rd (R.AUD_RT_EP_DST_KIND r)
  let ix := s.rd (R.AUD_RT_EP_DST_INDEX r)
  kind == 2 || kind == 3
    || (kind == 4 && s.rd (R.AUD_GRP_FOLLOW (groupOf 4 ix)) == 0)
    || (kind == 5 && s.rd (R.AUD_GRP_FOLLOW 2) == 0 && s.rd (R.AUD_TDM_CFG_MASTER (ix / 8)) == 1)

/-- The frame rate of route `r`'s destination in Hz: AES67 and DisplayPort audio run at 48 kHz here (R458, R396). -/
def dstRate (s : State) (r : Nat) : Nat :=
  let kind := s.rd (R.AUD_RT_EP_DST_KIND r)
  let ix := s.rd (R.AUD_RT_EP_DST_INDEX r)
  if kind = 4 then audioRate (s.rd (R.AUD_IEC_CFG_RATE ix))
  else if kind = 5 then audioRate (s.rd (R.AUD_TDM_CFG_RATE (ix / 8)))
  else 48000

/-- The cycle of the audio PLL nearest to time `t` in ns: APLL0 for the 48 kHz family, APLL1 for the 44.1 kHz family, each
with a rising edge at every whole second (R453, R459). -/
def apllRound (fs t : Nat) : Nat :=
  let f := if fs % 44100 = 0 then 90316800 else 98304000
  let c := (2 * t * f + 1000000000) / (2 * 1000000000)
  c * 1000000000 / f

/-- The due time of frame `j` of the present tick at rate `fs` (R459): edge(n) + j × P / (A(n+1) − A(n)). -/
def frameDueNs (s : State) (fs j : Nat) : Nat :=
  let n := s.rd R.TICK_COUNT_COUNT
  apllRound fs (s.tick.lastEdgeNs + j * s.rd R.TICK_PERIOD_NS_PERIOD / (anchor s fs (n + 1) - anchor s fs n))

/-- The frames that a tick-domain destination sends in the present tick (R459). -/
def framesInTick (s : State) (fs : Nat) : Nat :=
  anchor s fs (s.rd R.TICK_COUNT_COUNT + 1) - anchor s fs (s.rd R.TICK_COUNT_COUNT)

/-- A frame of route `r`'s destination falls due now: in the tick domain the next frame of the tick's count whose due
time has come, elsewhere and while the tick does not run whenever the destination's own clock says so (R459, R460). -/
def frameFallsDue (s : State) (r : Nat) : Bool :=
  if tickDomainDst s r && s.rdb R.TICK_STATUS_RUN then
    let o := s.route r
    decide (o.framesThisTick < framesInTick s (dstRate s r))
      && decide (frameDueNs s (dstRate s r) o.framesThisTick ≤ s.nowNs)
  else true

/-- The due time of the frame of route `r` that falls due now. -/
def dueNow (s : State) (r : Nat) : Nat :=
  if tickDomainDst s r && s.rdb R.TICK_STATUS_RUN then frameDueNs s (dstRate s r) (s.route r).framesThisTick
  else s.nowNs

/-- The key of a source endpoint. -/
def srcKey (kind ix : Nat) : Nat := kind * 4096 + ix

/-- The source of route `r`. -/
def routeSrc (s : State) (r : Nat) : Nat :=
  srcKey (s.rd (R.AUD_RT_EP_SRC_KIND r)) (s.rd (R.AUD_RT_EP_SRC_INDEX r))

/-- A source is non-audio (R468): its non-audio bit, a coding type other than LPCM, or a burst preamble in its window. -/
def isNonAudio (n : NonAudio) : Bool := n.bit || n.coded || n.burst

/-- Enabled routes from the source with key `k`. -/
def routesFrom (s : State) (k : Nat) : List Nat :=
  (List.range 32).filter fun r => s.rdb (R.AUD_RT_CTRL_ENABLE r) && routeSrc s r == k

/-- Destination channel values of a source frame under MAP (R457). -/
def mapChannels (s : State) (r : Nat) (f : List Nat) : List Nat :=
  (List.range (s.rd (R.AUD_RT_CTRL_CH_M1 r) + 1)).map fun j =>
    let m := bits (s.rd (R.AUD_RT_MAP_MAP r)) (4 * j + 3) (4 * j)
    if m = 15 then 0 else f.getD m 0

/-- A frame of zeros on route `r`. -/
def zeroFrame (s : State) (r : Nat) : List Nat := List.replicate (s.rd (R.AUD_RT_CTRL_CH_M1 r) + 1) 0

/-- The first frame boundary of TDM port `t` after a mask write (R467): the mask written before this cycle takes effect. -/
def tdmBoundary (t : Nat) (s : State) : State :=
  let p := s.tdmPort t
  if p.boundaryNs = some s.nowNs then s
  else
    match p.pend with
    | some (m, at_) =>
      if at_ < s.nowNs then
        let old := s.rd (R.AUD_TDM_STAT_ACTIVE_MASK t)
        (s.setTdmPort t { pend := none, newly := m &&& (255 ^^^ old), boundaryNs := some s.nowNs }).wr
          (R.AUD_TDM_STAT_ACTIVE_MASK t) m
      else s.setTdmPort t { p with newly := 0, boundaryNs := some s.nowNs }
    | none => s.setTdmPort t { p with newly := 0, boundaryNs := some s.nowNs }

/-- What each slot of an output frame carries (R467): `none` is a slot at high impedance. -/
def slotFrame (s : State) (t first : Nat) (f : List Nat) : List (Option Nat) :=
  f.zipIdx.map fun (v, j) =>
    let mask := s.rd (R.AUD_TDM_STAT_ACTIVE_MASK t)
    let mask := if s.rdb (R.AUD_TDM_CFG_FORMAT t) then mask else mask % 4
    if bitOf mask (first + j) then (if bitOf (s.tdmPort t).newly (first + j) then some 0 else some v)
    else if s.rdb (R.AUD_TDM_SLOTS_TRISTATE t) then none else some 0

/-- The bits of a slot as its BCLKs carry them, MSB first (R544): the sample's highest bits, then zeros (log 119); `none` is high
impedance. -/
def slotBits (word clocks : Nat) (v : Option Nat) : List (Option Bool) :=
  (List.range clocks).map fun b => v.map fun v => decide (b < word) && bitOf (v * 2 ^ word / 2 ^ 24) (word - 1 - b)

/-- The pins of TDM port `t` over a frame (R544): FS by BCLK from its first edge on, where the port drives it, and what the slots put
on the data pin. A slot's data begin one BCLK after its place in FS; in I2S the left slot is the one with FS low. -/
def tdmWave (s : State) (t first : Nat) (slots : List (Option Nat)) : Sent :=
  let tdm8 := s.rdb (R.AUD_TDM_CFG_FORMAT t)
  let word := [16, 24, 32].getD (s.rd (R.AUD_TDM_CFG_WORD t)) 32
  let clocks := if tdm8 then 32 else word
  let fs := if tdm8 then (List.range 256).map fun k => k == 0 else (List.range (2 * word)).map fun k => decide (word ≤ k)
  .tdmWave t (if s.rdb (R.AUD_TDM_CFG_MASTER t) then some fs else none)
    (((slots.flatMap (slotBits word clocks)).zipIdx).map fun (v, b) => (1 + first * clocks + b, v))

/-- Channel-status byte `j` of block `b` with bits [hi:lo] replaced. -/
def csPut (b : List Byte) (j hi lo v : Nat) : List Byte :=
  b.zipIdx.map fun (x, k) => if k = j then BitVec.ofNat 8 (putBits x.toNat hi lo v) else x

/-- The CRCC of a professional channel-status block over its first 23 bytes: polynomial x^8 + x^4 + x^3 + x^2 + 1, all
ones at the start, least significant bit first, as AES3 defines it. PRESUMED (log 12). -/
def csCrcc (b : List Byte) : Byte :=
  BitVec.ofNat 8 ((b.take 23).foldl (fun c x =>
    (List.range 8).foldl (fun c k =>
      let fb := bitOf c 0 != bitOf x.toNat k
      if fb then (c / 2) ^^^ 0xB8 else c / 2) c) 0xFF)

/-- The channel-status block an IEC output repeats (R469): the bytes of its registers, with the sampling-frequency and
word-length fields, and in professional format the CRCC, overwritten while CS_AUTO is 1. The places and codes of those
fields are IEC 60958-3's and AES3's. PRESUMED (log 12). -/
def csBlock (s : State) (i : Nat) : List Byte :=
  let raw := (List.range 6).flatMap fun k =>
    (List.range 4).map fun j => BitVec.ofNat 8 (bits (s.rd (R.AUD_IEC_CS_BYTES i k)) (8 * j + 7) (8 * j))
  if s.rd (R.AUD_IEC_CFG_CS_AUTO i) = 0 then raw
  else
    let rate := s.rd (R.AUD_IEC_CFG_RATE i)
    let word := s.rd (R.AUD_IEC_CFG_WORD i)
    if s.rd (R.AUD_IEC_CFG_PRO i) = 0 then
      let fsCode := [3, 0, 2, 8, 10, 12, 14].getD rate 1
      let wlCode := [2, 3, 11].getD word 0
      csPut (csPut raw 3 3 0 fsCode) 4 3 0 wlCode
    else
      let fs0 := [3, 1, 2, 0, 0, 0, 0].getD rate 0
      let fs4 := [0, 0, 0, 10, 2, 11, 3].getD rate 0
      let wl := [1, 1, 5].getD word 0
      let b := csPut (csPut (csPut raw 0 7 6 fs0) 4 6 3 fs4) 2 5 3 wl
      b.take 23 ++ [csCrcc b]

/-- A destination endpoint is one the device has in use: an IEC port in output mode, a TDM output, an enabled AES67 stream, a flue
(R457). -/
def destinationInUse (s : State) (kind ix : Nat) : Bool :=
  kind == 2 || (kind == 3 && s.rdb (R.AUD_AES_CFG_ENABLE ix)) || (kind == 4 && s.rd (R.AUD_IEC_CFG_MODE ix) == 2)
    || (kind == 5 && s.rdb (R.AUD_TDM_CFG_DIR (ix / 8)))

/-- A destination's frame leaves the device, unless its DisplayPort source is not UP or its flue is rested, when it is
counted and discarded (R472); after a package fault every IEC and TDM output is low (R471). -/
def sendAudio (r : Nat) (due : Nat) (f : List Nat) (muted : Bool) (s : State) : State :=
  let kind := s.rd (R.AUD_RT_EP_DST_KIND r)
  let ix := s.rd (R.AUD_RT_EP_DST_INDEX r)
  if destinationInUse s kind ix = false then s
  else if kind = 2 then
    let p := s.rd (R.CMP_FLUE_CTRL_PORT ix)
    if s.rd (R.PORT_STATUS_STATE p) = 3 ∧ bitOf (s.rd R.DMP_RESTED_FLUES) ix = false
    then s.send (.dpAudio ix f) else s
  else if kind = 3 then
    let n := if s.rd (R.AUD_AES_CFG_PTIME ix) = 0 then 48 else 6
    let ts := (s.rd (R.AUD_AES_RTP_OFS_RTP_OFS ix) + due * 48000 / 1000000000) % 2 ^ 32
    let pk := (s.route r).packet ++ [(ts, f)]
    if pk.length < n then s.setRoute r { s.route r with packet := pk }
    else
      let dst := wordsAddr ((List.range 4).map fun k => s.rd (R.AUD_AES_ADDR_ADDR ix k))
      let p := s.rd (R.AUD_AES_CFG_PORT ix)
      sendNet p dst (.aes67 ix (s.rd (R.PORT_ETH_DSCP_AUDIO (p - 40))) (pk.headD (0, [])).1 (pk.map Prod.snd))
        (s.setRoute r { s.route r with packet := [] })
  else if s.rdb R.WDN_STATUS_PKG_FAULT then s
  else if kind = 4 then s.send (.iecFrame ix f muted (csBlock s ix))
  else if kind = 5 then
    let f := slotFrame s (ix / 8) (ix % 8) f
    (s.send (.tdmFrame (ix / 8) (ix % 8) f)).send (tdmWave s (ix / 8) (ix % 8) f)
  else s

/-- The route repeats its last frame, or zeros before the first: underrun (R465). -/
def underrunFrame (r due : Nat) (s : State) : State :=
  let o := s.route r
  let s := if s.rd (R.AUD_RT_STAT_STATE r) = 3 then s
    else s.wr (R.AUD_RT_STAT_UNDERRUNS r) (satTo 16 (s.rd (R.AUD_RT_STAT_UNDERRUNS r) + 1))
  let s := s.wr (R.AUD_RT_STAT_STATE r) 3
  let s := s.wr (R.AUD_RT_ALIGN_INSERTED r) (satTo 16 (s.rd (R.AUD_RT_ALIGN_INSERTED r) + 1))
  let s := s.raiseOnce 0x1601 r
  sendAudio r due (o.last.getD (zeroFrame s r)) false s

/-- The route sends sample `x` in this frame. -/
def sendSample (r due : Nat) (x : AudSample) (s : State) : State :=
  let f := mapChannels s r x.values
  let s := s.setRoute r { s.route r with last := some f }
  sendAudio r due f false (s.wr (R.AUD_RT_STAT_STATE r) 2)

/-- A destination frame of route `r` that falls due while its source gives audio (R464 to R466); a sample of an AES67 packet that
arrives in the very cycle in which its target frame is due is dropped (R472). -/
def dataFrame (r due : Nat) (s : State) : State :=
  let o := s.route r
  if s.rd (R.AUD_RT_CTRL_ALIGN r) = 0 then
    match o.queue with
    | x :: q => sendSample r due x (s.setRoute r { o with queue := q })
    | [] => underrunFrame r due s
  else if s.rdb R.TICK_STATUS_RUN = false then s.wr (R.AUD_RT_STAT_STATE r) 1
  else
    let delay := s.rd (R.AUD_RT_CTRL_DELAY_US r) * 1000
    let prev := o.lastDueNs.getD (due - 1000000000 / max 1 (dstRate s r))
    let late := o.queue.takeWhile fun x => decide (x.capNs + delay ≤ prev)
      || (x.arrivedNs == some s.monoNs && decide (x.capNs + delay ≤ due))
    let q := o.queue.drop late.length
    let touched := o.touched || !late.isEmpty
    let s := s.wr (R.AUD_RT_ALIGN_DROPPED r) (satTo 16 (s.rd (R.AUD_RT_ALIGN_DROPPED r) + late.length))
    match q with
    | [] => underrunFrame r due (s.setRoute r { o with queue := [], touched := true })
    | x :: rest =>
      if x.capNs + delay ≤ due then
        let s := s.setRoute r { o with queue := rest, touched := false }
        let s := sendSample r due x s
        if touched then s.raise 0x1602 r else s
      else underrunFrame r due (s.setRoute r { o with queue := q, touched := true })

/-- A frame on TDM port `t` shows the clocks that it follows present (R473; log 124). -/
def tdmClocked (t : Nat) (s : State) : State :=
  if s.rdb (R.AUD_TDM_CFG_MASTER t) then s else s.wr (R.AUD_TDM_STAT_LOCK t) 1

/-- AUD_FRAME_DUE: a destination frame of an enabled route falls due (R459, R464 to R468). -/
def audFrameDue (r : Nat) (s : State) : State :=
  if s.powered 6 && s.rdb (R.AUD_RT_CTRL_ENABLE r) && frameFallsDue s r then
    let due := dueNow s r
    let s := if s.rd (R.AUD_RT_EP_DST_KIND r) = 5 then 
        tdmBoundary (s.rd (R.AUD_RT_EP_DST_INDEX r) / 8) (tdmClocked (s.rd (R.AUD_RT_EP_DST_INDEX r) / 8) s) else s
    let s :=
      if isNonAudio (s.nonAudio (routeSrc s r)) then
        sendAudio r due (zeroFrame s r) true ((s.wr (R.AUD_RT_STAT_STATE r) 4).setRoute r { s.route r with queue := [], touched := false })
      else dataFrame r due s
    s.setRoute r { s.route r with lastDueNs := some due, framesThisTick := (s.route r).framesThisTick + 1 }
  else s

/-- The due time of the frame of the present tick nearest to now, at rate `fs` (R459). -/
def nearestDueNs (s : State) (fs : Nat) : Nat :=
  let p := max 1 (s.rd R.TICK_PERIOD_NS_PERIOD)
  frameDueNs s fs ((2 * (s.nowNs - s.tick.lastEdgeNs) * framesInTick s fs + p) / (2 * p))

/-- The capture time of the `i`-th sample of an arriving packet (R463). -/
def captureNs (s : State) (x : AudioInput) (i : Nat) : Nat :=
  if x.kind = 3 ∧ s.rdb (R.AUD_AES_CFG_PTP x.index) then
    -- the time nearest arrival at which floor(t × 48,000) ≡ r − RTP_OFS (mod 2^32)
    let k := (x.rtp + i + 2 ^ 32 - s.rd (R.AUD_AES_RTP_OFS_RTP_OFS x.index)) % 2 ^ 32
    let now := s.nowNs * 48000 / 1000000000
    let base := now / 2 ^ 32 * 2 ^ 32 + k
    let cand := if base + 2 ^ 31 < now then base + 2 ^ 32 else if now + 2 ^ 31 < base ∧ 2 ^ 32 ≤ base then base - 2 ^ 32 else base
    (cand * 1000000000 + 47999) / 48000
  else if x.kind = 5 ∧ s.rdb (R.AUD_TDM_CFG_MASTER (x.index / 8)) ∧ s.rd (R.AUD_GRP_FOLLOW 2) = 0 ∧ s.rdb R.TICK_STATUS_RUN then
    nearestDueNs s (audioRate (s.rd (R.AUD_TDM_CFG_RATE (x.index / 8))))
  else s.nowNs

/-- The upper 16 bits of a sample, samples being 24 bits wide. -/
def upperWord (v : Nat) : Nat := v / 2 ^ 8 % 2 ^ 16

/-- A burst preamble of IEC 61937 in the upper 16 bits of consecutive samples of one channel pair (R468); `prev` is the last word of
each pair before the frame. -/
def hasBurst (prev : List Nat) (f : List Nat) : Bool :=
  (List.range ((f.length + 1) / 2)).any fun p =>
    let ws := prev.getD p 0 :: ((f.drop (2 * p)).take 2).map upperWord
    (ws.zip (ws.drop 1)).any fun w => w.1 == 0xF872 && w.2 == 0x4E1F

/-- The last word of each channel pair of a frame. -/
def pairEnds (f : List Nat) : List Nat :=
  (List.range ((f.length + 1) / 2)).map fun p => ((((f.drop (2 * p)).take 2).getLast?).map upperWord).getD 0

/-- The converted samples of one input frame through an ASRC at ratio `ratio` (8.24): how many fall within the input
period, and their capture times; the sample values are the converter's own (R462). The spec gives no conversion filter,
so the values are free (log 7). Answers the samples and the remaining phase. -/
def asrcEmit (ratio : Nat) (cap period nch : Nat) : Nat → Nat → Nat → List AudSample → List AudSample × Nat × Nat
  | 0, acc, fc, out => (out.reverse, acc, fc)
  | n + 1, acc, fc, out =>
    if ratio ≤ acc then
      let acc := acc - ratio
      let vs := (List.range nch).map fun c => (Config.freeValue (fc + c)).toNat % 2 ^ 24
      asrcEmit ratio cap period nch n acc (fc + nch) ({ values := vs, capNs := cap - acc * period / 2 ^ 24 } :: out)
    else (out.reverse, acc, fc)

/-- A source sample joins the queue of one route, through the route's ASRC where it names one (R460, R462, R463). -/
def enqueueSample (x : AudSample) (s : State) (r : Nat) : State :=
  let o := s.route r
  let a := s.rd (R.AUD_RT_CTRL_ASRC r)
  if a < 16 then
    let period := match o.lastCapNs with | some c => x.capNs - c | none => 0
    let (out, acc, fc) := asrcEmit (max 1 (s.rd (R.AUD_ASRC_RATIO_RATIO a))) x.capNs period x.values.length 8
      (o.phase + 2 ^ 24) s.freeCount []
    { s.setRoute r { o with queue := o.queue ++ out.map (fun y => { y with arrivedNs := x.arrivedNs }), phase := acc, lastCapNs := some x.capNs } with freeCount := fc }
  else s.setRoute r { o with queue := o.queue ++ [x], lastCapNs := some x.capNs }

/-- Zeros in the disabled and newly enabled slots of an input port (R467). -/
def inputSlots (s : State) (t first : Nat) (f : List Nat) : List Nat :=
  f.zipIdx.map fun (v, j) =>
    if bitOf (s.rd (R.AUD_TDM_STAT_ACTIVE_MASK t)) (first + j) && !bitOf (s.tdmPort t).newly (first + j) then v else 0

/-- The registers an IEC input reports in: lock, rate, errors and the last channel-status block (R469). -/
def iecInputRegs (x : AudioInput) (s : State) : State :=
  let i := x.index
  let s := (s.wr (R.AUD_IEC_STAT_LOCK i) 1).wr (R.AUD_IEC_STAT_RATE i) x.rate
  let s := s.wr (R.AUD_IEC_STAT_ERRORS i) (satTo 16 (s.rd (R.AUD_IEC_STAT_ERRORS i) + x.errors))
  match x.csBlock with
  | none => s
  | some b => (List.range 6).foldl (fun s k => s.wrBoth (R.AUD_IEC_CS_BYTES i k)
      (ofLeBytes ((b.drop (4 * k)).take 4))) s

/-- The source is one the device has in use: an IEC port in input mode, a TDM input, a sink, or an enabled AES67 receive
stream (R457). -/
def sourceInUse (s : State) (x : AudioInput) : Bool :=
  (x.kind == 1 && decide (x.index < 16))
    || (x.kind == 3 && decide (x.index < 32) && s.rdb (R.AUD_AES_CFG_ENABLE x.index))
    || (x.kind == 4 && decide (x.index < 8) && s.rd (R.AUD_IEC_CFG_MODE x.index) == 1)
    || (x.kind == 5 && decide (x.index < 32) && s.rd (R.AUD_TDM_CFG_DIR (x.index / 8)) == 0)

/-- The non-audio condition of a source after a packet (R468). -/
def nonAudioAfter (n : NonAudio) (x : AudioInput) : NonAudio :=
  let seen := x.frames.foldl (fun (p : List Nat × Bool) f => (pairEnds f, p.2 || hasBurst p.1 f)) (n.lastWords, false)
  { bit := x.nonAudio, coded := !x.lpcm
    burst := n.burst || seen.2
    since := if seen.2 then 0 else n.since + x.frames.length
    lastWords := seen.1 }

/-- The routes of a source that has become non-audio read MUTED and raise AUD_NON_AUDIO (R468). -/
def muteRoutes (k : Nat) (s : State) : State :=
  (routesFrom s k).foldl (fun s r =>
    if s.rd (R.AUD_RT_STAT_STATE r) = 4 then s
    else (s.wr (R.AUD_RT_STAT_STATE r) 4).raise 0x1603 r) s

/-- AUD_SOURCE_SAMPLE: a source sample, or a packet of them, arrives and is given its capture time (R463, R468). -/
def audSourceSample (x : AudioInput) (s : State) : State :=
  if s.powered 6 && sourceInUse s x then
    let k := srcKey x.kind x.index
    let s := if x.kind = 4 then iecInputRegs x s else s
    let s := if x.kind = 5 then tdmBoundary (x.index / 8) (tdmClocked (x.index / 8) s) else s
    let s := if x.kind = 3 then
        ((s.setAesNs x.index s.monoNs).wr (R.AUD_AES_NET_ACTIVE x.index) 1).wr (R.AUD_AES_NET_LOST x.index)
          (satTo 16 (s.rd (R.AUD_AES_NET_LOST x.index) + x.errors))
      else s
    let n := nonAudioAfter (s.nonAudio k) x
    let s := s.setNonAudio k n
    let s := if x.kind = 4 then s.wr (R.AUD_IEC_STAT_NON_AUDIO x.index) (b2n (isNonAudio n)) else s
    if isNonAudio n then muteRoutes k s
    else
      x.frames.zipIdx.foldl (fun s (f, i) =>
        let f := if x.kind = 5 then inputSlots s (x.index / 8) (x.index % 8) f else f
        (routesFrom s k).foldl (enqueueSample { values := f, capNs := captureNs s x i
                                                arrivedNs := if x.kind = 3 then some s.monoNs else none }) s) s
  else s

/-- AUD_NON_AUDIO_END: 16,384 source frames have passed since the last preamble, and the non-audio bit is clear: the
routes return to data and realign (R468). -/
def audNonAudioEnd (kind ix : Nat) (s : State) : State :=
  let k := srcKey kind ix
  let n := s.nonAudio k
  if n.burst ∧ 16384 ≤ n.since then
    let n := { n with burst := false }
    let s := s.setNonAudio k n
    let s := if kind = 4 then s.wr (R.AUD_IEC_STAT_NON_AUDIO ix) (b2n (isNonAudio n)) else s
    if isNonAudio n then s
    else (routesFrom s k).foldl (fun s r =>
      (s.wr (R.AUD_RT_STAT_STATE r) 1).setRoute r { s.route r with queue := [], touched := false }) s
  else s

/-- The port that is the reference of group `g`, if one is, has lost its clock (R461; log 124). -/
def refPortLost (g : Nat) (s : State) : State :=
  let ref := s.rd (R.AUD_GRP_REF g)
  if 4 ≤ ref then s
  else if g = 2 then s.wr (R.AUD_TDM_STAT_LOCK ref) 0
  else s.wr (R.AUD_IEC_STAT_LOCK (4 * g + ref)) 0

/-- AUD_REF_LOST: a locked reference is lost; the group's outputs hold over at the last measured rate (R461). -/
def audRefLost (g : Nat) (s : State) : State :=
  if s.rdb (R.AUD_GRP_LOCKED g) then (refPortLost g (s.wr (R.AUD_GRP_LOCKED g) 0)).raise 0x1604 g else s

/-- A measured frame rate is within ±1,000 ppm of a supported rate (R461). -/
def rateInRange (hz : Nat) : Bool :=
  (List.range 7).any fun c =>
    let f := audioRate c
    decide (f * 999000 ≤ hz * 1000000) && decide (hz * 1000000 ≤ f * 1001000)

/-- AUD_REF_LOCKED: the reference has been present and in range for 100 ms at the measured rate `hz` (R461). -/
def audRefLocked (g hz : Nat) (s : State) : State :=
  if s.rdb (R.AUD_GRP_FOLLOW g) ∧ s.rdb (R.AUD_GRP_LOCKED g) = false ∧ rateInRange hz then
    ((s.wr (R.AUD_GRP_LOCKED g) 1).wr (R.AUD_GRP_RATE_HZ g) hz).raise 0x1605 g
  else s

/-- A ratio lies within 0.125 to 8 in 8.24 format (R462). -/
def ratioInRange (ratio : Nat) : Bool := decide (2 ^ 21 ≤ ratio) && decide (ratio ≤ 2 ^ 27)

/-- AUD_ASRC_LOCK: the ratio estimate has stayed within 1 ppm over 200 ms (R462). -/
def audAsrcLock (a ratio : Nat) (s : State) : State :=
  if ratioInRange ratio then (s.wr (R.AUD_ASRC_STAT_LOCKED a) 1).wr (R.AUD_ASRC_RATIO_RATIO a) ratio else s

/-- AUD_ASRC_UNLOCK: the instance leaves lock and goes on at the ratio being tracked (R462). -/
def audAsrcUnlock (a ratio : Nat) (s : State) : State :=
  if s.rdb (R.AUD_ASRC_STAT_LOCKED a) then
    let s := (s.wr (R.AUD_ASRC_STAT_LOCKED a) 0).raise 0x1606 a
    if ratioInRange ratio then s.wr (R.AUD_ASRC_RATIO_RATIO a) ratio else s
  else s

/-- SLOT_MASK_WRITE: the register takes the written word at once; the mask takes effect at the port's next frame boundary
(R467). -/
def slotMaskWrite (t w : Nat) (s : State) : State :=
  let s := (s.wr (R.AUD_TDM_SLOTS_TRISTATE t) (bits w 8 8)).wr (R.AUD_TDM_SLOTS_SLOT_MASK t) (bits w 7 0)
  s.setTdmPort t { s.tdmPort t with pend := some (bits w 7 0, s.nowNs) }

/-- The load class of a measured impedance in ohms; `old` in the ranges between the classes (R470). -/
def loadClass (ohms old : Nat) : Nat :=
  if 200 < ohms then 1 else if 50 ≤ ohms ∧ ohms ≤ 110 then 2 else if ohms < 20 then 3 else old

/-- AUD_LOAD: an IEC output classifies its load (R470). -/
def audLoad (i ohms : Nat) (s : State) : State :=
  if s.powered 6 ∧ s.rd (R.AUD_IEC_CFG_MODE i) = 2 then
    let old := s.rd (R.AUD_IEC_STAT_LOAD i)
    let c := loadClass ohms old
    if c = old then s else (s.wr (R.AUD_IEC_STAT_LOAD i) c).raise 0x1607 i
  else s

/-- AES67 receive streams without a packet for 10 ms are no longer active (R473). -/
def countStreams (s : State) : State :=
  s.audio.aesNs.foldl (fun t x => if x.2 + 10000000 ≤ s.monoNs then t.wr (R.AUD_AES_NET_ACTIVE x.1) 0 else t) s

/-- At a tick edge the frame count of every tick-domain route starts again (R459). -/
def audTickEdge (s : State) : State :=
  (List.range 32).foldl (fun s r =>
    if s.rdb (R.AUD_RT_CTRL_ENABLE r) then s.setRoute r { s.route r with framesThisTick := 0 } else s) s

/-- What a commit does to one route: an enabled route starts in WAITING and takes its ASRC instances; a disabled one is
OFF (R457, R462, R473). -/
def audCommitRoute (before : Nat → Bool) (s : State) (r : Nat) : State :=
  let on := s.rdb (R.AUD_RT_CTRL_ENABLE r)
  let n := (s.rd (R.AUD_RT_CTRL_CH_M1 r) + 2) / 2
  let a := s.rd (R.AUD_RT_CTRL_ASRC r)
  let insts := (span a n).filter (· < 16)
  if on ∧ before r = false then
    let s := ((s.wr (R.AUD_RT_STAT_STATE r) 1).wr (R.AUD_RT_STAT_UNDERRUNS r) 0).setRoute r {}
    insts.foldl (fun s i => s.wr (R.AUD_ASRC_STAT_ROUTE i) r) s
  else if on = false ∧ before r then
    let s := (s.wr (R.AUD_RT_STAT_STATE r) 0).setRoute r {}
    insts.foldl (fun s i => (s.wr (R.AUD_ASRC_STAT_ROUTE i) 0xFF).wr (R.AUD_ASRC_STAT_LOCKED i) 0) s
  else s

end Sys2Proof.Machine
end

