-- ==== Sys2Proof/Machine/ImgCheck.lean ====
section
/-!
DEFINITION. The structure image: its header, directory and sections (R62 to R64), and the checks of each section by itself
(SECTION_INVALID) and of the sections against each other and the state in force (CROSS_CHECK), with the offset of the field at
fault (R70, R71, R87 and the layouts R191, R325, R352, R358, R362, R372, R393, R416, R458, R476, R500, R553 to R556).
-/
namespace Sys2Proof.Machine

/-! ### Bytes -/

/-- Byte `o` of a body; beyond its end it reads zero. -/
def b8 (b : List Byte) (o : Nat) : Nat := (b.getD o 0).toNat
/-- Little-endian numbers in a body. -/
def b16 (b : List Byte) (o : Nat) : Nat := b8 b o + 256 * b8 b (o + 1)
def b32 (b : List Byte) (o : Nat) : Nat := b16 b o + 65536 * b16 b (o + 2)
def b64 (b : List Byte) (o : Nat) : Nat := b32 b o + 2 ^ 32 * b32 b (o + 4)

/-- Offset `o` is at fault when the condition holds. -/
def bad (c : Bool) (o : Nat) : List Nat := if c then [o] else []

/-- A run of bytes that the layout states as zero counts as one field. -/
def zeros (b : List Byte) (o n : Nat) : List Nat := bad ((span o n).any fun i => b8 b i != 0) o

/-- The two byte offsets at fault for each pair of distinct items that conflict: the later item's. -/
def pairs (n : Nat) (clash : Nat → Nat → Bool) (at_ : Nat → Nat) : List Nat :=
  (List.range n).flatMap fun j => bad ((List.range j).any fun i => clash i j) (at_ j)

/-- The number of ones in the low `n` bits. -/
def popcount (n x : Nat) : Nat := ((List.range n).filter (bitOf x)).length

/-! ### Header and directory (R62, R63) -/

/-- The used directory entries (index, type, offset, length). -/
def dirUsed (d : List Byte) : List (Nat × Nat × Nat × Nat) :=
  (List.range 16).filterMap fun i =>
    let o := 0xA0 + 16 * i
    if b8 d o = 0xFF then none else some (i, b8 d o, b32 d (o + 4), b32 d (o + 8))

/-- The directory entry of section `t`. -/
def dirEntry (d : List Byte) (t : Nat) : Option (Nat × Nat × Nat × Nat) := (dirUsed d).find? (·.2.1 == t)

/-- The image contains section `t`. -/
def hasSection (d : List Byte) (t : Nat) : Bool := (dirEntry d t).isSome

/-- The body of a section of the image; empty where there is none. -/
def sectionBody (d : List Byte) (t : Nat) : List Byte :=
  match dirEntry d t with | none => [] | some (_, _, o, n) => (d.drop o).take n

/-- IMAGE_SIZE, SVN, and the PARTIAL flag. -/
def imageSize (d : List Byte) : Nat := b32 d 8
def imageSvn (d : List Byte) : Nat := b32 d 12
def imagePartial (d : List Byte) : Bool := bitOf (b8 d 7) 0

/-- The section types of R64, and those that a full image must contain or a partial one may. -/
def sectionTypes : List Nat := span 1 14
def requiredTypes : List Nat := [1, 2, 3, 4, 6, 7, 8, 9]
def reloadableTypes : List Nat := [1, 2, 3, 4, 5, 8, 9, 10, 11, 12, 14]

/-- The refusals 0x02 to 0x05 of the header and directory, in the order of R70: code and offset. -/
def headerFaults (d : List Byte) : List (Nat × Nat) :=
  (bad (b32 d 0 != 0x4D4C414D) 0).map (fun o => (2, o))
    ++ (bad (b16 d 4 != 1) 4 ++ (dirUsed d).flatMap fun e => bad (b8 d (0xA1 + 16 * e.1) != 1) (0xA1 + 16 * e.1)).map (fun o => (3, o))
    ++ (bad (b8 d 6 != 0xB1) 6).map (fun o => (4, o))
    ++ (bad (imageSize d % 64 != 0 || decide (imageSize d < 768) || decide (2 ^ 22 < imageSize d)) 8).map (fun o => (5, o))

/-- The record size of a section whose body is a sequence of records, if it is one (R63). -/
def recordSize (t : Nat) : Option Nat :=
  [(8, 24), (10, 16), (11, 36), (14, 12)].lookup t

/-- The end of the EDID blocks of a port map. -/
def portMapEnd (b : List Byte) : Nat :=
  (List.range 16).foldl (fun m p =>
    if b8 b (32 * p) = 0 then m else max m (b32 b (32 * p + 12) + 128 * b8 b (32 * p + 10))) 1696

/-- The length that a section's layout requires. -/
def layoutLen (t : Nat) (b : List Byte) : Nat :=
  match t with
  | 1 => 1152
  | 2 => portMapEnd b
  | 3 => 1600
  | 4 => 2240
  | 5 => 4 + 8 * min 64 (b32 b 0)
  | 6 => 64 + 32 * min 32 (b8 b 25) + 16
  | 7 => 652
  | 9 => 192
  | 12 => 512
  | 13 => 64
  | _ => 0

/-- The bytes of the image that neither header, directory, a section nor the signature covers. -/
def uncovered (d : List Byte) : List Nat :=
  (span 0x200 (imageSize d - 96 - 0x200)).filter fun i =>
    !(dirUsed d).any fun e => decide (e.2.2.1 ≤ i) && decide (i < e.2.2.1 + e.2.2.2)

/-- The faults of R62 and R63 under BAD_DIRECTORY: offset in the image and section concerned. -/
def directoryFaults (d : List Byte) : List (Nat × Nat) :=
  let used := dirUsed d
  let entry (i : Nat) := 0xA0 + 16 * i
  let fields :=
    bad (bits (b8 d 7) 7 1 != 0) 7 ++ bad (decide (32 < imageSvn d)) 12 ++ bad (b64 d 16 == 0) 16
    ++ bad (!imagePartial d && b64 d 24 != 0) 24
    ++ bad (b8 d 32 != used.length || used.length == 0 || decide (14 < used.length)) 32 ++ zeros d 33 31 ++ zeros d 0x1A0 96
  let unusedRows := (List.range 16).flatMap fun i => if b8 d (entry i) = 0xFF then zeros d (entry i + 1) 15 else []
  let usedRows := used.flatMap fun (i, t, o, n) =>
    bad (!sectionTypes.contains t) (entry i) ++ zeros d (entry i + 2) 2 ++ zeros d (entry i + 12) 4
    ++ bad (o % 64 != 0 || decide (o < 0x200) || decide (imageSize d - 96 < o + n)) (entry i + 4)
    ++ bad (n == 0
        || match recordSize t with
           | some z => n % z != 0
           | none => decide (n < layoutLen t ((d.drop o).take n))) (entry i + 8)
    ++ bad (used.any fun e => decide (e.1 < i) && e.2.1 == t) (entry i)
    ++ bad (used.any fun e => decide (e.1 < i) && decide (e.2.2.1 < o + n) && decide (o < e.2.2.1 + e.2.2.2)) (entry i + 4)
  let tails := used.flatMap fun (_, t, o, n) =>
    if (recordSize t).isSome then []
    else
      let z := layoutLen t ((d.drop o).take n)
      (zeros ((d.drop o).take n) z (n - z)).map fun x => (o + x, t)
  (fields ++ unusedRows ++ usedRows).map (fun o => (o, 0)) ++ tails
    ++ (((uncovered d).filter fun i => b8 d i != 0).take 1).map fun o => (o, 0)

/-! ### Lanes and ports (R370 to R374, R392 to R395, R416) -/

/-- The type code of a port and its quadrant (R392). -/
def portType (p : Nat) : Nat := if p < 16 then 1 else if p < 40 then 2 else if p < 48 then 3 else if p = 48 then 4 else 5
def portQuadrant (p : Nat) : Nat :=
  if p < 16 then p / 4 else if p < 40 then (p - 16) / 6 else if p < 48 then (p - 40) / 2 else if p = 48 then 0 else p - 49

/-- The rate codes of a port type (R394), lowest first. -/
def typeRates (t : Nat) : List Nat :=
  if t = 1 ∨ t = 2 then [2, 4, 7, 8, 10] else if t = 3 then [9, 13] else if t = 4 then [1, 3, 6, 12] else [5, 11, 14]

/-- SECTION_INVALID of the lane map (R370, R372). -/
def laneFaults (b : List Byte) : List Nat :=
  let port (n : Nat) := b8 b (8 * n)
  (List.range 128).flatMap (fun n =>
    let o := 8 * n
    if port n = 0xFF then bad (decide (n < 4)) o
    else
      bad (decide (52 < port n) || portQuadrant (port n) != n / 32 || decide (n < 4) != (port n == 48)) o
      ++ bad (decide (3 < b8 b (o + 1)) || (port n == 48 && b8 b (o + 1) != n)
          || (List.range n).any fun m => port m == port n && b8 b (8 * m + 1) == b8 b (o + 1)) (o + 1)
      ++ bad (bits (b8 b (o + 2)) 7 2 != 0) (o + 2)
      ++ bad (decide (7 < b8 b (o + 3)) && b8 b (o + 3) != 0xFF) (o + 3)
      ++ bad (decide (15 < b8 b (o + 4))) (o + 4) ++ bad (decide (24 < b8 b (o + 5))) (o + 5)
      ++ bad (decide (15 < b8 b (o + 6))) (o + 6) ++ bad (decide (14 < b8 b (o + 7))) (o + 7))
  ++ (List.range 8).flatMap fun k => zeros b (1024 + 16 * k + 10) 6

/-- SECTION_INVALID of the port map (R393, R394, R416). -/
def portFaults (b : List Byte) : List Nat :=
  (List.range 53).flatMap fun p =>
    let o := 32 * p
    let t := b8 b o
    let links := (span 49 4).filter fun q => b8 b (32 * q) != 0
    if t = 0 then bad (p == 48) o
    else
      bad (t != portType p) o
      ++ bad (if p < 40 then !([1, 2, 4].contains (b8 b (o + 1))) else b8 b (o + 1) != if p < 48 then 1 else 4) (o + 1)
      ++ bad (!(typeRates (portType p)).contains (b8 b (o + 2))) (o + 2)
      ++ bad (bits (b8 b (o + 3)) 7 1 != 0 || (b8 b (o + 3) != 0 && portType p != 3)) (o + 3)
      ++ (if portType p = 3 then bad (bitOf (b8 b (o + 4)) 0) (o + 4) else if p = 48 then [] else zeros b (o + 4) 6)
      ++ bad (if p < 16 then b8 b (o + 10) == 0 || decide (4 < b8 b (o + 10)) else b8 b (o + 10) != 0) (o + 10)
      ++ bad (b8 b (o + 11) != 0) (o + 11)
      ++ (if p < 16 then
            let e := b32 b (o + 12)
            bad (e % 128 != 0 || decide (e < 1696) || decide (b.length < e + 128 * b8 b (o + 10))) (o + 12)
            ++ (List.range (min 4 (b8 b (o + 10)))).flatMap fun k =>
                bad (((span (e + 128 * k) 128).foldl (fun x i => x + b8 b i) 0) % 256 != 0) (e + 128 * k + 127)
          else zeros b (o + 12) 4)
      ++ (if p < 49 then zeros b (o + 16) 16
          else bad (decide (7 < b8 b (o + 16)) && b8 b (o + 16) != 0xFF) (o + 16)
            ++ bad (bits (b8 b (o + 17)) 7 1 != 0 || links.any fun q => b8 b (32 * q + 17) != b8 b (o + 17)) (o + 17)
            ++ bad (links.any fun q => b8 b (32 * q + 18) != b8 b (o + 18)) (o + 18)
            ++ zeros b (o + 19) 13)

/-- The fields of the lane map and port map that disagree (R71, R372). -/
def laneCross (lane port : List Byte) : List (List (Nat × Nat)) :=
  (List.range 128).flatMap (fun n =>
    let p := b8 lane (8 * n)
    if 52 < p then []
    else
      (if b8 port (32 * p) = 0 then [[(1, 8 * n), (2, 32 * p)]]
       else
        (if b8 port (32 * p + 1) ≤ b8 lane (8 * n + 1) then [[(1, 8 * n + 1), (2, 32 * p + 1)]] else [])
        ++ (if (typeRates (portType p)).contains (b8 lane (8 * n + 7)) then [] else [[(1, 8 * n + 7), (2, 32 * p)]])
        ++ (if b8 lane (8 * n + 7) < b8 port (32 * p + 2) then [[(1, 8 * n + 7), (2, 32 * p + 2)]] else [])))
  ++ (List.range 53).flatMap fun p =>
    if b8 port (32 * p) = 0 then []
    else if (List.range (b8 port (32 * p + 1))).all fun i =>
        (List.range 128).any fun n => b8 lane (8 * n) == p && b8 lane (8 * n + 1) == i
      then [] else [[(2, 32 * p + 1), (1, 0)]]

/-! ### Wall geometry and unit allocation (R553, R554, R119, R19, R22, R52, R54) -/

/-- Flue `f` of a wall geometry: defined, columns, rows, tiles. -/
def wDefined (b : List Byte) (f : Nat) : Bool := bitOf (b8 b (64 + 64 * f)) 0
def wField (b : List Byte) (f o : Nat) : Nat := b32 b (64 + 64 * f + o)
def wHTotal (b : List Byte) (f : Nat) : Nat := wField b f 4 / 65536
def wHActive (b : List Byte) (f : Nat) : Nat := wField b f 4 % 65536
def wVTotal (b : List Byte) (f : Nat) : Nat := wField b f 8 / 65536
def wVActive (b : List Byte) (f : Nat) : Nat := wField b f 8 % 65536
def wCols (b : List Byte) (f : Nat) : Nat := (wHActive b f + 31) / 32
def wRows (b : List Byte) (f : Nat) : Nat := (wVActive b f + 31) / 32
def wTiles (b : List Byte) (f : Nat) : Nat := wCols b f * wRows b f
def wBase (b : List Byte) (f : Nat) : Nat := wField b f 24
def wX2 (b : List Byte) (f : Nat) : Nat := b8 b (64 + 64 * f) / 2 % 2 + 1
def wDepth (b : List Byte) (f : Nat) : Nat := [8, 10, 12].getD (b8 b (65 + 64 * f)) 10

/-- Pixels per second of a flue as numerator and denominator. -/
def wPixelRate (b : List Byte) (f : Nat) : Nat × Nat :=
  let r := rateFrac (b8 b 0)
  (wHTotal b f * wVTotal b f * r.1 * wX2 b f, r.2)

/-- SECTION_INVALID of the wall geometry. -/
def wallFaults (b : List Byte) : List Nat :=
  let r := rateFrac (b8 b 0)
  bad (decide (11 < b8 b 0)) 0 ++ bad (decide (b8 b 1 < 2) || decide (63 < b8 b 1)) 1 ++ bad (decide (7 < b8 b 2)) 2
  ++ zeros b 3 61
  ++ (List.range 24).flatMap fun f =>
    let o := 64 + 64 * f
    if wDefined b f = false then
      bad (bits (b8 b o) 7 3 != 0) o ++ (span (o + 1) 3).flatMap (fun x => bad (b8 b x != 0) x)
        ++ ([4, 8, 12, 16, 20, 24, 28].flatMap fun k => bad (wField b f k != 0) (o + k))
        ++ bad (b8 b (o + 32) != 0) (o + 32) ++ zeros b (o + 33) 31
    else
      let hb := wHTotal b f - wHActive b f
      let vb := wVTotal b f - wVActive b f
      let other := fun (g : Nat) => decide (g < f) && wDefined b g
      bad (bits (b8 b o) 7 3 != 0 || (wX2 b f == 2 && decide (9 < b8 b 0))) o
      ++ bad (decide (2 < b8 b (o + 1))) (o + 1)
      ++ bad (decide (b8 b (o + 2) < 16) || decide (39 < b8 b (o + 2))
          || (List.range 24).any fun g => other g && b8 b (66 + 64 * g) == b8 b (o + 2)) (o + 2)
      ++ bad (b8 b (o + 3) != 0) (o + 3)
      ++ bad (decide (wHActive b f < 640) || decide (4096 < wHActive b f) || wHActive b f % 8 != 0
          || decide (wHTotal b f < wHActive b f + 80)
          || decide (1350000000 * (wPixelRate b f).2 < (wPixelRate b f).1)) (o + 4)
      ++ bad (decide (wVActive b f < 480) || decide (2304 < wVActive b f) || decide (wVTotal b f < wVActive b f + 8)) (o + 8)
      ++ bad (decide (hb < bits (wField b f 12) 27 16 + bits (wField b f 12) 11 0)) (o + 12)
      ++ bad (decide (vb < bits (wField b f 16) 27 16 + bits (wField b f 16) 11 0)) (o + 16)
      ++ bad (decide (1000000000 * r.2 ≤ wField b f 20 * r.1 * wX2 b f)
          || decide (wField b f 20 * (r.1 * wX2 b f) * wVTotal b f + vb * 1000000000 * r.2
              < 64000 * (r.1 * wX2 b f) * wVTotal b f)) (o + 20)
      ++ bad (decide (262143 < wBase b f) || decide (262144 < wBase b f + wTiles b f)
          || (List.range 24).any fun g => other g
            && decide (wBase b g < wBase b f + wTiles b f) && decide (wBase b f < wBase b g + wTiles b g)) (o + 24)
      ++ bad (decide (b8 b (o + 32) < 5) || decide (133 < b8 b (o + 32))) (o + 32) ++ zeros b (o + 33) 31

/-- Where the held-copy ring, the held-stamp arrays and the vote store of a flue begin and end (R147, R166, R196). -/
def heldExtent (b : List Byte) (f : Nat) : Nat × Nat :=
  let px := if wDepth b f = 12 then 8 else 4
  let n := b8 b (96 + 64 * f)
  let a := wField b f 28 * 64
  (a, pageUp (a + n * pageUp (wHActive b f * wVActive b f * px)) + n * pageUp (8 * wTiles b f) + 3 * 64 * 1024 * px)

/-- The partitions of a memory section. -/
def partitionsOf (b : List Byte) : List Partition :=
  (List.range (min 32 (b8 b 25))).map fun i =>
    let o := 64 + 32 * i
    { base := b64 b o, size := b64 b (o + 8), mask := b32 b (o + 16), localBase := b32 b (o + 20)
      granule := b8 b (o + 24), use := b8 b (o + 25), tag := b8 b (o + 26) }

/-- Line rate of a DisplayPort rate code in units of 10 Mb/s of payload, times 330 (R371, R395). -/
def dpPayload (code : Nat) : Nat :=
  match code with
  | 2 => 270 * 264
  | 4 => 540 * 264
  | 7 => 810 * 264
  | 8 => 1000 * 320
  | 10 => 1350 * 320
  | _ => 0

/-- Disagreements of the wall geometry with the port map and the memory partitions (R71, R395, R553). -/
def wallCross (wall port mem : List Byte) : List (List (Nat × Nat)) :=
  (List.range 24).flatMap fun f =>
    if wDefined wall f = false then []
    else
      let p := b8 wall (66 + 64 * f)
      let (a, e) := heldExtent wall f
      let (num, den) := wPixelRate wall f
      (if b8 port (32 * p) = 2 then
        if 97 * dpPayload (b8 port (32 * p + 2)) * b8 port (32 * p + 1) * 10000000 * den < 100 * 330 * num * 3 * wDepth wall f
        then [[(3, 68 + 64 * f), (2, 32 * p + 1)]] else []
       else [[(3, 66 + 64 * f), (2, 32 * p)]])
      ++ if covered ((partitionsOf mem).filter (·.use == 3)) 33 a e then [] else [[(3, 92 + 64 * f), (6, 25)]]

/-- A triplet meets R52. -/
def tripletWhole (m : List Nat) : Bool :=
  match m with
  | [a, b, c] => clusterOf a != clusterOf b && clusterOf a != clusterOf c && clusterOf b != clusterOf c
      && regionOf a != regionOf b && regionOf a != regionOf c && regionOf b != regionOf c
      && (dieOf a != dieOf b || dieOf a != dieOf c)
  | _ => false

/-- Units named for bands or members in a unit allocation. -/
def allocBands (b : List Byte) (f : Nat) : List Nat := (span (64 + 80 * f) 72).map (b8 b)
def allocMembers (b : List Byte) (n : Nat) : List Nat := (span (1984 + 4 * n) 3).map (b8 b)
def allocDirect (b : List Byte) (f : Nat) : Nat := b8 b (136 + 80 * f)

/-- SECTION_INVALID of the unit allocation. -/
def unitFaults (b : List Byte) : List Nat :=
  let ok (u : Nat) := decide (u ≤ 31) || u == 0xFF
  let working := (List.range 24).flatMap (allocBands b) ++ (List.range 64).flatMap (allocMembers b)
  bad (popcount 8 (b8 b 0) == 0 || decide (4 < popcount 8 (b8 b 0))) 0 ++ zeros b 1 63
  ++ (List.range 24).flatMap (fun f =>
    (span (64 + 80 * f) 72).flatMap (fun o => bad (!ok (b8 b o)) o)
    ++ bad (!ok (allocDirect b f)
        || (allocDirect b f != 0xFF && (working.contains (allocDirect b f)
          || (List.range f).any fun g => allocDirect b g == allocDirect b f))) (136 + 80 * f)
    ++ zeros b (137 + 80 * f) 7)
  ++ (List.range 64).flatMap fun n =>
    let m := allocMembers b n
    (span (1984 + 4 * n) 3).flatMap (fun o => bad (!ok (b8 b o)) o)
    ++ bad (m.any (· != 0xFF) && !(m.all (· != 0xFF) && tripletWhole m)) (1984 + 4 * n) ++ bad (b8 b (1987 + 4 * n) != 0) (1987 + 4 * n)

/-! ### Critical set (R191, R192) -/

/-- Field `j` of rectangle `n`: 0 FLUE, 2 COL0, 3 ROW0, 4 COLS_M1, 5 ROWS_M1. -/
def critField (b : List Byte) (n j : Nat) : Nat := b8 b (4 + 8 * n + j)
def critCount (b : List Byte) : Nat := min 64 (b32 b 0)

/-- Two rectangles share a tile. -/
def critClash (b : List Byte) (i j : Nat) : Bool :=
  critField b i 0 == critField b j 0
    && decide (critField b i 2 ≤ critField b j 2 + critField b j 4) && decide (critField b j 2 ≤ critField b i 2 + critField b i 4)
    && decide (critField b i 3 ≤ critField b j 3 + critField b j 5) && decide (critField b j 3 ≤ critField b i 3 + critField b i 5)

/-- Critical tiles in row `r` of the flue of rectangle `n`, up to that rectangle. -/
def critRow (b : List Byte) (n r : Nat) : Nat :=
  ((List.range (n + 1)).filter fun i => critField b i 0 == critField b n 0
    && decide (critField b i 3 ≤ r) && decide (r ≤ critField b i 3 + critField b i 5)).foldl (fun x i => x + critField b i 4 + 1) 0

/-- SECTION_INVALID of the critical set. -/
def critFaults (b : List Byte) : List Nat :=
  bad (decide (64 < b32 b 0)) 0
  ++ (List.range (critCount b)).flatMap (fun n =>
    let o := 4 + 8 * n
    bad (decide (23 < b8 b o)) o ++ bad (b8 b (o + 1) != 0) (o + 1) ++ zeros b (o + 6) 2
    ++ bad ((List.range n).any fun i => critClash b i n) (o + 2)
    ++ bad ((span (critField b n 3) (critField b n 5 + 1)).any fun r => decide (64 < critRow b n r)) (o + 4))
  ++ bad (decide (4096 < (List.range (critCount b)).foldl (fun x n => x + (critField b n 4 + 1) * (critField b n 5 + 1)) 0)) 0

/-- Disagreements of the unit allocation, the critical set and the wall geometry (R71, R192, R554). -/
def allocCross (wall alloc crit : List Byte) : List (List (Nat × Nat)) :=
  (List.range 24).flatMap (fun f =>
    let bands := if wDefined wall f then wRows wall f else 0
    (List.range 72).flatMap (fun k =>
      if decide (k < bands) == (b8 alloc (64 + 80 * f + k) != 0xFF) then [] else [[(4, 64 + 80 * f + k), (3, 72 + 64 * f)]])
    ++ if wDefined wall f = false ∧ allocDirect alloc f ≠ 0xFF then [[(4, 136 + 80 * f), (3, 64 + 64 * f)]] else [])
  ++ (List.range 64).flatMap (fun n =>
    let named := (allocMembers alloc n).any (· != 0xFF)
    if named == decide (n < critCount crit) then [] else [[(4, 1984 + 4 * n), (5, if n < critCount crit then 4 + 8 * n else 0)]])
  ++ (List.range (critCount crit)).flatMap fun n =>
    let f := critField crit n 0
    if wDefined wall f = false then [[(5, 4 + 8 * n), (3, 64 + 64 * f)]]
    else
      (if wCols wall f ≤ critField crit n 2 + critField crit n 4 then [[(5, 4 + 8 * n + 2), (3, 68 + 64 * f)]] else [])
      ++ if wRows wall f ≤ critField crit n 3 + critField crit n 5 then [[(5, 4 + 8 * n + 3), (3, 72 + 64 * f)]] else []

/-! ### Memory, matrix, protection (R325 to R327, R352, R358, R362) -/

/-- The bytes of a partition's granule, and of a channel's data space. -/
def granuleSize (g : Nat) : Nat := [256, 1024, 4096].getD g 256
def dataSpace (density : Nat) : Nat := [0, 2 ^ 30, 2 ^ 31, 2 ^ 32].getD density 0 / 16 * 15

/-- The local range of a partition in each of its channels. -/
def localRange (p : Partition) : Nat × Nat :=
  (p.localBase * 4096, p.localBase * 4096 + p.size / max 1 (popcount 24 p.mask))

/-- SECTION_INVALID of the memory partitions (R325 to R327, R358). -/
def memFaults (b : List Byte) : List Nat :=
  let ps := partitionsOf b
  let key := 64 + 32 * min 32 (b8 b 25)
  bad (decide (2 < b8 b 0)) 0 ++ (span 1 24).flatMap (fun o => bad (decide (3 < b8 b o)) o)
  ++ bad (decide (32 < b8 b 25)) 25 ++ zeros b 26 38
  ++ ps.zipIdx.flatMap (fun (p, i) =>
    let o := 64 + 32 * i
    let chans := (List.range 24).filter (bitOf p.mask)
    let (l0, l1) := localRange p
    bad (p.base % 65536 != 0
        || (ps.take i).any fun q => decide (q.base < p.base + p.size) && decide (p.base < q.base + q.size)) o
    ++ bad (p.size % max 1 (granuleSize p.granule * popcount 24 p.mask) != 0 || decide (2 ^ 38 < p.base + p.size)) (o + 8)
    ++ bad (decide (2 ^ 24 ≤ p.mask) || p.mask == 0 || chans.any fun c => b8 b (1 + c) == 0) (o + 16)
    ++ bad (chans.any (fun c => decide (dataSpace (b8 b (1 + c)) < l1))
        || (ps.take i).any fun q => chans.any (bitOf q.mask)
          && decide ((localRange q).1 < l1) && decide (l0 < (localRange q).2)) (o + 20)
    ++ bad (decide (2 < p.granule)) (o + 24) ++ bad (decide (7 < p.use)) (o + 25) ++ bad (decide (15 < p.tag)) (o + 26)
    ++ zeros b (o + 27) 5)
  ++ (span key 9).flatMap (fun o => bad (decide (15 < b8 b o)) o) ++ zeros b (key + 9) 7

/-- SECTION_INVALID of the matrix plan (R352). -/
def matrixFaults (b : List Byte) : List Nat := bad (b16 b 2 != 0) 0 ++ zeros b 4 4

/-- The protection unit and region of a protection record. -/
def protKey (b : List Byte) (i : Nat) : Nat × Nat := (b8 b (24 * i), b8 b (24 * i + 1))

/-- SECTION_INVALID of the protection regions (R362, R358). -/
def protFaults (b : List Byte) : List Nat :=
  (List.range (b.length / 24)).flatMap fun i =>
    let o := 24 * i
    bad (decide (2 < b8 b o)) o ++ bad ((List.range i).any fun j => protKey b j == protKey b i) (o + 1) ++ zeros b (o + 2) 6
    ++ bad (decide (b32 b (o + 12) < b32 b (o + 8))) (o + 8)
    ++ bad (b8 b o != 0 && bits (b32 b (o + 20)) 8 0 != 0) (o + 20)

/-- The words of a region that a protection section gives it: zeros where no record names it. -/
def protWords (b : List Byte) (u i : Nat) : List Nat :=
  match (List.range (b.length / 24)).find? fun k => protKey b k == (u, i) with
  | none => [0, 0, 0, 0]
  | some k => [b32 b (24 * k + 8), b32 b (24 * k + 12), b32 b (24 * k + 16) % 2 ^ 18,
      b32 b (24 * k + 20) / 2 ^ 30 * 2 ^ 30 + b32 b (24 * k + 20) % 2 ^ 9]

/-- The words of a region in force. -/
def rgnWords (s : State) (u i : Nat) : List Nat :=
  [R.MPU_RGN_START_LINE u i, R.MPU_RGN_END_LINE u i, R.MPU_RGN_PERM_RIGHTS u i, R.MPU_RGN_CTRL_ENABLE u i].map fun f =>
    (s.word f.addr).toNat

/-- A reloaded protection section alters, adds or removes a locked region (R85). -/
def protCross (s : State) (b : List Byte) : List (Nat × Nat) :=
  (List.range 3).flatMap fun u => (List.range 256).flatMap fun i =>
    let old := rgnWords s u i
    let new := protWords b u i
    let locked := bitOf (old.getD 3 0) 30
    if old = new ∨ (locked = false ∧ bitOf (new.getD 3 0) 30 = false) then []
    else
      match (List.range (b.length / 24)).find? fun k => protKey b k == (u, i) with
      | some k => [(8, 24 * k + if locked then 8 + 4 * ((List.range 4).findIdx fun j => old.getD j 0 != new.getD j 0) else 0)]
      | none => [(8, 0)]

/-! ### Power plan (R503, R504, R555) -/

/-- The mask of every field of the register at `a`. -/
def fieldMask (a : Nat) : Nat :=
  match findReg a with
  | none => 0
  | some (d, _) => d.fields.foldl (fun m f => m + (2 ^ (f.hi + 1) - 2 ^ f.lo)) 0

/-- SECTION_INVALID of the power plan. -/
def powerFaults (b : List Byte) : List Nat :=
  let p := b32 b 0
  let on (d : Nat) := bitOf p d
  let die (d : Nat) := (on (d + 10) || !(on (d + 7) || on (d + 8) || on (d + 9)))
    && (on (d + 11) || !(on (d + 7) || on (d + 8) || on (d + 9) || on (d + 10)))
  let reserved (o : Nat) (a : Nat) := bad (b32 b o != (b32 b o &&& fieldMask a)) o
  bad (decide (2 ^ 17 ≤ p) || p % 8 != 7 || !die 0 || !die 5) 0
  ++ reserved 4 0xD0000 ++ reserved 8 0xD0004 ++ reserved 12 0xD0008 ++ reserved 16 0xD000C
  ++ bad (decide (15 < b8 b 20)) 20 ++ zeros b 21 3
  ++ (List.range 24).flatMap (fun k =>
    bad (b8 b (24 + k) != 0xFF && (decide (23 < b8 b (24 + k)) || (k != 0 && b8 b (23 + k) == 0xFF)
      || (List.range k).any fun j => b8 b (24 + j) == b8 b (24 + k))) (24 + k))
  ++ zeros b 48 16
  ++ (List.range 32).flatMap fun m => bad (decide (b32 b (64 + 4 * m) / 65536 < b32 b (64 + 4 * m) % 65536)) (64 + 4 * m)

/-- The audio map holds something that needs PD6: an IEC port that is not off, a TDM port, or a route (R503). -/
def audioNeedsPower (b : List Byte) : List Nat :=
  (List.range (b.length / 36)).filter fun i =>
    let a := b32 b (36 * i)
    (decide (0x190100 ≤ a) && decide (a < 0x190300) && a % 0x40 == 0 && b32 b (36 * i + 4) / 2 ^ 30 != 0)
      || (decide (0x190400 ≤ a) && decide (a < 0x190480)) || (decide (0x191000 ≤ a) && decide (a < 0x191400))

/-- Disagreements of the power plan with other sections (R504). -/
def powerCross (lane wall alloc mem pow sense audio : List Byte) : List (List (Nat × Nat)) :=
  let off (d : Nat) := !bitOf (b32 pow 0) d
  let used (u : Nat) := ((List.range 24).flatMap fun f => (span (64 + 80 * f) 72 ++ [136 + 80 * f]).filter fun o => b8 alloc o == u)
    ++ (List.range 64).flatMap fun n => (span (1984 + 4 * n) 3).filter fun o => b8 alloc o == u
  (span 1 3).flatMap (fun q =>
    match (span (32 * q) 32).find? fun n => b8 lane (8 * n) != 0xFF with
    | some n => if off (q + 2) then [[(9, 0), (1, 8 * n)]] else []
    | none => [])
  ++ (if off 6 then
        ((List.range (sense.length / 16)).filter fun i => b8 sense (16 * i) == 1 || b8 sense (16 * i) == 3).flatMap
          (fun i => [[(9, 0), (10, 16 * i)]])
        ++ (audioNeedsPower audio).flatMap fun i => [[(9, 0), (11, 36 * i)]]
      else [])
  ++ (List.range 4).flatMap (fun r =>
    if off (regionDomain r) then
      (if bits (b8 alloc 0) (2 * r + 1) (2 * r) != 0 then [[(9, 0), (4, 0)]] else [])
      ++ (span (8 * r) 8).flatMap fun u => (used u).flatMap fun o => [[(9, 0), (4, o)]]
    else [])
  ++ (List.range 2).flatMap (fun d =>
    if off (11 + 5 * d) then
      (partitionsOf mem).zipIdx.flatMap fun (p, i) => if bits p.mask (12 * d + 11) (12 * d) != 0 then [[(9, 0), (6, 80 + 32 * i)]] else []
    else [])
  ++ (List.range 24).flatMap fun k =>
    let f := b8 pow (24 + k)
    if f < 24 ∧ wDefined wall f = false then [[(9, 24 + k), (3, 64 + 64 * f)]] else []

/-! ### Sense map (R476) -/

/-- Records of kind `k` of a sense map, as body offsets. -/
def senseRecs (b : List Byte) (k : Nat) : List Nat :=
  ((List.range (b.length / 16)).map (16 * ·)).filter fun o => b8 b o == k

/-- Two runs of lines share one. -/
def runsMeet (a n b m : Nat) : Bool := decide (a < b + m) && decide (b < a + n)

/-- The sense channels of an overlay or sentinel record: first and count. -/
def senseRun (b : List Byte) (o : Nat) : Nat × Nat := if b8 b o = 2 then (b8 b (o + 3), b8 b (o + 4)) else (b8 b (o + 2), 1)

/-- SECTION_INVALID of the sense map. -/
def senseFaults (b : List Byte) : List Nat :=
  let panels := senseRecs b 1
  let overlays := senseRecs b 2
  let users := overlays ++ senseRecs b 3
  (((List.range (b.length / 16)).map (16 * ·)).flatMap fun o => bad (b8 b o == 0 || decide (4 < b8 b o)) o)
  ++ panels.flatMap (fun o =>
    bad (decide (3 < b8 b (o + 1)) || !overlays.any fun v => b8 b (v + 1) / 4 == b8 b (o + 1)) (o + 1)
    ++ bad (decide (128 < b8 b (o + 2) + b8 b (o + 3))
        || panels.any fun q => decide (q < o) && runsMeet (b8 b (o + 2)) (b8 b (o + 3)) (b8 b (q + 2)) (b8 b (q + 3))) (o + 2)
    ++ bad (decide (b8 b (o + 3) < 8) || decide (128 < b8 b (o + 3)) || b8 b (o + 3) % 8 != 0) (o + 3)
    ++ zeros b (o + 4) 4 ++ bad (decide (2 ^ 24 ≤ b32 b (o + 8))) (o + 8) ++ zeros b (o + 12) 4)
  ++ overlays.flatMap (fun o =>
    let pan := panels.find? fun q => b8 b (q + 1) == b8 b (o + 1) / 4
    let prof := (senseRecs b 4).find? fun q => b8 b (q + 1) == b8 b (o + 5)
    bad (decide (15 < b8 b (o + 1)) || pan.isNone) (o + 1)
    ++ bad (decide (23 < b8 b (o + 2))) (o + 2)
    ++ bad (decide (b8 b (o + 4) < 4) || decide (64 < b8 b (o + 4))) (o + 4)
    ++ bad (decide (7 < b8 b (o + 5)) || match pan, prof with
        | some q, some r => b8 b (r + 2) != b8 b (q + 3) || b8 b (r + 3) != b8 b (o + 4)
        | _, none => true
        | none, _ => false) (o + 5)
    ++ bad (bits (b8 b (o + 6)) 7 3 != 0) (o + 6) ++ zeros b (o + 7) 9)
  ++ (senseRecs b 3).flatMap (fun o =>
    bad (decide (23 < b8 b (o + 1)) || (senseRecs b 3).any fun q => decide (q < o) && b8 b (q + 1) == b8 b (o + 1)) (o + 1)
    ++ zeros b (o + 3) 13)
  ++ users.flatMap (fun o =>
    let (c, n) := senseRun b o
    bad (decide (192 < c + n) || users.any fun q => decide (q < o) && b8 b q == b8 b o && runsMeet c n (senseRun b q).1 (senseRun b q).2)
      (o + if b8 b o = 2 then 3 else 2))
  ++ (senseRecs b 4).flatMap fun o => bad (decide (7 < b8 b (o + 1))) (o + 1) ++ zeros b (o + 9) 7

/-- An overlay whose flue's timing differs from the attached flue's (R475, R476), and a sentinel channel given to a panel too (R71). -/
def senseCross (wall sense : List Byte) : List (List (Nat × Nat)) :=
  let overlays := senseRecs sense 2
  overlays.flatMap (fun o =>
    let mates := overlays.filter fun q => b8 sense (q + 1) / 4 == b8 sense (o + 1) / 4
    let first := mates.foldl (fun x q => if b8 sense (q + 1) < b8 sense (x + 1) then q else x) o
    let (f, g) := (b8 sense (o + 2), b8 sense (first + 2))
    if wHTotal wall f = wHTotal wall g ∧ wVTotal wall f = wVTotal wall g ∧ wX2 wall f = wX2 wall g
        ∧ wField wall f 20 = wField wall g 20 then [] else [[(10, o + 2), (3, 68 + 64 * f)]])
  ++ (senseRecs sense 3).flatMap fun o =>
    (overlays.filter fun q => runsMeet (senseRun sense o).1 1 (senseRun sense q).1 (senseRun sense q).2).map fun q =>
      [(10, o + 2), (10, q + 3)]

/-! ### Audio map (R457 to R462) -/

/-- The AUD words that an audio map gives, over their reset values. -/
def audioWords (b : List Byte) : Tab Word :=
  (List.range (b.length / 36)).foldl (fun t i =>
    (List.range 8).foldl (fun t k =>
      let a := b32 b (36 * i) + 4 * k
      if (findReg a).isSome then t.set resetWord a (BitVec.ofNat 32 (b32 b (36 * i + 4 + 4 * k))) else t) t) []

/-- The audio rules are told on a state that holds just those words. -/
def audioView (b : List Byte) : State := { regs := audioWords b }

/-- The body offset of the record that holds aperture offset `a`. -/
def audioRec (b : List Byte) (a : Nat) : Nat :=
  match (List.range (b.length / 36)).reverse.find? fun i => decide (b32 b (36 * i) ≤ a) && decide (a < b32 b (36 * i) + 32) with
  | some i => 36 * i + 4 + (a - b32 b (36 * i))
  | none => 0

/-- The clock domain of a route's source: 0 the tick domain, 1 + group a following group, else its own (R459, R460). -/
def srcDomain (s : State) (r : Nat) : Nat :=
  let kind := s.rd (R.AUD_RT_EP_SRC_KIND r)
  let ix := s.rd (R.AUD_RT_EP_SRC_INDEX r)
  if kind = 3 ∧ s.rd (R.AUD_AES_CFG_PTP ix) = 1 ∧ tickDomainDst s r then 0
  else if kind = 5 ∧ s.rd (R.AUD_TDM_CFG_MASTER (ix / 8)) = 1 then (if s.rd (R.AUD_GRP_FOLLOW 2) = 1 then 3 else 0)
  else 16 + kind * 4096 + ix / (if kind = 5 then 8 else 1)

/-- The clock domain of a route's destination. -/
def dstDomain (s : State) (r : Nat) : Nat :=
  let kind := s.rd (R.AUD_RT_EP_DST_KIND r)
  let ix := s.rd (R.AUD_RT_EP_DST_INDEX r)
  if tickDomainDst s r then 0
  else if kind = 4 then 1 + groupOf 4 ix
  else if kind = 5 ∧ s.rd (R.AUD_TDM_CFG_MASTER (ix / 8)) = 1 then 3
  else 16 + kind * 4096 + ix / (if kind = 5 then 8 else 1)

/-- The source's rate as far as the map gives it. -/
def srcRate (s : State) (r : Nat) : Option Nat :=
  let kind := s.rd (R.AUD_RT_EP_SRC_KIND r)
  let ix := s.rd (R.AUD_RT_EP_SRC_INDEX r)
  if kind = 3 then some 48000 else if kind = 5 then some (audioRate (s.rd (R.AUD_TDM_CFG_RATE (ix / 8)))) else none

/-- Route `r` needs ASRC instances (R460). -/
def needsAsrc (s : State) (r : Nat) : Bool :=
  srcDomain s r != dstDomain s r || match srcRate s r with | some x => x != dstRate s r | none => false

/-- The endpoints that a kind and index name, as source or destination (R457). -/
def endpointOk (src : Bool) (kind ix : Nat) : Bool :=
  if kind = 1 then src && decide (ix < 16)
  else if kind = 2 then !src && decide (ix < 24)
  else if kind = 3 then (if src then decide (ix < 32) else decide (32 ≤ ix) && decide (ix < 64))
  else if kind = 4 then decide (ix < 8)
  else if kind = 5 then decide (ix < 32)
  else false

/-- SECTION_INVALID of the audio map. -/
def audioFaults (b : List Byte) : List Nat :=
  let s := audioView b
  let rec_ := audioRec b
  let named := (List.range 32).filter fun r => s.rd (R.AUD_RT_EP_SRC_KIND r) != 0
  (List.range (b.length / 36)).flatMap (fun i =>
    let a := b32 b (36 * i)
    bad (a % 4 != 0 || decide (a < 0x190000) || decide (0x191400 < a + 32)) (36 * i))
  ++ named.flatMap (fun r =>
    let ep := (R.AUD_RT_EP_DST_KIND r).addr
    let kind := s.rd (R.AUD_RT_EP_DST_KIND r)
    let ix := s.rd (R.AUD_RT_EP_DST_INDEX r)
    let skind := s.rd (R.AUD_RT_EP_SRC_KIND r)
    let six := s.rd (R.AUD_RT_EP_SRC_INDEX r)
    let n := s.rd (R.AUD_RT_CTRL_CH_M1 r) + 1
    let slots := (if s.rd (R.AUD_TDM_CFG_FORMAT (ix / 8)) = 1 then 8 else 2) - ix % 8
    bad (!endpointOk true skind six || !endpointOk false kind ix
        || (s.rdb (R.AUD_RT_CTRL_ENABLE r) && (List.range r).any fun q => s.rdb (R.AUD_RT_CTRL_ENABLE q)
          && s.rd (R.AUD_RT_EP_SRC_KIND q) != 0
          && s.rd (R.AUD_RT_EP_DST_KIND q) == kind && s.rd (R.AUD_RT_EP_DST_INDEX q) == ix)) (rec_ ep)
    ++ bad ((kind == 5 && decide (slots < n)) || (kind == 4 && decide (2 < n))
        || (kind == 3 && decide (s.rd (R.AUD_AES_CFG_CH_M1 ix) + 1 < n))
        || (skind == 3 && (List.range n).any fun j =>
            let c := bits (s.rd (R.AUD_RT_MAP_MAP r)) (4 * j + 3) (4 * j)
            c != 15 && decide (s.rd (R.AUD_AES_CFG_CH_M1 six) < c))
        || (needsAsrc s r && decide (16 < s.rd (R.AUD_RT_CTRL_ASRC r) + (n + 1) / 2))
        || (s.rdb (R.AUD_RT_CTRL_ALIGN r) && !tickDomainDst s r)) (rec_ (ep + 4)))
  ++ (List.range 4).flatMap fun t =>
    bad (s.rd (R.AUD_TDM_CFG_FORMAT t) == 1 && decide (96000 < audioRate (s.rd (R.AUD_TDM_CFG_RATE t))))
      (rec_ (R.AUD_TDM_CFG_RATE t).addr)

/-! ### Check units (R494, R500, R420) -/

/-- Fields of record `i` of the check-unit assignments: CFG, POLY, INIT, XOROUT, FILTER. -/
def chkWord (b : List Byte) (i k : Nat) : Nat := b32 b (32 * i + 4 * k)
def chkPoint (b : List Byte) (i : Nat) : Nat := bits (chkWord b i 0) 23 20
def chkIndex (b : List Byte) (i : Nat) : Nat := bits (chkWord b i 0) 15 8
def chkMode (b : List Byte) (i : Nat) : Nat := bits (chkWord b i 0) 30 29

/-- The index range of a point. -/
def pointIndexOk (point ix : Nat) : Bool :=
  if point = 1 ∨ point = 2 then decide (49 ≤ ix) && decide (ix ≤ 52)
  else if point = 3 ∨ point = 4 then decide (40 ≤ ix) && decide (ix ≤ 47)
  else if point = 5 then decide (ix < 16)
  else if point = 6 then decide (16 ≤ ix) && decide (ix ≤ 39)
  else if point = 7 ∨ point = 8 then decide (ix ≤ 160)
  else point == 0

/-- The modes of a point: 0 compute, 1 append, 2 check-and-strip. -/
def pointModeOk (point mode : Nat) : Bool :=
  mode == 0 || (mode == 1 && (point == 2 || point == 4)) || (mode == 2 && (point == 1 || point == 3))

/-- SECTION_INVALID of the check-unit assignments. -/
def chkFaults (b : List Byte) : List Nat :=
  (List.range 16).flatMap fun i =>
    let w := bits (chkWord b i 0) 5 0
    let o := 32 * i
    if chkPoint b i = 0 ∧ bitOf (chkWord b i 0) 31 = false then zeros b (o + 20) 12
    else
      bad (decide (w < 3) || decide (32 < w) || !pointModeOk (chkPoint b i) (chkMode b i)
          || decide (8 < chkPoint b i) || !pointIndexOk (chkPoint b i) (chkIndex b i)) o
      ++ (span 1 3).flatMap (fun k => bad (decide (2 ^ w ≤ chkWord b i k)) (o + 4 * k)) ++ zeros b (o + 20) 12

/-- An enabled Crinus port's unit: CRC-32C parameters, ORDER 0, DISCARD 1 (R420, R500). -/
def crinusUnit (b : List Byte) (point mode ix i : Nat) : Bool :=
  chkPoint b i == point && chkMode b i == mode && chkIndex b i == ix
    && bits (chkWord b i 0) 5 0 == 32 && bits (chkWord b i 0) 28 27 == 3 && bits (chkWord b i 0) 26 25 == 1
    && chkWord b i 1 == 0x1EDC6F41 && chkWord b i 2 == 0xFFFFFFFF && chkWord b i 3 == 0xFFFFFFFF

/-- The initial register sets set ENABLE of port `p`. -/
def initEnables (b : List Byte) (p : Nat) : Bool :=
  (List.range (b.length / 12)).any fun i => b32 b (12 * i) == 0x171000 + 0x100 * p
    && bitOf (b32 b (12 * i + 4)) 31 && bitOf (b32 b (12 * i + 8)) 31

/-- Disagreements of the check units with the port map and with each other, and with the Crinus ports that are enabled
(R500, R420). -/
def chkCross (enabled : Nat → Bool) (port chk : List Byte) : List (List (Nat × Nat)) :=
  (List.range 16).flatMap (fun i =>
    let p := chkPoint chk i
    let x := chkIndex chk i
    (if 1 ≤ p ∧ p ≤ 6 ∧ b8 port (32 * x) = 0 then [[(12, 32 * i), (2, 32 * x)]] else [])
    ++ if p ≠ 0 ∧ chkMode chk i ≠ 0 ∧ (List.range i).any (fun j => chkPoint chk j == p && chkIndex chk j == x
        && chkMode chk j == chkMode chk i) then [[(12, 32 * i)]] else [])
  ++ (span 49 4).flatMap fun x =>
    if enabled x = false ∨ ((List.range 16).any (crinusUnit chk 2 1 x) ∧ (List.range 16).any (crinusUnit chk 1 2 x)) then []
    else [[(12, 0), (14, 0), (2, 32 * x)]]

/-! ### Injection permission and initial registers (R556, R74) -/

/-- SECTION_INVALID of the fault-injection permission. -/
def injFaults (b : List Byte) : List Nat := bad (decide (31 < b8 b 0)) 0 ++ zeros b 1 63

/-- SECTION_INVALID of the initial register sets. -/
def initFaults (b : List Byte) : List Nat :=
  (List.range (b.length / 12)).flatMap fun i =>
    let o := 12 * i
    let a := b32 b o
    let m := b32 b (o + 4)
    bad (a % 4 != 0 || (decide (0x20000 ≤ a) && decide (a < 0x30000)) || (decide (0x400000 ≤ a) && decide (a < 0x800000))
        || (findReg a).isNone) o
    ++ bad (m &&& accMask .ro a != 0 || m &&& accMask .w1c a != 0) (o + 4)

/-! ### All of them -/

/-- The faults of section `t` by itself. -/
def sectionFaults (t : Nat) (b : List Byte) : List Nat :=
  match t with
  | 1 => laneFaults b
  | 2 => portFaults b
  | 3 => wallFaults b
  | 4 => unitFaults b
  | 5 => critFaults b
  | 6 => memFaults b
  | 7 => matrixFaults b
  | 8 => protFaults b
  | 9 => powerFaults b
  | 10 => senseFaults b
  | 11 => audioFaults b
  | 12 => chkFaults b
  | 13 => injFaults b
  | 14 => initFaults b
  | _ => []

/-- Every disagreement, each as the fields (section, offset) that take part; `enabled` tells the ports whose live ENABLE is 1. -/
def allCross (enabled : Nat → Bool) (body : Nat → List Byte) : List (List (Nat × Nat)) :=
  laneCross (body 1) (body 2) ++ wallCross (body 3) (body 2) (body 6) ++ allocCross (body 3) (body 4) (body 5)
    ++ powerCross (body 1) (body 3) (body 4) (body 6) (body 9) (body 10) (body 11)
    ++ senseCross (body 3) (body 10) ++ chkCross (fun p => enabled p || initEnables (body 14) p) (body 2) (body 12)

end Sys2Proof.Machine
end

