-- ==== Sys2Proof/Machine/Matrix.lean ====
section
/-!
DEFINITION. The matrix and the protection units (R348 to R369): where an access goes, which region decides it, what a
refusal leaves behind, the order in which competing requests are served, fences, rule changes with their epochs and drains, and the die-to-die links.
-/
namespace Sys2Proof.Machine

/-- The master class of a source number (R348). -/
def classOf (src : Nat) : Nat :=
  if src < 32 then 0 else if src < 56 then 1 else if src < 88 then 2 else if src < 104 then 3
  else if src < 128 then 4 else if src < 152 then 5 else if src < 153 then 6 else if src < 157 then 7
  else if src < 160 then 8 else 9

/-- The protection unit of a hearth-layer address and the address within that unit's space (R349). -/
def unitOf (addr : Nat) : Nat × Nat :=
  if addr < 0x4000000000 then (0, addr)
  else if addr < 0x4010000000 then (1, addr - 0x4000000000)
  else (2, addr - 0x4010000000)

/-- The partition that maps a DRAM device address (R326). -/
def partitionOf (s : State) (a : Nat) : Option Partition :=
  s.mem.partitions.find? fun p => decide (p.base ≤ a) && decide (a < p.base + p.size)

/-- An address that the table of R349 maps. -/
def isMapped (s : State) (addr : Nat) : Bool :=
  if addr < 0x4000000000 then (partitionOf s addr).isSome
  else decide (addr < 0x4002800000) || (decide (0x4010000000 ≤ addr) && decide (addr < 0x4011000000))

/-- The first enabled region of unit `u` that holds `line` (R357). -/
def decidingRegion (s : State) (u line : Nat) : Option Nat :=
  (List.range 256).find? fun i => s.rdb (R.MPU_RGN_CTRL_ENABLE u i)
    && decide (s.rd (R.MPU_RGN_START_LINE u i) ≤ line) && decide (line ≤ s.rd (R.MPU_RGN_END_LINE u i))

/-- The rights that hold until step 4 of R73 has applied a protection section (R357). -/
def defaultGrant (u a cls : Nat) : Bool :=
  if u = 2 then (cls == 6 || cls == 8)
    && (decide (a < 0x10000) || (decide (0x20000 ≤ a) && decide (a < 0x30000))
        || (decide (0x1B0000 ≤ a) && decide (a < 0x1C0000)))
  else cls == 8

/-- What the check of one access answers: refused with a KIND of MPU_VIOL_INFO and the deciding region (0x100 for none),
or permitted, with the colour check asked for or not (R357 to R361). -/
inductive Verdict where
  | refused (kind region : Nat)
  | permitted (colour : Bool)
  deriving DecidableEq, Repr

/-- The check of an access by `src` to hearth-layer address `addr` (R357, R358, R361). -/
def checkAccess (s : State) (src : Nat) (write : Bool) (addr : Nat) : Verdict :=
  let (u, a) := unitOf addr
  let region := decidingRegion s u (a / 64)
  let locked := match region with | some i => s.rdb (R.MPU_RGN_CTRL_LOCK u i) | none => false
  if classOf src = 9 then
    if s.protectionApplied && locked then .refused (if write then 5 else 4) (region.getD 0x100)
    else if isMapped s addr then .permitted false else .refused 7 (region.getD 0x100)
  else if isMapped s addr = false then .refused 7 (if s.protectionApplied then region.getD 0x100 else 0x100)
  else if s.protectionApplied = false then
    if defaultGrant u a (classOf src) then .permitted false else .refused 6 0x100
  else
    match region with
    | none => .refused 6 0x100
    | some i =>
      let c := classOf src
      if bitOf (s.rd (R.MPU_RGN_PERM_RIGHTS u i)) (2 * c + b2n write) then
        .permitted (u == 0 && bitOf (s.rd (R.MPU_RGN_CTRL_COLOUR u i)) c)
      else .refused (b2n write) i

/-- The record of a refusal (R360): the first of a tick in the unit's registers, the count, and the event once per tick for each unit
and source. -/
def noteRefusal (src addr kind region : Nat) (s : State) : State :=
  let (u, a) := unitOf addr
  let first := (0x11FF, u) ∉ s.evq.raisedTick
  let s := if first then
      let s := s.wr (R.MPU_VIOL_ADDR_LINE u) (a / 64)
      let s := s.wr (R.MPU_VIOL_INFO_REGION u) region
      let s := s.wr (R.MPU_VIOL_INFO_KIND u) kind
      let s := s.wr (R.MPU_VIOL_INFO_SOURCE u) src
      { s with evq := { s.evq with raisedTick := (0x11FF, u) :: s.evq.raisedTick } }
    else s
  let s := s.wr (R.MPU_VIOL_COUNT_COUNT u) (satTo 32 (s.rd (R.MPU_VIOL_COUNT_COUNT u) + 1))
  let s := s.raiseOnce 0x1101 (u * 256 + src)
  if kind = 4 ∨ kind = 5 then s.raise 0x1102 (u * 256 + region) else s

/-- What the source of a refused access of `len` bytes is answered (R360). -/
def answerRefusal (src : Nat) (write : Bool) (addr len kind : Nat) (s : State) : State :=
  if kind = 4 then
    s.send (.readData src addr (((List.range ((len + 3) / 4)).flatMap fun _ => [0xDE, 0xC0, 0xAD, 0xDE]).take len) false)
  else if classOf src = 6 then (if write then s else s.send (.unsupportedRequest src addr))
  else if write then (if kind = 5 then s else s.send (.writeError src addr))
  else s.send (.readData src addr (List.replicate len 0) true)

/-- The record and the answer of a refused line. -/
def recordRefusal (src : Nat) (write : Bool) (addr kind region : Nat) (s : State) : State :=
  answerRefusal src write addr 64 kind (noteRefusal src addr kind region s)

/-- A source with a fence outstanding issues no request (R337). -/
def isFenced (s : State) (src : Nat) : Bool := s.mem.fences.any (· == src)

/-- The requests that an access is split into, none crossing a line (R354). -/
def accessLines (x : Access) : List Access :=
  let n := if x.write then x.bytes.length else x.len
  (span (x.addr / 64) ((x.addr + n + 63) / 64 - x.addr / 64)).map fun l =>
    let a := max x.addr (64 * l)
    let e := min (x.addr + n) (64 * (l + 1))
    { x with addr := a, bytes := (x.bytes.drop (a - x.addr)).take (e - a), len := e - a }

/-- A permitted request of one line. A DRAM access is outstanding, with the epoch of its check, until it completes; an SRAM access
completes with its check, and so does a read of the aperture: of the 32-bit words that it meets, in ascending order (R523), through
BAR0 for the PCIe endpoint (R217). A write of the aperture is REGISTER_WRITE's (log 116). -/
def accessLine (colour : Bool) (x : Access) (s : State) : State :=
  let (u, _) := unitOf x.addr
  if u = 0 then
    { s with mem := { s.mem with outstanding := s.mem.outstanding ++
        [{ access := x, epoch := s.rd (R.MPU_EPOCH_EPOCH 0), colour, sinceNs := s.monoNs }] } }
  else if u = 1 then
    let base := x.addr / 64 * 64
    if x.write then
      (s.memWrite x.addr x.bytes) |> chkLine 7 x.src (some x.bytes)
    else
      let bs := s.memRead base 64
      (s.send (.readData x.src x.addr bs false)) |> chkLine 8 x.src (some bs)
  else if x.write then s
  else
    let a := x.addr - 0x4010000000
    let words := (span (a / 4) ((a + x.len + 3) / 4 - a / 4)).map fun w => readReg (x.src == 152) (4 * w) s
    s.send (.readData x.src x.addr (words.flatMap (leBytes 4)) false)

/-- The check of a request of one line. -/
def lineVerdict (s : State) (x : Access) : Verdict := checkAccess s x.src x.write x.addr

/-- The KIND of the first refused line of an access, if one is. -/
def anyRefused (s : State) (x : Access) : Option Nat :=
  (accessLines x).findSome? fun l => match lineVerdict s l with | .refused kind _ => some kind | _ => none

/-- The record of a line of an access, when it is refused. -/
def noteLine (x : Access) (s : State) : State :=
  match lineVerdict s x with
  | .refused kind region => noteRefusal x.src x.addr kind region (chkLine (if x.write then 7 else 8) x.src none s)
  | .permitted _ => s

/-- ACCESS_CHECK: an access enters the matrix, split into lines that are checked each on its own (R354, R357). A write carries out
the lines it may; a read with a refused line is answered as refused as a whole. -/
def accessCheck (x : Access) (s : State) : State :=
  if isFenced s x.src then s
  else
    match (if x.write then none else anyRefused s x) with
    | some kind => answerRefusal x.src false x.addr x.len kind ((accessLines x).foldl (fun s l => noteLine l s) s)
    | none => (accessLines x).foldl (fun s l => match lineVerdict s l with
        | .refused kind _ => answerRefusal l.src l.write l.addr l.len kind (noteLine l s)
        | .permitted colour => accessLine colour l s) s

/-! ### Arbitration (R353) -/

/-- The channel-local place of a device address in a partition (R326): the channel and the address on it. -/
def granuleBytes (p : Partition) : Nat := if p.granule = 0 then 256 else if p.granule = 1 then 1024 else 4096

/-- The channels of a partition in ascending order. -/
def channelsOf (p : Partition) : List Nat := (List.range 24).filter fun c => bitOf p.mask c

/-- The channel and channel-local address of a device address (R326). -/
def interleave (p : Partition) (a : Nat) : Nat × Nat :=
  let off := a - p.base
  let g := off / granuleBytes p
  let cs := channelsOf p
  let n := max 1 cs.length
  (cs.getD (g % n) 0, p.localBase * 4096 + g / n * granuleBytes p + off % granuleBytes p)

/-- The channel of a device address; 0 where no partition maps it. -/
def channelOf (s : State) (a : Nat) : Nat :=
  match partitionOf s a with | some p => (interleave p a).1 | none => 0

/-- The real-time port of a source, if it is one, is in panic (R338, R348). -/
def inPanic (s : State) (src : Nat) : Bool :=
  decide (88 ≤ src) && decide (src < 152) && s.rdb (R.HRT_RT_PORT_PANIC (src - 88))

/-- The priority of a request at its memory subsystem (R335, R353, R367). -/
def requestLevel (s : State) (o : Outstanding) : Nat :=
  if channelOf s o.access.addr < 12 then s.rd (R.MTX_PRIO_MEM_A o.access.src) else s.rd (R.MTX_PRIO_MEM_B o.access.src)

/-- The element that `before` puts first of all; of equals the earlier. -/
def firstBy {α : Type} (before : α → α → Bool) : List α → Option α
  | [] => none
  | x :: l => match firstBy before l with
    | none => some x
    | some y => if before y x then some y else some x

/-- The request that the matrix serves next of those that wait for memory subsystem `m`, each source's oldest: panic, then those
that have waited MTX_STARVE.CYCLES cycles of 1 ns, oldest first; then the highest level; within it in round-robin order after the
source served last (R353). -/
def matrixNext (s : State) (m : Nat) : Option Outstanding :=
  let wait := s.mem.outstanding.filter fun o => o.arrival == 0
  let heads := wait.filter fun o => (wait.find? fun q => q.access.src == o.access.src) == some o
    && decide (channelOf s o.access.addr / 12 = m)
  let starved (o : Outstanding) : Bool := decide (o.sinceNs + max 1 (s.rd R.MTX_STARVE_CYCLES) ≤ s.monoNs)
  let turn (o : Outstanding) : Nat := (o.access.src + 161 - (s.mem.lastServed.get (fun _ => 160) m + 1) % 161) % 161
  let older (a b : Outstanding) : Bool := decide (a.sinceNs < b.sinceNs)
  match firstBy older (heads.filter fun o => inPanic s o.access.src), firstBy older (heads.filter starved) with
  | some o, _ => some o
  | none, some o => some o
  | none, none => firstBy (fun a b => decide (requestLevel s b < requestLevel s a)
      || (requestLevel s a == requestLevel s b && decide (turn a < turn b))) heads

/-- A request arrives at its memory controller. -/
def arrive (m : Nat) (o : Outstanding) (s : State) : State :=
  let mark (q : Outstanding) : Outstanding := { q with arrival := s.mem.arrivals + 1, arrivedNs := s.monoNs }
  { s with mem := { s.mem with
    arrivals := s.mem.arrivals + 1
    lastServed := s.mem.lastServed.set (fun _ => 160) m o.access.src
    outstanding := s.mem.outstanding.map fun q => if q == o then mark q else q } }

/-- The matrix serves what waits in it, one request at a time for each memory subsystem, in the order of R353 (log 116). -/
def serveMatrix (m : Nat) : Nat → State → State
  | 0, s => s
  | n + 1, s => match matrixNext s m with
    | none => s
    | some o => serveMatrix m n (arrive m o s)

/-- Every request that waits in the matrix reaches its controller. -/
def matrixServed (s : State) : State :=
  serveMatrix 1 s.mem.outstanding.length (serveMatrix 0 s.mem.outstanding.length s)

/-- MTX_FENCE: a read of the register fences the reading source (R355, R337). -/
def mtxFence (src : Nat) (s : State) : State :=
  if isFenced s src then s else { s with mem := { s.mem with fences := s.mem.fences ++ [src] } }

/-- FENCE_COMPLETE: every earlier write of the source has taken effect and every earlier read has returned; the read of
MTX_FENCE returns 0x00000001 (R337, R355). -/
def fenceComplete (src : Nat) (s : State) : State :=
  if isFenced s src && !s.mem.outstanding.any (fun o => o.access.src == src) then
    ({ s with mem := { s.mem with fences := s.mem.fences.filter (· ≠ src) } }).send (.fenceDone src)
  else s

/-- MPU_UPD_GO: a write of 1 to GO with the region index (R363 to R365). -/
def mpuUpdGo (u i : Nat) (s : State) : State :=
  let s := s.wr (R.MPU_UPD_GO_INDEX u) i
  if s.rdb (R.MPU_UPD_STAT_PENDING u) then s.wr (R.MPU_UPD_STAT_BUSY_HIT u) 1
  else if s.rdb (R.MPU_RGN_CTRL_LOCK u i) then
    (s.wr (R.MPU_UPD_STAT_REFUSED_LOCKED u) 1).raise 0x1104 (u * 256 + i)
  else if s.rd (R.MPU_UPD_END_VALUE u) < s.rd (R.MPU_UPD_START_VALUE u) then s.wr (R.MPU_UPD_STAT_BAD_RANGE u) 1
  else
    let old := (s.rd (R.MPU_RGN_START_LINE u i), s.rd (R.MPU_RGN_END_LINE u i))
    let new := (s.rd (R.MPU_UPD_START_VALUE u), s.rd (R.MPU_UPD_END_VALUE u))
    let ctrl := s.rd (R.MPU_UPD_CTRL_VALUE u)
    let s := (s.wr (R.MPU_RGN_START_LINE u i) new.1).wr (R.MPU_RGN_END_LINE u i) new.2
    let s := s.wr (R.MPU_RGN_PERM_RIGHTS u i) (s.rd (R.MPU_UPD_PERM_VALUE u))
    let s := (s.wr (R.MPU_RGN_CTRL_ENABLE u i) (bits ctrl 31 31)).wr (R.MPU_RGN_CTRL_LOCK u i) (bits ctrl 30 30)
    let s := s.wr (R.MPU_RGN_CTRL_COLOUR u i) (bits ctrl 8 0)
    let s := s.wr (R.MPU_EPOCH_EPOCH u) (s.rd (R.MPU_EPOCH_EPOCH u) + 1)
    let s := s.wr (R.MPU_UPD_STAT_PENDING u) 1
    { s with mem := { s.mem with drains := s.mem.drains ++
        [{ unit := u, object := i, epoch := s.rd (R.MPU_EPOCH_EPOCH u), ranges := [old, new], goNs := s.monoNs }] } }

/-- An access was checked under an older epoch than the drain's, and its line lies in the affected range (R364). The 16-bit
epochs are compared modulo their range, of which never more than three are in use (R365). -/
def holdsDrain (d : Drain) (o : Outstanding) : Bool :=
  let (u, a) := unitOf o.access.addr
  u == d.unit && o.epoch != d.epoch && decide ((d.epoch + 65536 - o.epoch) % 65536 < 32768)
    && d.ranges.any fun r => decide (r.1 ≤ a / 64) && decide (a / 64 ≤ r.2)

/-- MPU_DRAINED: no older access remains in an affected range of unit `u`; the drains that are over are acknowledged, and
PENDING clears when none is left (R364, R365). -/
def mpuDrained (u : Nat) (s : State) : State :=
  let done := s.mem.drains.filter fun d => d.unit == u && !s.mem.outstanding.any (holdsDrain d)
  let left := s.mem.drains.filter fun d => !(d.unit == u && !s.mem.outstanding.any (holdsDrain d))
  let s := { s with mem := { s.mem with drains := left } }
  let s := done.foldl (fun s d =>
    (s.wr (R.MPU_UPD_STAT_DRAIN_US u) (satTo 16 ((s.monoNs - d.goNs) / 1000))).raise 0x1103 (u * 256 + d.object)) s
  if !done.isEmpty && !left.any (·.unit == u) then s.wr (R.MPU_UPD_STAT_PENDING u) 0 else s

/-- MTX_LINK_ERR: a flit of link `k` fails its CRC after `failed` resends of it have failed already (R356). It is resent,
or after 15 failed resends dropped with the access it carries. -/
def mtxLinkErr (k failed : Nat) (src addr : Nat) (write : Bool) (s : State) : State :=
  if failed < 15 then
    { s with mem := { s.mem with resends := s.mem.resends.set (fun _ => 0) k (s.mem.resends.get (fun _ => 0) k + 1) } }
  else
    let s := s.wr (R.MTX_LINK_STAT_DROPPED k) (satTo 16 (s.rd (R.MTX_LINK_STAT_DROPPED k) + 1))
    let hit := fun (o : Outstanding) => o.access.src == src && o.access.addr == addr && o.access.write == write
    let s := { s with mem := { s.mem with outstanding := s.mem.outstanding.eraseP hit } }
    let s := s.raise 0x1001 k
    if write then s.send (.writeError src addr) else s.send (.readData src addr (List.replicate 64 0) true)

end Sys2Proof.Machine
end

