-- ==== Sys2Proof/Machine/Hearth.lean ====
section
/-!
DEFINITION. The hearth (R324 to R347): line errors and poison, rows and the choice of commands, reads and writes, scrubbing, panic, refresh,
retraining windows.
-/
namespace Sys2Proof.Machine

/-- The device address of channel-local address `l` on channel `c`, where a partition holds one (R326 backwards). -/
def deviceAddr (s : State) (c l : Nat) : Option Nat :=
  s.mem.partitions.findSome? fun p =>
    let cs := channelsOf p
    let n := max 1 cs.length
    let lb := p.localBase * 4096
    let gs := granuleBytes p
    if c ∈ cs ∧ lb ≤ l ∧ l < lb + p.size / n then
      some (p.base + ((l - lb) / gs * n + cs.findIdx (· = c)) * gs + (l - lb) % gs)
    else none

/-- The colour tag of a line: its partition's TAG (R328). -/
def tagOf (s : State) (a : Nat) : Nat := match partitionOf s a with | some p => p.tag | none => 0

/-- A line holds an error that its codes correct. -/
def isCorrectable (e : LineErr) : Bool := !isPoisoned e && (e.half0 == 1 || e.half1 == 1)

/-- The record of a line error (R329): where, who, found by the scrubber or not. -/
def recordError (c a src : Nat) (ue scrub : Bool) (s : State) : State :=
  let s := s.wr (R.HRT_CH_ERRADDR_ADDR c) (a / 64)
  let s := s.wr (R.HRT_CH_ERRSRC_UE c) (b2n ue)
  let s := s.wr (R.HRT_CH_ERRSRC_SCRUB c) (b2n scrub)
  s.wr (R.HRT_CH_ERRSRC_SOURCE c) src

/-! ### The controllers (R334, R335) -/

/-- The bank, group first, and the row of a channel-local address (R326). -/
def bankRow (l : Nat) : Nat × Nat := (l / 2048 % 16, l / 2048 / 16)

/-- The bank and row of a device address. -/
def placeOf (s : State) (a : Nat) : Nat × Nat :=
  bankRow (match partitionOf s a with | some p => (interleave p a).2 | none => 0)

/-- The row of an address is open in its bank (R334). -/
def rowHit (s : State) (c a : Nat) : Bool :=
  let (b, r) := placeOf s a
  (s.chan c).openRows.get (fun _ => 0) b == r + 1

/-- An access opens its row, which stays open in place of another of the bank (R334). -/
def openRow (c a : Nat) (s : State) : State :=
  let (b, r) := placeOf s a
  let ch := s.chan c
  s.setChan c { ch with openRows := ch.openRows.set (fun _ => 0) b (r + 1) }

/-- A refresh of banks closes their rows (R334). -/
def closeRows (c : Nat) (banks : List Nat) (s : State) : State :=
  let ch := s.chan c
  s.setChan c { ch with openRows := banks.foldl (fun t b => t.set (fun _ => 0) b 0) ch.openRows }

/-- Insert a request in order of arrival. -/
def insertArrival (o : Outstanding) : List Outstanding → List Outstanding
  | [] => [o]
  | q :: l => if o.arrival < q.arrival then o :: q :: l else q :: insertArrival o l

/-- The requests that have arrived at the controller of channel `c`, oldest first. -/
def requestsAt (s : State) (c : Nat) : List Outstanding :=
  (s.mem.outstanding.filter fun o => decide (0 < o.arrival) && channelOf s o.access.addr == c).foldl
    (fun l o => insertArrival o l) []

/-- The write queue of channel `c`: its 64 oldest writes (R335). -/
def writeQueue (s : State) (c : Nat) : List Outstanding := ((requestsAt s c).filter (·.access.write)).take 64

/-- The queued writes of the line of an address. -/
def queuedTo (s : State) (a : Nat) : List Outstanding :=
  (writeQueue s (channelOf s a)).filter fun o => o.access.addr / 64 == a / 64

/-- No earlier request of its source stands before a request (R336): a queued write stands before a write only. -/
def inOrder (s : State) (o : Outstanding) : Bool :=
  let before := s.mem.outstanding.takeWhile (· != o)
  before.all fun q => q.access.src != o.access.src
    || (!o.access.write && q.access.write && (writeQueue s (channelOf s q.access.addr)).contains q)

/-- The requests of channel `c` that are ready: reads and queued writes that stand in order. -/
def readyAt (s : State) (c : Nat) : List Outstanding :=
  (requestsAt s c).filter fun o => inOrder s o && (!o.access.write || (writeQueue s c).contains o)

/-- Whether writes have their turn: during a batch, or when no read is ready (R335). -/
def writesTurn (s : State) (c : Nat) : Bool := (s.chan c).draining || !(readyAt s c).any (!·.access.write)

/-- A batch begins when the queue holds 48 writes or, with more than 16, no read is ready, and ends at 16 (R335). -/
def noteBatch (c : Nat) (s : State) : State :=
  let n := (writeQueue s c).length
  let ch := s.chan c
  s.setChan c { ch with draining :=
    if n ≤ 16 then false else ch.draining || decide (48 ≤ n) || !(readyAt s c).any (!·.access.write) }

/-- The data command that the controller of channel `c` chooses (R335): none before a forced refresh and in a window (R344); panic,
then requests older than AGE_LIMIT, oldest first; then, of the reads or of a batch's writes, the highest matrix level, row hits, the
oldest. Requests in panic or too old do not wait for a batch (log 115). -/
def commandNext (s : State) (c : Nat) : Option Outstanding :=
  let due := (s.chan c).owed.any fun n => decide (8 ≤ n)
  let ready := readyAt s c
  let late (o : Outstanding) : Bool := decide (o.arrivedNs + 100 * max 1 (s.rd R.HRT_SCHED_AGE_LIMIT) < s.monoNs)
  if due || s.rd (R.HRT_CH_STAT_STATE c) == 4 then none
  else match ready.find? fun o => inPanic s o.access.src with
    | some o => some o
    | none => match ready.find? late with
      | some o => some o
      | none =>
        let hit (o : Outstanding) : Nat := b2n (rowHit s c o.access.addr)
        firstBy (fun a b => decide (requestLevel s b < requestLevel s a)
          || (requestLevel s a == requestLevel s b && decide (hit b < hit a)))
          (ready.filter fun o => o.access.write == writesTurn s c)

/-- The bytes of the line of an address as its queued writes leave them, and whether they give the whole line (R335). -/
def overQueued (s : State) (a : Nat) (bs : List Byte) : List Byte × Bool :=
  let ws := queuedTo s a
  (ws.foldl (fun bs o =>
      let k := o.access.addr % 64
      bs.take k ++ o.access.bytes ++ bs.drop (k + o.access.bytes.length)) bs,
   ws.any fun o => o.access.bytes.length == 64)

/-- A request is served now: the controller chooses it, or it is a read in order that the write queue answers (R335, R336). -/
def servedNow (s : State) (o : Outstanding) : Bool :=
  commandNext s (channelOf s o.access.addr) == some o
    || (!o.access.write && decide (0 < o.arrival) && inOrder s o && (overQueued s o.access.addr []).2)

/-- A corrected error (R329): counted, written back unless a write to the line is queued, and HRT_CE_HIGH when the tick's count reaches PER_TICK (R347). -/
def correctLine (c a src : Nat) (scrub : Bool) (s : State) : State :=
  let s := if (queuedTo s a).isEmpty then s.setLine (a / 64) {} else s
  let s := s.wr (R.HRT_CH_ECC_CE c) (satTo 16 (s.rd (R.HRT_CH_ECC_CE c) + 1))
  let s := recordError c a src false scrub s
  let ch := s.chan c
  let s := s.setChan c { ch with ceTick := ch.ceTick + 1 }
  if s.rd R.HRT_CE_LIMIT_PER_TICK = ch.ceTick + 1 then s.raiseOnce 0x0F02 c else s

/-- An uncorrectable error (R329, R332): counted and recorded; the first of the tick on the channel is logged as DRAM_UE and
raised. -/
def reportUe (c a src : Nat) (scrub : Bool) (s : State) : State :=
  let inj := (s.line (a / 64)).injected
  let s := s.wr (R.HRT_CH_ECC_UE c) (satTo 16 (s.rd (R.HRT_CH_ECC_UE c) + 1))
  let s := recordError c a src true scrub s
  if (0x0F01, c) ∈ s.evq.raisedTick then s
  else (logFault 0x0F 8 c inj s).raiseOnce 0x0F01 c

/-- New bit errors of the array join a line's (the environment's; R329). -/
def addFlips (n f0 f1 : Nat) (s : State) : State :=
  let e := s.line n
  if f0 = 0 ∧ f1 = 0 then s else s.setLine n { e with half0 := e.half0 + f0, half1 := e.half1 + f1 }

/-- The line of device address `a` is read and checked by its codes: the 64 bytes and whether they are poisoned (R329); a
lost die's lines all are (R515). -/
def readLine (a src : Nat) (scrub : Bool) (s : State) : List Byte × Bool × State :=
  let base := a / 64 * 64
  let e := s.line (a / 64)
  let bs := s.memRead base 64
  if s.power.diesLost.contains (channelOf s a / 12) then (bs, true, s)
  else if isPoisoned e then (bs, true, reportUe (channelOf s a) a src scrub s)
  else if isCorrectable e then (bs, false, correctLine (channelOf s a) a src scrub s)
  else (bs, false, s)

/-- Bytes of traffic on a channel in this tick. -/
def addTraffic (c : Nat) (write : Bool) (s : State) : State :=
  let ch := s.chan c
  s.setChan c (if write then { ch with wrBytes := ch.wrBytes + 64 } else { ch with rdBytes := ch.rdBytes + 64 })

/-- The oldest outstanding access that satisfies `p`, and the state without it. -/
def takeOutstanding (p : Outstanding → Bool) (s : State) : Option (Outstanding × State) :=
  match s.mem.outstanding.find? p with
  | some o => some (o, { s with mem := { s.mem with outstanding := s.mem.outstanding.eraseP p } })
  | none => none

/-- The key of a master class (R358). -/
def classKey (s : State) (src : Nat) : Nat := s.mem.keys.getD (classOf src) 0

/-- The source's oldest request of a kind, with the state in which every request has reached its controller, when that request is
served now (R335, R336, R353). -/
def takeServed (src : Nat) (write : Bool) (s : State) : Option Outstanding × State :=
  let s := matrixServed s
  match takeOutstanding (fun o => o.access.src == src && o.access.write == write) s with
  | none => (none, s)
  | some (o, t) => if servedNow s o then (some o, t) else (none, s)

/-- DRAM_READ: the oldest outstanding read of source `src` is served when its turn has come (R335), with `f0` and `f1` new bit
errors in the two halves of its line (R329, R332, R359); queued writes of the line are answered from the queue. What a poisoned
line, or a refusal that is answered as one (R360), makes its reader do beyond the delivery (R331) is `respond`. -/
def dramRead (respond : Nat → Nat → State → State) (src f0 f1 : Nat) (s : State) : State :=
  match takeServed src false s with
  | (none, s) => s
  | (some o, s) =>
    let a := o.access.addr
    let c := channelOf s a
    let s := addTraffic c false (addFlips (a / 64) f0 f1 s)
    if o.colour && tagOf s a != classKey s src then
      let region := (decidingRegion s 0 (a / 64)).getD 0x100
      noteBatch c (respond src a (recordRefusal src false a 2 region (chkLine 8 src none s)))
    else
      let whole := (overQueued s a []).2
      let (bs, poison, s) := if whole then (s.memRead (a / 64 * 64) 64, false, s) else readLine a src false (openRow c a s)
      let bs := (overQueued s a bs).1
      let s := chkLine 8 src (if poison then none else some bs) s
      let s := s.send (.readData src a bs poison)
      noteBatch c (if poison then respond src a s else s)

/-- The armed DRAM injection strikes a write of its channel (R250, R254): one or two bit errors in the first half. -/
def injectDram (a : Nat) (s : State) : State :=
  if s.rdb R.INJ_DRAM_ENABLE ∧ s.rd R.INJ_DRAM_CHANNEL = channelOf s a ∧ s.rd R.INJ_DRAM_COUNT ≠ 0 then
    let s := s.setLine (a / 64) { half0 := s.rd R.INJ_DRAM_BITS, injected := true }
    s.wr R.INJ_DRAM_COUNT (s.rd R.INJ_DRAM_COUNT - 1)
  else s

/-- DRAM_WRITE: the oldest outstanding write of source `src` takes effect when its turn has come (R330, R335, R359): a whole line
clears any poison, a partial write is merged after a read, and written poisoned when that read was. -/
def dramWrite (src f0 f1 : Nat) (s : State) : State :=
  match takeServed src true s with
  | (none, s) => s
  | (some o, s) =>
    let a := o.access.addr
    let c := channelOf s a
    let s := addTraffic c true (addFlips (a / 64) f0 f1 s)
    if o.colour && tagOf s a != classKey s src then
      let region := (decidingRegion s 0 (a / 64)).getD 0x100
      noteBatch c (recordRefusal src true a 3 region (chkLine 7 src none s))
    else
      let s := chkLine 7 src (some o.access.bytes) (openRow c a s)
      if o.access.bytes.length = 64 then
        noteBatch c (injectDram a ((s.memWrite a o.access.bytes).setLine (a / 64) {}))
      else
        let (_, poison, s) := readLine a src false s
        let s := s.memWrite a o.access.bytes
        noteBatch c (if poison
          then (s.setLine (a / 64) { poison := true, injected := (s.line (a / 64)).injected }).raise 0x0F07 c
          else injectDram a (s.setLine (a / 64) {}))

/-- The data lines of a channel: 15/16 of its density (R326, R327). -/
def dataLines (s : State) (c : Nat) : Nat :=
  (2 ^ 30 * [0, 1, 2, 4].getD (s.mem.density.getD c 0) 0) / 64 * 15 / 16

/-- SCRUB_READ: the patrol scrubber of channel `c` reads its next line (R333). It stops while the
sheet in use defers it (R262, R263). -/
def scrubRead (c f0 f1 : Nat) (s : State) : State :=
  if s.rdb R.HRT_SCRUB_ENABLE && bitOf (s.rd R.HRT_CFG_FITTED) c && !s.tick.current.any (·.deferScrub) then
    let ch := s.chan c
    let next := if dataLines s c ≤ ch.scrubLine + 1 then 0 else ch.scrubLine + 1
    let at_ := deviceAddr s c (64 * ch.scrubLine)
    let s := s.setChan c { ch with scrubLine := next }
    match at_ with
    | none => s
    | some a => (readLine a 0 true (addFlips (a / 64) f0 f1 s)).2.2
  else s

/-- The owed interval counts of a channel's sixteen banks. -/
def owedOf (s : State) (c : Nat) : List Nat := (List.range 16).map fun b => (s.chan c).owed.getD b 0

/-- Set the owed counts, and OWED, the largest of them (R346). -/
def setOwed (c : Nat) (l : List Nat) (s : State) : State :=
  (s.setChan c { s.chan c with owed := l }).wr (R.HRT_CH_STAT_OWED c) (l.foldl max 0)

/-- A channel in use: fitted and trained. -/
def channelUp (s : State) (c : Nat) : Bool :=
  s.rd (R.HRT_CH_STAT_STATE c) == 2 || s.rd (R.HRT_CH_STAT_STATE c) == 4

/-- The banks of channel `c` that a request is queued to: with `panic`, one of a port in panic. -/
def banksWanted (s : State) (c : Nat) (panic : Bool) : List Nat :=
  ((requestsAt s c).filter fun o => !panic || inPanic s o.access.src).map fun o => (placeOf s o.access.addr).1

/-- REFRESH_INTERVAL: a tREFI interval elapses on channel `c`: every bank owes one more, and each bank that no request is queued to
is repaid, with any it owed before (R339). `postponed` names further banks to which a port in panic has a request queued; a refresh
that panic or a window holds back is postponed (R340, R345). -/
def refreshInterval (c : Nat) (postponed : List Nat) (s : State) : State :=
  if channelUp s c then
    let panic := (List.range 64).any fun p => s.rdb (R.HRT_RT_PORT_PANIC p)
    let held := if s.rd (R.HRT_CH_STAT_STATE c) = 4 then List.range 16
      else ((if panic then postponed else []) ++ banksWanted s c true).eraseDups
    let busy := held ++ banksWanted s c false
    let l := (owedOf s c).zipIdx.map fun (n, b) => if b ∈ busy then min 8 (n + 1) else 0
    let s := closeRows c ((List.range 16).filter fun b => !busy.contains b) s
    let ch := s.chan c
    setOwed c l (s.setChan c { ch with postponed := ch.postponed + held.length })
  else s

/-- FORCED_REFRESH: some bank of channel `c` owes 8 intervals: an all-bank refresh takes one from every bank (R340). -/
def forcedRefresh (c : Nat) (s : State) : State :=
  if channelUp s c && (owedOf s c).any (fun n => decide (8 ≤ n)) && s.rd (R.HRT_CH_STAT_STATE c) != 4 then
    let s := closeRows c (List.range 16) (setOwed c ((owedOf s c).map (· - 1)) s)
    (s.wr (R.HRT_CH_STAT_FORCED c) (satTo 16 (s.rd (R.HRT_CH_STAT_FORCED c) + 1))).raiseOnce 0x0F03 c
  else s

/-- MR4_POLL: MR4 of channel `c` reports derating `code` (0–2), or a temperature above the device's limit (`hot`), and the
oscillator has drifted by `driftPs` since training (R339, R341, R343). -/
def mr4Poll (c code driftPs : Nat) (hot : Bool) (s : State) : State :=
  if channelUp s c then
    let ch := s.chan c
    let s := s.setChan c { ch with hot, driftPs }
    let s := s.wr (R.HRT_CH_STAT_DERATE c) (if hot then 3 else min 2 code)
    if hot ∧ ch.hot = false then s.raise 0x0F08 c else s
  else s

/-- ZQ_LATCH: the controller issues a ZQ latch to channel `c`, as a forced refresh of 30 ns in the order of requests
(R341). -/
def zqLatch (c : Nat) (s : State) : State := if channelUp s c then s.send (.zqLatch c) else s

/-- The capacity in bytes of a real-time port's buffer (R338). -/
def rtCapacity (p : Nat) : Nat := if p < 40 then 65536 else 16384

/-- A real-time port reads from DRAM: the held-copy readers (R338). -/
def rtReader (p : Nat) : Bool := decide (16 ≤ p) && decide (p < 40)

/-- PANIC_FILL as it acts: a value outside 3–13 is the nearer limit (R338). -/
def panicFill (s : State) (p : Nat) : Nat := max 3 (min 13 (s.rd (R.HRT_RT_PORT_PANIC_FILL p)))

/-- HRT_PANIC: the buffer of port `p` holds `fill` bytes: it raises panic, or clears it, at the thresholds (R338). -/
def hrtPanic (p fill : Nat) (s : State) : State :=
  let pf := panicFill s p
  let cap := rtCapacity p
  let rise := if rtReader p then decide (16 * fill ≤ pf * cap) else decide (pf * cap ≤ 16 * fill)
  let fall := if rtReader p then decide ((pf + 2) * cap ≤ 16 * fill) else decide (16 * fill ≤ (pf - 2) * cap)
  let s := { s with mem := { s.mem with rtFill := s.mem.rtFill.set (fun _ => 0) p fill } }
  if s.rdb (R.HRT_RT_PORT_PANIC p) then (if fall then s.wr (R.HRT_RT_PORT_PANIC p) 0 else s)
  else if rise then
    ((s.wr (R.HRT_RT_PORT_PANIC p) 1).wr (R.HRT_RT_PORT_COUNT p) (satTo 8 (s.rd (R.HRT_RT_PORT_COUNT p) + 1))).raiseOnce
      0x0F04 p
  else s

/-- The temperature of the die of channel `c` in whole °C, as R257 evaluated it at the last sample. -/
def channelDieTemp (s : State) (c : Nat) : Nat :=
  if c < 12 then s.rd R.DMP_TEMP_A_MAX_C else s.rd R.DMP_TEMP_B_MAX_C

/-- A retraining of channel `c` is due (R343): drift or temperature change beyond the limits since it was last trained, or
steps of a retraining already begun remain. -/
def retrainDue (s : State) (c : Nat) : Bool :=
  s.rdb R.HRT_TRAIN_ENABLE && s.rd (R.HRT_CH_STAT_STATE c) == 2
    && (decide (s.rd R.HRT_TRAIN_DRIFT_PS < (s.chan c).driftPs)
        || decide (s.rd R.HRT_TRAIN_TEMP_DELTA_C
            < max (channelDieTemp s c) (s.rd (R.HRT_CH_TRAIN_TEMP_C c)) - min (channelDieTemp s c) (s.rd (R.HRT_CH_TRAIN_TEMP_C c)))
        || (s.chan c).trainStep != 0)

/-- The channel to which the damper grants the tick's window: the due one trained longest ago, the lower number on a tie
(R344). -/
def windowChannel (s : State) : Option Nat :=
  ((List.range 24).filter (retrainDue s)).foldl (fun b c =>
    match b with
    | none => some c
    | some d => if (s.chan c).trainedNs < (s.chan d).trainedNs then some c else b) none

/-- TRAIN_WINDOW_OPEN: AT_US after an edge the granted window opens, when no port is in panic, the writers are at most and
the readers at least half full, and no flue scans a held band (R344). -/
def trainWindowOpen (s : State) : State :=
  let calm := (List.range 64).all fun p => !s.rdb (R.HRT_RT_PORT_PANIC p)
    && (match s.mem.rtFill.find? (·.1 = p) with
        | none => true
        | some (_, n) => if rtReader p then decide (rtCapacity p ≤ 2 * n) else decide (2 * n ≤ rtCapacity p))
  let holding := (List.range 24).any fun f => scanningHeld s f
  if s.rdb R.TICK_STATUS_RUN && !s.rdb R.DMP_STATUS_EMERGENCY && calm && !holding && !s.mem.windowThisTick
      && s.mem.window.isNone && decide (s.tick.lastEdgeNs + 1000 * s.rd R.HRT_TRAIN_AT_US ≤ s.nowNs) then
    match windowChannel s with
    | none => s
    | some c => { s.wr (R.HRT_CH_STAT_STATE c) 4 with mem := { s.mem with window := some c, windowThisTick := true } }
  else s

/-- RETRAIN_STEP_DONE: the step of the open window completes, or fails (R344). -/
def retrainStepDone (ok : Bool) (s : State) : State :=
  match s.mem.window with
  | none => s
  | some c =>
    let s := { s.wr (R.HRT_CH_STAT_STATE c) 2 with mem := { s.mem with window := none } }
    let ch := s.chan c
    if ok then
      if ch.trainStep = 2 then
        let s := s.setChan c { ch with trainStep := 0, driftPs := 0, trainedNs := s.monoNs }
        (s.wr (R.HRT_CH_TRAIN_TEMP_C c) (channelDieTemp s c)).raise 0x0F05 c
      else s.setChan c { ch with trainStep := ch.trainStep + 1 }
    else
      (s.wr (R.HRT_CH_TRAIN_FAILS c) (satTo 8 (s.rd (R.HRT_CH_TRAIN_FAILS c) + 1))).raise 0x0F06 c

/-- Channel `c` has counted nothing in the tick, and its counting registers read 0. -/
def chanQuiet (s : State) (c : Nat) : Bool :=
  let ch := s.chan c
  ch.ceTick == 0 && ch.rdBytes == 0 && ch.wrBytes == 0 && ch.panicNs == 0 && ch.postponed == 0
    && s.rd (R.HRT_CH_TRAFFIC_RD_MB c) == 0 && s.rd (R.HRT_CH_TRAFFIC_WR_MB c) == 0
    && s.rd (R.HRT_CH_PANIC_PANIC_US c) == 0 && s.rd (R.HRT_CH_PANIC_POSTPONED c) == 0

/-- At a tick edge the counts of the tick that ends go into the registers (R346, R367). -/
def hearthTickEdge (s : State) : State :=
  let s := (List.range 24).foldl (fun s c =>
    let ch := s.chan c
    if chanQuiet s c then s
    else
      let s := (s.wr (R.HRT_CH_TRAFFIC_RD_MB c) (satTo 16 (ch.rdBytes / 1000000))).wr (R.HRT_CH_TRAFFIC_WR_MB c)
        (satTo 16 (ch.wrBytes / 1000000))
      let s := (s.wr (R.HRT_CH_PANIC_PANIC_US c) (satTo 16 (ch.panicNs / 1000))).wr (R.HRT_CH_PANIC_POSTPONED c)
        (satTo 16 ch.postponed)
      s.setChan c { ch with ceTick := 0, rdBytes := 0, wrBytes := 0, panicNs := 0, postponed := 0 }) s
  let s := (List.range 3).foldl (fun s k =>
    s.wr (R.MTX_LINK_STAT_RESENDS k) (satTo 16 (s.mem.resends.get (fun _ => 0) k))) s
  { s with mem := { s.mem with resends := [], windowThisTick := false } }

end Sys2Proof.Machine
end

