-- ==== Sys2Proof/Machine/Blocks.lean ====
section
/-!
DEFINITION. The 64b/66b blocks of a Crinus link (R417, R418): a frame as start, data and terminate blocks, the alignment
markers, the dealing to the lanes and the scrambler of each lane.
-/
namespace Sys2Proof.Machine

/-- The XOR of some bytes. -/
def xorAll (b : List Byte) : Byte := b.foldl (· ^^^ ·) 0

/-- The block type of a terminate block that carries `n` bytes (IEEE 802.3 clause 49). -/
def endType (n : Nat) : Byte := [0x87, 0x99, 0xAA, 0xB4, 0xCC, 0xD2, 0xE1, 0xFF].getD n 0

/-- The data blocks and the terminate block of the rest of a frame: sync header and 64-bit payload, first byte lowest (R417). -/
def restBlocks : List Byte → List (Nat × Nat)
  | a :: b :: c :: d :: e :: f :: g :: h :: t => (1, ofLeBytes [a, b, c, d, e, f, g, h]) :: restBlocks t
  | t => [(2, ofLeBytes (endType t.length :: t))]

/-- The blocks of a frame: one start block carrying 7 bytes, then those of the rest (R417). -/
def frameBlocks (m : List Byte) : List (Nat × Nat) := (2, ofLeBytes (0x78 :: m.take 7)) :: restBlocks (m.drop 7)

/-- The self-synchronous scrambler x^58 + x^39 + 1 (R379) over the `n` lowest bits of `x`, the lowest first: what it sends, and its
state after, whose bit i was sent i + 1 bits ago. -/
def scramble : Nat → Nat → Nat → Nat × Nat
  | 0, _, st => (0, st)
  | n + 1, x, st =>
    let b := (x + st / 2 ^ 38 + st / 2 ^ 57) % 2
    let r := scramble n (x / 2) ((2 * st + b) % 2 ^ 58)
    (b + 2 * r.1, r.2)

/-- What a block adds to a lane's BIP-8: bit i takes every eighth bit of the payload, bits 3 and 4 the sync header too (R418;
log 117). -/
def blockParity (sync payload : Nat) : Nat := (xorAll (leBytes 8 payload)).toNat ^^^ (sync * 8)

/-- A block leaves on the lane with INDEX `i`, scrambled. -/
def sendBlock (i sync x : Nat) (o : BlockCoder) : BlockCoder × (Nat × Nat × Nat) :=
  let l := o.lanes.getD i (0, 0)
  let r := scramble 64 x l.1
  ({ o with lanes := o.lanes.set i (r.2, l.2 ^^^ blockParity sync r.1) }, (i, sync, r.1))

/-- The bytes of an alignment marker after its block type (R418). -/
def markerBytes (index pkg count bip : Nat) : List Byte :=
  let b := [0xC5, BitVec.ofNat 8 index, BitVec.ofNat 8 pkg, BitVec.ofNat 8 count, BitVec.ofNat 8 bip, 0x5A]
  b ++ [xorAll b]

/-- Every lane sends its alignment marker at one block position; the parity begins anew after it, and the count moves on
(R418). -/
def sendMarkers (pkg : Nat) (o : BlockCoder) : BlockCoder × List (Nat × Nat × Nat) :=
  let r := (List.range 4).foldl (fun (a : BlockCoder × List (Nat × Nat × Nat)) i =>
    let b := sendBlock i 2 (ofLeBytes (0x4B :: markerBytes i pkg o.count (o.lanes.getD i (0, 0)).2)) a.1
    ({ b.1 with lanes := b.1.lanes.set i ((b.1.lanes.getD i (0, 0)).1, 0) }, a.2 ++ [b.2])) (o, [])
  ({ r.1 with count := (o.count + 1) % 256 }, r.2)

/-- A block is dealt to the next lane; a marker on every lane comes before the first of each 16,383 rows (R417, R418). -/
def dealBlock (pkg : Nat) (a : BlockCoder × List (Nat × Nat × Nat)) (b : Nat × Nat) : BlockCoder × List (Nat × Nat × Nat) :=
  let m := if a.1.place = 0 then sendMarkers pkg a.1 else (a.1, [])
  let r := sendBlock (a.1.place % 4) b.1 b.2 m.1
  ({ r.1 with place := (a.1.place + 1) % 65532 }, a.2 ++ m.2 ++ [r.2])

/-- The coder after idle blocks whose number the model does not count: the place in the marker period, the count, the scramblers and
the parities are free values (log 117). -/
def idledCoder (free : Nat → Nat) : BlockCoder :=
  { place := free 0 % 65532, count := free 1 % 256,
    lanes := (List.range 4).map fun i => (free (3 * i + 2) + 2 ^ 32 * (free (3 * i + 3) % 2 ^ 26), free (3 * i + 4) % 256) }

/-- The blocks of frame `m` leave on link `k`: at once after the last frame's, or after idle blocks (R417). -/
def sendBlocks (k : Nat) (m : List Byte) (s : State) : State :=
  let o := s.link k
  let idle := o.coder.lanes.isEmpty || decide (o.coder.busyNs < s.monoNs)
  let c := if idle then idledCoder fun i => (Config.freeValue (s.freeCount + i)).toNat else o.coder
  let r := (frameBlocks m).foldl (dealBlock (s.rd R.GLB_PKG_PKG_ID)) (c, [])
  let begun := if idle then s.monoNs else o.coder.busyNs
  let c := { r.1 with busyNs := begun + r.2.length * 66 * 1000000 / (4 * rateKbps (s.rd (R.CRL_LINK_STATUS_RATE k))) }
  let s := if idle then { s with freeCount := s.freeCount + 14 } else s
  (s.setLink k { o with coder := c }).send (.crinusBlocks k r.2)

end Sys2Proof.Machine
end

