-- ==== Sys2Proof/Machine/Link.lean ====
section
/-!
DEFINITION. The sending side of the Crinus links (R419 to R425, R430, R431, R435): frames, credits, the order of sending,
rewinds, link-up and link-down.
-/
namespace Sys2Proof.Machine

/-- STATE of link `k`: 2 HELLO, 3 UP. -/
def linkState (s : State) (k : Nat) : Nat := s.rd (R.CRL_LINK_STATUS_STATE k)

/-- Link `k` carries frames. -/
def linkActive (s : State) (k : Nat) : Bool := linkState s k == 2 || linkState s k == 3

/-- The up links. -/
def upLinks (s : State) : List Nat := (List.range 4).filter fun k => linkState s k == 3

/-! ### Frames and credits (R419, R421) -/

/-- The pool of a frame TYPE: 0 bulk for TILE and LAYER, 1 control (R421). -/
def poolOf (typ : Nat) : Nat := if typ = 2 ∨ typ = 3 then 0 else 1

/-- The units that a frame takes of its pool (R421). -/
def frameUnits (len : Nat) : Nat := (12 + len + 63) / 64

/-- The buffer units of a pool (R421). -/
def poolLimit (pool : Nat) : Nat := if pool = 0 then 2048 else 128

/-- Units of a pool that link `k` may still use (R421), counted modulo 2^15. -/
def creditsLeft (o : LinkState) (pool : Nat) : Nat :=
  poolLimit pool - (o.consumed.getD pool 0 + 32768 - o.credits.getD pool 0) % 32768

/-- An 8-byte time field (R433). -/
def timeField (ns : Nat) : List Byte := leBytes 8 (ns / 1000000000 % 2 ^ 34 * 2 ^ 30 + ns % 1000000000)

/-- The time that an 8-byte time field holds, in ns. -/
def fieldTime (b : List Byte) : Nat := ofLeBytes b / 2 ^ 30 * 1000000000 + ofLeBytes b % 2 ^ 30

/-- CRL_LINK_CREDIT and UNACKED follow the link's state. -/
def refreshLink (k : Nat) (s : State) : State :=
  let o := s.link k
  let left := fun (pool : Nat) => if linkActive s k then creditsLeft o pool else 0
  let s := (s.wr (R.CRL_LINK_CREDIT_BULK k) (left 0)).wr (R.CRL_LINK_CREDIT_CONTROL k) (left 1)
  s.wr (R.CRL_LINK_STATUS_UNACKED k) o.replay.length

/-- The header of a frame (R419): the pool whose CREDITS it carries, its SEQ, LEN, TYPE and flags. -/
def crlHeader (o : LinkState) (pool seq len typ : Nat) (stale retry : Bool) : List Byte :=
  leBytes 8 (o.freed.getD pool 0 % 32768 * 2 ^ 49 + pool * 2 ^ 48 + o.accepted * 2 ^ 36 + seq * 2 ^ 24 + len * 2 ^ 8
    + b2n stale * 2 ^ 6 + b2n retry * 2 ^ 5 + b2n o.nakDue * 2 ^ 4 + typ)

/-- The pool that the next header reports: one whose count has changed, else the frame's own. -/
def reportPool (o : LinkState) (own : Nat) : Nat :=
  if o.owed.getD 0 false then 0 else if o.owed.getD 1 false then 1 else own

/-- A frame crosses the egress of link `k`: header, payload, and the trailer that the egress check unit appends (R420). -/
def emitFrame (k seq typ : Nat) (payload : List Byte) (stale retry : Bool) (s : State) : State :=
  let o := s.link k
  let pool := reportPool o (poolOf typ)
  let m := crlHeader o pool seq payload.length typ stale retry ++ payload
  let s := chkCompute 2 (49 + k) none m s
  let (m, s) := chkAppend 2 (49 + k) none m s
  let s := s.setLink k { o with nakDue := false, nakSent := o.nakSent || o.nakDue, owed := o.owed.set pool false }
  sendBlocks k m (s.send (.crinusFrame k m))

/-- What a TICK frame has written into it as its start block crosses the pads (R432). -/
def patched (s : State) (f : CrlFrame) : List Byte :=
  if f.patch = 1 then
    let c := ofLeBytes ((f.payload.drop 16).take 4) + (s.monoNs - f.refNs)
    splice f.payload 16 (leBytes 4 (c % 2 ^ 32))
  else if f.patch = 3 then splice f.payload 16 (timeField s.nowNs)
  else f.payload

/-- The delay exchanges open on a link as frame `f` crosses the pads: a DELAY_REQ departs then, a resent one afresh (R432;
log 122). -/
def openedReqs (s : State) (o : LinkState) (f : CrlFrame) : List (Nat × Nat) :=
  if f.patch = 2 then
    let n := ofLeBytes ((f.payload.drop 4).take 4)
    o.openReqs.filter (·.1 != n) ++ [(n, s.monoNs)]
  else o.openReqs

/-- A sequenced frame is sent for the first time (R421, R423). -/
def sendSequenced (k : Nat) (f : CrlFrame) (s : State) : State :=
  let o := s.link k
  let p := patched s f
  let pool := poolOf f.typ
  let f := { f with seq := o.txNext }
  let o := { o with
    txNext := (o.txNext + 1) % 4096
    replay := o.replay ++ [f]
    ackNs := if o.replay.isEmpty then s.monoNs else o.ackNs
    consumed := o.consumed.set pool ((o.consumed.getD pool 0 + frameUnits p.length) % 32768)
    openReqs := openedReqs s o f }
  refreshLink k (emitFrame k f.seq f.typ p false false (s.setLink k o))

/-- A frame of the replay buffer is sent again (R424), with the times of its start block now (R432; log 122), as STALE when it is a
TILE frame past its expiry (R425). -/
def resendFrame (k seq : Nat) (s : State) : State :=
  let o := s.link k
  let o := { o with resend := o.resend.filter (· != seq) }
  match o.replay.find? (·.seq == seq) with
  | none => s.setLink k o
  | some f =>
    let stale := f.stale || f.expiryNs.any fun t => decide (t ≤ s.monoNs)
    let s := s.setLink k { o with openReqs := openedReqs s o f }
    let s := if stale then s.wr (R.CRL_LINK_LATE_STALE k) (satTo 16 (s.rd (R.CRL_LINK_LATE_STALE k) + 1)) else s
    emitFrame k seq f.typ (if stale then [] else patched s f) stale true s

/-- Expired TILE frames that have not been sent are not sent; those in the replay buffer become STALE (R425). -/
def expireTiles (k : Nat) (s : State) : State :=
  let o := s.link k
  let gone := fun (f : CrlFrame) => f.expiryNs.any fun t => decide (t ≤ s.monoNs)
  s.setLink k { o with
    waiting := o.waiting.filter fun f => !gone f
    replay := o.replay.map fun f => if gone f then { f with stale := true } else f }

/-- CRL_TILE_EXPIRY (R425). -/
def crlTileExpiry (k : Nat) (s : State) : State := expireTiles k s

/-- A waiting frame may start: credits, and room among the unacknowledged (R421, R423). -/
def mayStart (o : LinkState) (f : CrlFrame) : Bool :=
  decide (frameUnits f.payload.length ≤ creditsLeft o (poolOf f.typ)) && decide (o.replay.length < 2047)

/-- The first waiting frame of the class list of R423 that may start: control frames by origin, then exports by slot. -/
def pickFrame (o : LinkState) : Option CrlFrame :=
  let rank := fun (f : CrlFrame) => f.cls * 64 + f.slot
  let pick := fun (b : Option CrlFrame) (f : CrlFrame) => match b with
    | none => some f
    | some g => if rank f < rank g then some f else some g
  (o.waiting.filter (mayStart o)).foldl pick none

/-- CRL_FRAME_BOUNDARY: the sender of link `k` takes its next frame (R423). -/
def crlFrameBoundary (k : Nat) (s : State) : State :=
  if linkActive s k then
    let s := expireTiles k s
    let o := s.link k
    match o.resend with
    | q :: _ => resendFrame k q s
    | [] =>
      match pickFrame o with
      | some f => sendSequenced k f (s.setLink k { o with waiting := o.waiting.erase f })
      | none => if o.nakDue || o.owed.any id then emitFrame k o.txNext 6 [] false false s else s
  else s

/-- A frame joins those that wait on link `k`. -/
def queueFrame (k : Nat) (f : CrlFrame) (s : State) : State :=
  let o := s.link k
  s.setLink k { o with waiting := o.waiting ++ [f] }

/-- A frame joins those that wait on every up link but `except`. -/
def flood (except : Option Nat) (f : CrlFrame) (s : State) : State :=
  ((upLinks s).filter fun k => except != some k).foldl (fun s k => queueFrame k f s) s

/-- A DELAY_REQ is due on link `k` (R432, R433). -/
def queueDelayReq (k : Nat) (s : State) : State :=
  let o := s.link k
  let s := s.setLink k { o with reqNum := (o.reqNum + 1) % 2 ^ 32, delayNs := s.monoNs }
  queueFrame k { typ := 1, cls := 0, patch := 2
                 payload := [2, 0, 0, 0] ++ leBytes 4 o.reqNum ++ List.replicate 24 0 } s

/-- CRL_DELAY_TIMER: once a second an up link makes a delay exchange (R432). -/
def crlDelayTimer (k : Nat) (s : State) : State :=
  if linkState s k = 3 ∧ (s.link k).delayNs + 1000000000 ≤ s.monoNs then queueDelayReq k s else s

/-! ### Link-up and link-down (R430) -/

/-- What a link's port map record gives: PEER_ID, CANDIDATE, PRIO (R416). -/
def linkRecord (s : State) (k : Nat) : Nat × Bool × Nat :=
  let b := (s.section_ 2).drop (32 * (49 + k))
  ((b.getD 16 0xFF).toNat, bitOf (b.getD 17 0).toNat 0, (b.getD 18 0).toNat)

/-- The package's candidacy and priority: those of its Crinus records, equal in all of them (R416). -/
def ownClaim (s : State) : Bool × Nat :=
  match (List.range 4).find? fun k => s.rd (R.PORT_CFG_TYPE (49 + k)) == 5 with
  | some k => (linkRecord s k).2
  | none => (false, 0)

/-- The package id. -/
def pkgId (s : State) : Nat := s.rd R.GLB_PKG_PKG_ID

/-- Every lane of the link's port is aligned, and a marker names `peer` as the far package. -/
def linkOpen (k peer : Nat) (s : State) : State :=
  let s := s.wr (R.CRL_LINK_STATUS_PEER_ID k) peer
  let want := (linkRecord s k).1
  if peer = pkgId s then (s.wr (R.CRL_LINK_STATUS_STATE k) 4).raise 0x1403 k
  else if want ≠ 0xFF ∧ want ≠ peer then (s.wr (R.CRL_LINK_STATUS_STATE k) 5).raise 0x1404 k
  else
    let s := (s.wr (R.CRL_LINK_RETRY_REWINDS k) 0).wr (R.CRL_LINK_RETRY_CRC_ERRORS k) 0
    let s := (s.wr (R.CRL_LINK_LATE_STALE k) 0).wr (R.CRL_LINK_LATE_LATE k) 0
    refreshLink k (queueDelayReq k ((s.wr (R.CRL_LINK_STATUS_STATE k) 2).setLink k { ackNs := s.monoNs }))

/-- A REG request ends (R436, R438). -/
def regDone (status : Nat) (s : State) : State :=
  match s.crl.request with
  | none => s
  | some (k, _) =>
    let s := { s with crl := { s.crl with request := none } }
    let s := (s.wr R.CRL_REG_CMD_BUSY 0).wr R.CRL_REG_CMD_STATUS status
    if status = 0 then s else s.raise 0x1409 k

/-- Link `k` goes down (R430): what it held is discarded, and the fault is logged. A REG
request sent on it gets no response any more, and ends under R436. -/
def linkDown (k : Nat) (s : State) : State :=
  let was := linkActive s k
  let s := s.wr (R.CRL_LINK_STATUS_STATE k) (b2n (s.rdb (R.PORT_CFG_ENABLE (49 + k))))
  if was then
    let s := refreshLink k (s.setLink k {})
    let drop := fun (x : ImportState) => if x.filling.any (·.link == k) then
        { x with filling := x.filling.filter (·.link != k), begun := none } else x
    let s := (List.range 64).foldl (fun s i => s.setImport i (drop (s.import_ i))) s
    logFault 0x0E 7 k false (s.raise 0x1402 k)
  else s

/-- The sender goes back to the frame after the last one acknowledged (R424); after 8 rewinds without an advance of ACK the
link goes down instead. -/
def rewind (k : Nat) (s : State) : State :=
  let o := s.link k
  if 8 ≤ o.rewinds then linkDown k s
  else
    let s := s.setLink k { o with resend := o.replay.map CrlFrame.seq, rewinds := o.rewinds + 1, ackNs := s.monoNs }
    s.wr (R.CRL_LINK_RETRY_REWINDS k) (satTo 16 (s.rd (R.CRL_LINK_RETRY_REWINDS k) + 1))

/-- CRL_RETRY_TIMEOUT: the oldest unacknowledged frame has waited RETRY_US (R424). -/
def crlRetryTimeout (k : Nat) (s : State) : State :=
  let o := s.link k
  if linkActive s k && !o.replay.isEmpty
      && decide (o.ackNs + max 1 (s.rd R.CRL_CFG_RETRY_US) * 1000 ≤ s.monoNs)
  then rewind k s else s

/-- ACK, POOL and CREDITS of a header that passed its check (R422, R424). -/
def takeAck (k ack pool credits : Nat) (s : State) : State :=
  let o := s.link k
  let first := (o.replay.headD { typ := 0, cls := 0, payload := [] }).seq
  let n := (ack + 1 + 4096 - first) % 4096
  let o := { o with credits := o.credits.set pool credits }
  let o := if n ≠ 0 ∧ n ≤ o.replay.length then
      { o with
        replay := o.replay.drop n
        resend := o.resend.filter fun q => !(o.replay.take n).any (·.seq == q)
        ackNs := s.monoNs
        rewinds := 0 }
    else o
  refreshLink k (s.setLink k o)

/-! ### Notices of the Warden (R435) -/

/-- The payload of a WARDEN frame of this package. -/
def wardenPayload (s : State) (kind cause : Nat) : List Byte :=
  leBytes 1 kind ++ leBytes 1 (pkgId s) ++ leBytes 1 cause ++ [0] ++ leBytes 4 s.wus ++ leBytes 4 (s.crl.wardenCount % 2 ^ 32)
    ++ [0, 0, 0, 0]

/-- A WARDEN frame goes out on every up link. -/
def wardenNotice (kind cause : Nat) (s : State) : State :=
  let s := { s with crl := { s.crl with wardenCount := s.crl.wardenCount + 1 } }
  flood none { typ := 4, cls := 1, payload := wardenPayload s kind cause } s

/-- The WARM_RESET notice leaves at once on every up link (R435, R509). -/
def warmNotice (s : State) : State :=
  let s := { s with crl := { s.crl with wardenCount := s.crl.wardenCount + 1 } }
  (upLinks s).foldl (fun s k => sendSequenced k { typ := 4, cls := 1, payload := wardenPayload s 2 0 } s) s

/-! ### REG requests (R436) -/

/-- CRL_REG_GO: a write of 1 to CRL_REG_CMD.GO sends the request that the REG registers describe. A GO while a request is
outstanding is ignored; on a link that is not up no frame goes out. -/
def crlRegGo (s : State) : State :=
  if s.rdb R.CRL_REG_CMD_BUSY then s
  else
    let k := s.rd R.CRL_REG_CMD_LINK
    let n := s.rd R.CRL_REG_CMD_COUNT
    let wr := s.rdb R.CRL_REG_CMD_WRITE
    let data := if wr then ((List.range (min 16 n)).map fun i => leBytes 4 (s.rd (R.CRL_REG_DATA_DATA i))).flatten else []
    let p := leBytes 1 (if wr then 2 else 1) ++ leBytes 1 n ++ [0, 0] ++ leBytes 4 (s.rd R.CRL_REG_ADDR_OFFSET) ++ data
    let s := (s.wr R.CRL_REG_CMD_BUSY 1)
    let s := { s with crl := { s.crl with request := some (k, s.monoNs) } }
    if linkState s k = 3 then queueFrame k { typ := 5, cls := 2, payload := p } s else s

/-- CRL_REG_TIMEOUT: a request has had no response for 100 µs (R436). -/
def crlRegTimeout (s : State) : State :=
  match s.crl.request with
  | none => s
  | some (_, t) => if t + 100000 ≤ s.monoNs then regDone 2 s else s

end Sys2Proof.Machine
end

