-- ==== Sys2Proof/Machine/Lanes.lean ====
section
/-!
DEFINITION. The serial lanes (R370 to R391): deep low power, the bring-up of Crinus ports, adaptation and the eye figure,
deskew, test modes, the channel survey.
-/
namespace Sys2Proof.Machine

/-! ### Lanes and ports -/

/-- STATE of lane `n`: 0 OFF, 1 DEEP_LP, 2 WAKING, 3 BLIND, 4 STEP, 5 ADAPT, 6 UP, 7 TEST, 8 STD_TRAIN. -/
def laneState (s : State) (n : Nat) : Nat := s.rd (R.LANE_STATUS_STATE n)

/-- The port of lane `n`, if it is assigned. -/
def lanePort (s : State) (n : Nat) : Option Nat :=
  let p := s.rd (R.LANE_CFG_PORT n)
  if p < 53 then some p else none

/-- The lanes of port `p`, ascending. -/
def lanesOf (s : State) (p : Nat) : List Nat := (List.range 128).filter fun n => s.rd (R.LANE_CFG_PORT n) == p

/-- Port `p` is in use; the PCIe endpoint always is (R370, R511). -/
def portOn (s : State) (p : Nat) : Bool := p == 48 || s.rdb (R.PORT_CFG_ENABLE p)

/-- Lane `n` lies in a powered quadrant. -/
def lanePowered (s : State) (n : Nat) : Bool := s.powered (2 + n / 32)

/-- A test mode that lane `n` offers (R385). -/
def offersMode (s : State) (n mode : Nat) : Bool :=
  match lanePort s n with
  | none => decide (1 ≤ mode ∧ mode ≤ 5)
  | some p => if p < 48 then mode == 1 || mode == 2 else decide (3 ≤ mode ∧ mode ≤ 5)

/-- The test mode in force on lane `n`, 0 for none. -/
def testMode (s : State) (n : Nat) : Nat :=
  let m := s.rd (R.LANE_TEST_MODE n)
  if offersMode s n m then m else 0

/-- Something keeps lane `n` out of the deep low-power state (R383). -/
def laneWanted (s : State) (n : Nat) : Bool :=
  (lanePort s n).any (portOn s) || s.rdb (R.LANE_CTRL_AWAKE n) || testMode s n != 0

/-- LANE_QUAD gives each quadrant's power and its assigned lanes (R390). -/
def refreshQuad (s : State) : State :=
  (List.range 4).foldl (fun s q =>
    let n := ((span (32 * q) 32).filter fun n => (lanePort s n).isSome).length
    s.wr ⟨R.LANE_QUAD_Q0.addr, 8 * q + 7, 8 * q⟩ (b2n (s.powered (2 + q)) * 128 + n)) s

/-- The UP bit of lane `n`. -/
def upBit (n : Nat) : Fld := ⟨(R.LANE_UP_UP (n / 32)).addr, n % 32, n % 32⟩

/-- A lane's transmitter taps (R373). -/
def setTx (n preset pre post : Nat) (s : State) : State :=
  (((s.wr (R.LANE_TXEQ_PRESET n) preset).wr (R.LANE_TXEQ_PRE n) pre).wr (R.LANE_TXEQ_POST n) post).wr
    (R.LANE_TXEQ_MAIN n) (63 - pre - post)

/-- PRE and POST of the Crinus presets (R373). -/
def presetTaps (q : Nat) : Nat × Nat :=
  [(0, 0), (0, 6), (0, 12), (0, 18), (4, 8), (4, 14), (8, 8), (8, 16)].getD q (0, 0)

/-- The start values of a lane's transmitter in the lane map (R372). -/
def startTaps (s : State) (n : Nat) : Nat × Nat :=
  let b := (s.section_ 1).drop (8 * n)
  ((b.getD 4 0).toNat, (b.getD 5 0).toNat)

/-- A lane enters a state in which it is not UP: what belongs to its training is forgotten, what adaptation kept stays. -/
def laneRest (n st rate : Nat) (s : State) : State :=
  let o := s.lane n
  let s := s.setLane n { kept := o.kept, survey := o.survey, eyeLow := o.eyeLow, prbsSeen := o.prbsSeen, adjust := o.adjust }
  let s := (s.wr (R.LANE_STATUS_STATE n) st).wr (R.LANE_STATUS_RATE n) rate
  ((s.wr (R.LANE_STATUS_LOCK n) 0).wr (R.LANE_STATUS_ALIGNED n) 0).wr (upBit n) 0

/-- The MAX_RATE that lane `n` announces (R378): the lower of its own and its port's, after the cap. -/
def ownMax (s : State) (n : Nat) : Nat :=
  let p := s.rd (R.LANE_CFG_PORT n)
  min (min (s.rd (R.LANE_CFG_MAX_RATE n)) (s.rd (R.PORT_CFG_MAX_RATE p))) (s.port p).cap

/-- The training block that lane `n` sends with COUNT `count` (R378): 16 characters. -/
def trainingBlock (s : State) (n count : Nat) : List Byte :=
  let o := s.lane n
  let step := o.sending == 3
  let b := [0xC1, BitVec.ofNat 8 (s.rd (R.LANE_CFG_INDEX n)), BitVec.ofNat 8 o.sending, BitVec.ofNat 8 (ownMax s n),
    BitVec.ofNat 8 (if step then o.target else 0), BitVec.ofNat 8 (if step then count else 0),
    BitVec.ofNat 8 (s.port (s.rd (R.LANE_CFG_PORT n))).attempt] ++ List.replicate 7 0
  0xBC :: b ++ [xorAll b]

/-- The lane training block that lane `n` sends, with PRESET_REQ `req` (R379): the seven bytes after its block type 0x55. -/
def laneBlockBytes (s : State) (n req : Nat) : List Byte :=
  let b := [s.lane n |>.sending, req, s.rd (R.LANE_TXEQ_PRESET n), s.rd (R.LANE_STATUS_EYE n),
    (s.port (s.rd (R.LANE_CFG_PORT n))).attempt, 0].map (BitVec.ofNat 8)
  b ++ [xorAll b]

/-- What lane `n` sends from now on: training blocks in BLIND, 16 of them in STEP, lane training blocks in ADAPT (R378, R379). -/
def sendTraining (n : Nat) (s : State) : State :=
  match laneState s n with
  | 3 => s.send (.trainingBlocks n [trainingBlock s n 0])
  | 4 => s.send (.trainingBlocks n ((List.range 16).map fun i => trainingBlock s n (15 - i)))
  | 5 => s.send (.trainingBlocks n [laneBlockBytes s n (s.lane n).presetReq])
  | _ => s

/-- Lane `n` sends SEEK at rate 0x0 (R378). -/
def laneBlind (n : Nat) (s : State) : State :=
  let s := laneRest n 3 0 s
  let t := startTaps s n
  sendTraining n (setTx n 0xF t.1 t.2 (s.setLane n { s.lane n with sending := 1 }))

/-- LANE_DOWN for the lanes of a list that are UP. -/
def downEvents (s : State) (ns : List Nat) : List (Nat × Nat) :=
  (ns.filter fun n => laneState s n == 6).map fun n => (0x1202, n)

/-- A port's STATE and what goes with it; the quiet windows of the flues it carries are counted up to now (R478). -/
def setPortState (p st rate : Nat) (s : State) : State :=
  let s := (List.range 24).foldl (fun s f => s.when (s.rd (R.CMP_FLUE_CTRL_PORT f) == p) (settleScans f)) s
  (s.wr (R.PORT_STATUS_STATE p) st).wr (R.PORT_STATUS_RATE p) rate

/-- Every lane of Crinus port `p` returns to BLIND (R380, R382), with other events of the moment. -/
def portBlind (p : Nat) (evs : List (Nat × Nat)) (s : State) : State :=
  let ns := (lanesOf s p).filter fun n => decide (3 ≤ laneState s n ∧ laneState s n ≤ 6)
  let evs := evs ++ downEvents s ns
  let wasUp := s.rd (R.PORT_STATUS_STATE p) == 3
  let s := setPortState p 1 0 (ns.foldl (fun s n => laneBlind n s) s)
  let s := s.setPort p { s.port p with deskewed := false }
  let s := (raiseAll evs s).when wasUp (·.raise 0x1302 p)
  linkDown (p - 49) s

/-- The next lower Crinus rate code. -/
def lowerRate (r : Nat) : Nat := if 0xE ≤ r then 0xB else 5

/-- Port `p` falls back (R380). -/
def fallBack (p : Nat) (evs : List (Nat × Nat)) (s : State) : State :=
  let ns := lanesOf s p
  let max := ns.foldl (fun m n => min m (ownMax s n)) 0xF
  let target := ns.foldl (fun m n => Nat.max m (s.lane n).target) 0
  let last := (if target = 0 then max else target) == 5
  let o := s.port p
  let a := (o.attempt + 1) % 256
  let s := s.setPort p { o with attempt := a, cap := if last then o.cap else lowerRate max
                                failNs := if last then some s.monoNs else none }
  let s := ns.foldl (fun s n =>
    let s := (s.wr (R.LANE_STATUS_ATTEMPT n) a).wr (R.LANE_COUNTS_STEP_DOWNS n)
      (satTo 8 (s.rd (R.LANE_COUNTS_STEP_DOWNS n) + 1))
    if last then s.wr (R.LANE_STATUS_TRAIN_FAIL n) 1 else s) s
  portBlind p (evs ++ [(if last then 0x1204 else 0x1203, p)]) s

/-! ### Channel survey (R387, R388) -/

/-- IL_QDB before it saturates: il_db × 4 to the nearest, halves upward. -/
def ilQdb (peak dfe1 rpost : Nat) : Nat := (96 * peak + 5 * dfe1 + 32 * rpost + 10) / 20

/-- For each rate code the lower of the two frequencies of a cable record that L is interpolated between, and the place of
the lane's Nyquist frequency between them on a log scale, in 10^-12 (R388). -/
def nyquistPlace (code : Nat) : Nat × Int :=
  [(0, -1263034405834), (0, -263034405834), (0, -152003093445), (0, 736965594166), (0, 847996906555),
    (1, 187189225409), (1, 339528855083), (1, 354190192706), (1, 602887895329), (1, 639205299285), (1, 957078088036), (2, 6426269159), (2, 192645077942), (2, 880895387076), (2, 1006426269159)].getD code (0, 0)

/-- LEN_DM (R388): 10 × (il_qdb / 4 − connector loss) / L to the nearest, 0 for a negative difference; nothing when L is not
positive, for which the spec states no length. `b` is the cable-type record. -/
def surveyLength (qdb rate : Nat) (b : List Byte) : Option Nat :=
  let loss := fun (i : Nat) => (ofLeBytes ((b.drop (2 * i)).take 2) : Int)
  let (i, t) := nyquistPlace rate
  let l := loss i * 10 ^ 12 + (loss (i + 1) - loss i) * t
  let d := 25 * (qdb : Int) - loss 4
  if d < 0 then some 0
  else if l ≤ 0 then none
  else some ((20 * d * 10 ^ 12 + l) / (2 * l)).toNat

/-- An adapted value lies at a limit of R373 or R374. -/
def atLimit (s : State) (n : Nat) (k : RxKept) : Bool :=
  k.peak == 0 || k.peak == 15 || k.dfe.zipIdx.any (fun x => x.1.natAbs == if x.2 = 0 then 127 else 63)
    || ((lanePort s n).any (49 ≤ ·) && (k.pre == 0 || k.rpost == 0))

/-- The device surveys the channel of lane `n` (R387, R388); a lane that only transmits makes no survey. -/
def surveyNow (n : Nat) (s : State) : Bool × State :=
  let s := s.setLane n { s.lane n with survey := false }
  if (lanePort s n).any fun p => decide (16 ≤ p ∧ p < 40) then
    (false, (s.wr (R.LANE_SURVEY_DONE n) 1).wr (R.LANE_SURVEY_VALID n) 0)
  else
    let k := (s.lane n).kept.getD {}
    let q := satTo 8 (ilQdb k.peak (k.dfe.getD 0 0).natAbs k.rpost)
    let c := s.rd (R.LANE_CFG_CABLE n)
    let b := ((s.section_ 1).drop (1024 + 16 * c)).take 16
    let conn := ofLeBytes ((b.drop 8).take 2)
    let has := decide (c < 8)
    let len := if has then surveyLength q (s.rd (R.LANE_STATUS_RATE n)) b else some 0
    let free := s.freeCount
    let s := if len.isNone then { s with freeCount := free + 1 } else s
    let v := has && decide (conn + 300 ≤ 25 * q) && !atLimit s n k
    let s := (s.wr (R.LANE_SURVEY_DONE n) 1).wr (R.LANE_SURVEY_VALID n) (b2n v)
    let len := match len with | some l => satTo 12 l | none => (Config.freeValue free).toNat
    (true, (s.wr (R.LANE_SURVEY_LEN_DM n) len).wr (R.LANE_SURVEY_IL_QDB n) q)

/-- LANE_SURVEY: a write of 1 to LANE_CTRL.SURVEY takes effect while the lane is UP, or when it next is (R387). -/
def laneSurvey (n : Nat) (s : State) : State :=
  if laneState s n = 6 then
    let (ev, s) := surveyNow n s
    s.when ev (·.raise 0x1208 n)
  else s.setLane n { s.lane n with survey := true }

/-! ### Reaching and leaving UP -/

/-- Lanes reach UP together at a rate (R379, R391), with the surveys that fall due (R387). -/
def lanesUp (ns : List Nat) (rate : Nat) (s : State) : State :=
  let s := ns.foldl (fun s n =>
    let s := ((s.wr (R.LANE_STATUS_STATE n) 6).wr (R.LANE_STATUS_RATE n) rate).wr (R.LANE_STATUS_LOCK n) 1
    let s := (s.wr (R.LANE_STATUS_TRAIN_FAIL n) 0).wr (upBit n) 1
    let s := s.wr (R.LANE_COUNTS_TRAINS n) (satTo 8 (s.rd (R.LANE_COUNTS_TRAINS n) + 1))
    s.setLane n { s.lane n with upNs := s.monoNs, marker := none, lostNs := none }) s
  let due := ns.filter fun n => (s.lane n).adapted || (s.lane n).survey
      || (lanePort s n).any fun p => decide (16 ≤ p ∧ p < 40)
  let (evs, s) := due.foldl (fun (x : List (Nat × Nat) × State) n =>
    let (ev, t) := surveyNow n (x.2.setLane n { x.2.lane n with adapted := false })
    (if ev then x.1 ++ [(0x1208, n)] else x.1, t)) ([], s)
  raiseAll (ns.map (fun n => (0x1201, n)) ++ evs) s

/-- The lanes of a standard's port leave UP for its own training (R377), with LANE_DOWN. -/
def stdLanesDown (p : Nat) (s : State) : State :=
  let ns := (lanesOf s p).filter fun n => laneState s n == 6
  let evs := downEvents s ns
  raiseAll evs (ns.foldl (fun s n => laneRest n 8 (s.rd (R.LANE_STATUS_RATE n)) s) s)

/-- The first `count` lanes of a standard's port reach UP (R377). -/
def stdLanesUp (p rate count : Nat) (s : State) : State :=
  lanesUp ((lanesOf s p).filter fun n => laneState s n == 8 && decide (s.rd (R.LANE_CFG_INDEX n) < count)) rate s

/-! ### Low power (R383) -/

/-- The degree and the other tap of a test pattern (R386). -/
def prbsPoly (pattern : Nat) : Nat × Nat := [(7, 6), (9, 5), (15, 14), (23, 18), (31, 28)].getD pattern (31, 28)

/-- The generator of lane `n` sends its pattern, in modes 1 to 4 (R385, R386). -/
def sendPattern (n : Nat) (s : State) : State :=
  let p := prbsPoly (s.rd (R.LANE_TEST_PATTERN n))
  s.when (decide (1 ≤ testMode s n ∧ testMode s n ≤ 4)) (·.send (.prbs n p.1 p.2 (s.rd (R.LANE_TEST_ERR_EXP n))))

/-- A lane that is awake begins what keeps it awake: a test mode, or its port's training (R377, R378, R385). -/
def laneStart (n : Nat) (s : State) : State :=
  if testMode s n ≠ 0 then sendPattern n (laneRest n 7 (s.rd (R.LANE_TEST_TEST_RATE n)) s)
  else
    match lanePort s n with
    | some p =>
      if portOn s p = false then s
      else if 49 ≤ p then laneBlind n s
      else
        let t := startTaps s n
        (if 40 ≤ p ∧ p < 48 then setTx n 0xF t.1 t.2 s else s) |> laneRest n 8 0
    | none => s

/-- A lane whose reason to sleep has ended begins to wake; one that is awake without work begins it (R383). -/
def laneWake (n : Nat) (s : State) : State :=
  if lanePowered s n && laneWanted s n then
    if laneState s n = 1 then (s.setLane n { s.lane n with wakeNs := some s.monoNs }).wr (R.LANE_STATUS_STATE n) 2
    else if laneState s n = 2 ∧ (s.lane n).wakeNs = none then laneStart n s else s
  else s

/-- LANE_DEEP_LP_ENTRY (R383, R389). -/
def laneDeepLpEntry (n : Nat) (s : State) : State :=
  if lanePowered s n && !laneWanted s n && decide (2 ≤ laneState s n) then laneRest n 1 0 s else s

/-- LANE_WAKE_DONE: 40 µs after the cause ended the lane leaves the deep low-power state (R383). -/
def laneWakeDone (n : Nat) (s : State) : State :=
  match (s.lane n).wakeNs with
  | some t =>
    if laneState s n = 2 ∧ t + 40000 ≤ s.monoNs then
      let s := s.setLane n { s.lane n with wakeNs := none }
      laneStart n (s.wr (R.LANE_COUNTS_LP_EXITS n) (satTo 8 (s.rd (R.LANE_COUNTS_LP_EXITS n) + 1)))
    else s
  | none => s

/-- After a commit the lanes that have something to do wake. -/
def lanesTickEdge (s : State) : State := (List.range 128).foldl (fun s n => laneWake n s) s

/-! ### Injected bit errors (R250) -/

/-- Bit errors that injection puts into the last `bits` bits that lane `n` has received: one ends each run of 2^EXP bits since
INJ_LANE was written (R250; log 120). -/
def laneErrors (s : State) (n bits : Nat) : Nat :=
  if s.rdb R.INJ_LANE_ENABLE && s.rd R.INJ_LANE_LANE == n then
    let run := 2 ^ min 40 (max 10 (s.rd R.INJ_LANE_EXP))
    let got := (s.monoNs - s.inj.laneNs) * rateKbps (s.rd (R.LANE_STATUS_RATE n)) / 1000000
    got / run - (got - bits) / run
  else 0

/-- The errors so put into the last `bits` bits of each lane of port `p`. -/
def portErrors (s : State) (p bits : Nat) : Nat := ((lanesOf s p).map fun n => laneErrors s n bits).sum

/-! ### Bring-up of a Crinus port (R378 to R380) -/

/-- A training block of R378 is valid. -/
def validBlock (c : List Byte) : Bool :=
  c.length == 16 && c.getD 0 0 == 0xBC && c.getD 1 0 == 0xC1 && decide ((c.getD 2 0).toNat < 4)
    && decide (1 ≤ (c.getD 3 0).toNat ∧ (c.getD 3 0).toNat ≤ 4)
    && ((c.drop 8).take 7).all (· == 0) && c.getD 15 0 == xorAll ((c.drop 1).take 14)

/-- Every lane of the port satisfies a condition. -/
def allLanes (s : State) (p : Nat) (f : Nat → Bool) : Bool := (lanesOf s p).all f

/-- Once every lane is locked, each sends READY; once every lane has received READY for 8 blocks, each computes TARGET and
sends its STEP blocks (R379). -/
def advanceBlind (p : Nat) (s : State) : State :=
  let ns := lanesOf s p
  let s := if allLanes s p fun n => laneState s n == 3 && s.rdb (R.LANE_STATUS_LOCK n) && (s.lane n).sending == 1
    then setPortState p 2 0 (ns.foldl (fun s n => sendTraining n (s.setLane n { s.lane n with sending := 2 })) s) else s
  if allLanes s p fun n => laneState s n == 3 && (s.lane n).sending == 2 && decide (8 ≤ (s.lane n).readyRun) then
    ns.foldl (fun s n =>
      let t := min (ownMax s n) (s.lane n).peerMax
      sendTraining n ((s.setLane n { s.lane n with sending := 3, target := t }).wr (R.LANE_STATUS_STATE n) 4)) s
  else s

/-- TRAINING_BLOCK_RECEIVED (R378 to R380). -/
def trainingBlockReceived (n : Nat) (c : List Byte) (s : State) : State :=
  match lanePort s n with
  | none => s
  | some p =>
    let st := laneState s n
    let o := s.lane n
    if p < 49 ∨ st < 3 ∨ 6 < st then s
    else if validBlock c = false ∨ laneErrors s n 160 ≠ 0 then if st = 3 then s.setLane n { o with valid := 0, readyRun := 0 } else s
    else
      let state := (c.getD 3 0).toNat
      if state = 4 then fallBack p [] s
      else if 5 ≤ st then if state = 1 then portBlind p [] s else s
      else if (s.port p).failNs.isSome then s
      else
        let ix := (c.getD 2 0).toNat
        let o := { o with
          valid := o.valid + 1
          readyRun := if state = 2 then o.readyRun + 1 else if state = 1 then 0 else o.readyRun
          peerMax := (c.getD 4 0).toNat
          firstStepNs := if state = 3 ∧ o.firstStepNs = none then some s.monoNs else o.firstStepNs
          rxAt := o.rxAt || (state == 3 && c.getD 6 0 == 0) }
        let s := s.setLane n o
        let taken := (lanesOf s p).any fun m => m != n && s.rdb (R.LANE_STATUS_LOCK m) && s.rd (R.LANE_SKEW_PEER_INDEX m) == ix
        let s := if o.valid < 8 ∨ taken = true ∨ s.rdb (R.LANE_STATUS_LOCK n) = true then s
          else (s.wr (R.LANE_STATUS_LOCK n) 1).wr (R.LANE_SKEW_PEER_INDEX n) ix
        advanceBlind p s

/-- STEP_TX_SWITCH: lane `n` has sent its 16 STEP blocks (R379). -/
def stepTxSwitch (n : Nat) (s : State) : State :=
  let o := s.lane n
  let p := s.rd (R.LANE_CFG_PORT n)
  if laneState s n = 4 ∧ o.txAt = false then
    let first := allLanes s p fun m => !(s.lane m).txAt
    let s := s.setLane n { o with txAt := true }
    let s := s.wr (R.LANE_STATUS_RATE n) o.target
    if first then s.setPort p { s.port p with switchNs := s.monoNs } else s
  else s

/-- STEP_RX_TIMEOUT: 16 block times of 128 ns after its first STEP block, a receiver that missed COUNT 0 switches (R379). -/
def stepRxTimeout (n : Nat) (s : State) : State :=
  let o := s.lane n
  match o.firstStepNs with
  | some t => if laneState s n = 4 ∧ t + 2048 ≤ s.monoNs then s.setLane n { o with rxAt := true } else s
  | none => s

/-- PLL_RELOCK_DONE: the PLL of lane `n` has relocked at the target rate, and adaptation begins (R371, R379). -/
def pllRelockDone (n : Nat) (s : State) : State :=
  let o := s.lane n
  if laneState s n = 4 && o.txAt && o.rxAt then
    sendTraining n ((s.setLane n { o with sending := 5, readyIn := false, presetReq := 0 }).wr (R.LANE_STATUS_STATE n) 5)
  else s

/-- When every lane of the port is trained, the lanes enter UP (R379). -/
def checkTrained (p : Nat) (s : State) : State :=
  if allLanes s p fun n => laneState s n == 5 && (s.lane n).sending == 2 && (s.lane n).readyIn then
    let ns := lanesOf s p
    let rate := ns.foldl (fun m n => Nat.max m (s.lane n).target) 0
    lanesUp ns rate (s.setPort p { s.port p with deskewed := false })
  else s

/-- LANE_TRAINING_BLOCK: a lane training block of R379: STATE, PRESET_REQ, PRESET_NOW, EYE, ATTEMPT, zero, XOR. -/
def laneTrainingBlock (n : Nat) (b : List Byte) (s : State) : State :=
  let p := s.rd (R.LANE_CFG_PORT n)
  if laneState s n ≠ 5 ∨ b.length ≠ 7 ∨ b.getD 5 0 ≠ 0 ∨ b.getD 6 0 ≠ xorAll (b.take 6) ∨ laneErrors s n 66 ≠ 0 then s
  else
    let req := (b.getD 1 0).toNat
    let s := if req < 8 then sendTraining n (setTx n req (presetTaps req).1 (presetTaps req).2 s) else s
    if b.getD 0 0 = 4 then fallBack p [] s
    else if b.getD 0 0 = 2 then checkTrained p (s.setLane n { s.lane n with readyIn := true })
    else s

/-- The place of the largest of the values, the lowest on a tie. -/
def bestOf (l : List Nat) : Nat :=
  ((l.zipIdx).foldl (fun (b : Nat × Nat) x => if b.1 < x.1 then x else b) (l.headD 0, 0)).2

/-- POST for a pre-emphasis level of DisplayPort (R403). -/
def levelPost (l : Nat) : Nat := [0, 10, 16, 21].getD l 0

/-- PRE and POST for a 128b/132b FFE preset: the nearest whole codes to the preset's values in DP 2.1, which the spec does not
list (R403). UNVERIFIED (log 21). -/
def ffeTaps (q : Nat) : Nat × Nat :=
  let v := (Config.dpPreset q).toNat
  (v % 16, v / 16 % 25)

/-- The rates that DisplayPort codes in 128b/132b. -/
def is128 (rate : Nat) : Bool := rate == 8 || rate == 0xA

/-- The post-cursor of the partner's transmitter that the device knows (R387), for preset or level `q`. -/
def knownPost (s : State) (n q : Nat) (a : Adapt) : Nat :=
  match lanePort s n with
  | some p =>
    if 49 ≤ p then (presetTaps q).2
    else if p = 48 then a.rpost
    else if p < 16 then (if is128 (s.rd (R.LANE_STATUS_RATE n)) then (ffeTaps q).2 else levelPost q)
    else 0
  | none => 0

/-- The final PEAK and E of an adaptation (R376): the first sweep, the presets, then two codes on each side. -/
def adaptChoice (usePresets : Bool) (a : Adapt) : Nat × Nat × Nat :=
  let pk := bestOf a.peakEyes
  let q := if usePresets then bestOf a.presetEyes else 0
  let e := if usePresets then a.presetEyes.getD q 0 else a.peakEyes.getD pk 0
  let side := fun (ok : Bool) (i c : Nat) => if ok then [(a.sweepEyes.getD i 0, c)] else []
  let cands := side (decide (2 ≤ pk)) 0 (pk - 2) ++ side (decide (1 ≤ pk)) 1 (pk - 1) ++ [(e, pk)]
    ++ side (decide (pk + 1 ≤ 15)) 2 (pk + 1) ++ side (decide (pk + 2 ≤ 15)) 3 (pk + 2)
  let best := cands.foldl (fun (b : Nat × Nat) x => if b.1 < x.1 then x else b) (cands.headD (0, 0))
  (best.2, q, best.1)

/-- A signed value as a byte of two's complement. -/
def twos8 (v : Int) : Nat := (v.emod 256).toNat

/-- ADAPTATION_DONE: initial adaptation of lane `n` ends (R376, R379). -/
def adaptationDone (n : Nat) (a : Adapt) (s : State) : State :=
  let st := laneState s n
  let p := s.rd (R.LANE_CFG_PORT n)
  let o := s.lane n
  if (st = 5 ∧ o.sending = 5) ∨ st = 8 then
    let (pk, q, e) := adaptChoice (st == 5 || decide (p < 16)) a
    let s := (s.wr (R.LANE_RXEQ_PEAK n) pk).wr (R.LANE_RXEQ_DC_GAIN n) a.dcGain
    let s := (s.wr (R.LANE_RXEQ_DFE1 n) (twos8 (a.dfe.getD 0 0))).wr (R.LANE_DFE_DFE2 n) (twos8 (a.dfe.getD 1 0))
    let s := (s.wr (R.LANE_DFE_DFE3 n) (twos8 (a.dfe.getD 2 0))).wr (R.LANE_DFE_DFE4 n) (twos8 (a.dfe.getD 3 0))
    let s := (s.wr (R.LANE_DFE_DFE5 n) (twos8 (a.dfe.getD 4 0))).wr (R.LANE_STATUS_EYE n) (satTo 8 e)
    let k : RxKept := { peak := pk, dcGain := a.dcGain, dfe := a.dfe, rpost := knownPost s n q a, pre := (presetTaps q).1 }
    let s := s.setLane n { o with kept := some k, adapted := true, presetReq := q, adjust := q }
    if st = 8 then s
    else
      let s := s.send (.trainingBlocks n ((span 1 7).map (laneBlockBytes s n)))
      if s.rd R.LANE_TRAIN_CFG_EYE_MIN ≤ e then checkTrained p (sendTraining n (s.setLane n { s.lane n with sending := 2 }))
      else fallBack p [] (sendTraining n (s.setLane n { s.lane n with sending := 4 }))
  else s

/-- LANE_TRAIN_TIMEOUT: the lanes are not all trained within 6 ms of the switch (R380). -/
def laneTrainTimeout (p : Nat) (s : State) : State :=
  let ns := lanesOf s p
  if ns.any (fun n => (laneState s n == 4 || laneState s n == 5) && (s.lane n).txAt)
      && decide ((s.port p).switchNs + 6000000 ≤ s.monoNs)
  then fallBack p [] s else s

/-- LANE_RETRY_RESTART: RETRY_S after a training failure the whole sequence restarts without a cap (R380). -/
def laneRetryRestart (p : Nat) (s : State) : State :=
  let o := s.port p
  match o.failNs with
  | some t =>
    if t + max 1 (s.rd R.LANE_TRAIN_CFG_RETRY_S) * 1000000000 ≤ s.monoNs then
      let ns := (lanesOf s p).filter fun n => laneState s n == 3
      ns.foldl (fun s n => laneBlind n s) (s.setPort p { o with failNs := none, cap := 0xF })
    else s
  | none => s

/-! ### Deskew and alignment (R381, R382) -/

/-- A time of `k` marker periods at rate code `r` has passed since `t`: 16,384 blocks of 66 bits each. -/
def periodsPassed (s : State) (r k t : Nat) : Bool :=
  decide (k * 16384 * 66 * 1000000 ≤ (s.monoNs - t) * rateKbps r)

/-- A valid alignment marker (R418). -/
def validMarker (b : List Byte) : Bool :=
  b.length == 7 && b.getD 0 0 == 0xC5 && b.getD 5 0 == 0x5A && b.getD 6 0 == xorAll (b.take 6)

/-- The largest skew that the deskew buffer takes, in UI. -/
def maxSkewUi : Nat := 48 * 66

/-- Every lane of the port is aligned: the skews are set, or deskew fails (R381); the port is UP and the link reads its peer's
id (R430). -/
def portAligned (p peer : Nat) (s : State) : State :=
  let ns := lanesOf s p
  let ui := fun (n : Nat) => (((s.lane n).marker.getD (0, 0)).2)
  let last := ns.foldl (fun m n => Nat.max m (ui n)) 0
  if ns.any fun n => decide (maxSkewUi < last - ui n) then fallBack p [(0x1205, p)] s
  else
    let s := ns.foldl (fun s n => s.wr (R.LANE_SKEW_SKEW_UI n) (last - ui n)) s
    let s := s.setPort p { s.port p with deskewed := true }
    let rate := ns.foldl (fun m n => Nat.max m (s.rd (R.LANE_STATUS_RATE n))) 0
    let s := if s.rd (R.PORT_STATUS_STATE p) = 3 then s
      else
        let s := (setPortState p 3 rate s).wr (R.PORT_STATUS_LANES p) 2
        (s.wr (R.PORT_STATUS_TRAINS p) (satTo 16 (s.rd (R.PORT_STATUS_TRAINS p) + 1))).raise 0x1301 p
    let s := s.wr (R.CRL_LINK_STATUS_RATE (p - 49)) rate
    if linkState s (p - 49) = 1 then linkOpen (p - 49) peer s else s

/-- ALIGNMENT_MARKER: a marker arrives on lane `n` at block `pos`, `ui` unit intervals after the port's time zero (R381,
R418). -/
def alignmentMarker (n : Nat) (b : List Byte) (pos ui : Nat) (s : State) : State :=
  let p := s.rd (R.LANE_CFG_PORT n)
  let o := s.lane n
  if laneState s n ≠ 6 ∨ p < 49 ∨ 53 ≤ p ∨ validMarker b = false ∨ (b.getD 1 0).toNat ≠ s.rd (R.LANE_SKEW_PEER_INDEX n)
      ∨ laneErrors s n 66 ≠ 0 then s
  else
    let again := o.marker.any fun m => m.1 + 16384 == pos
    let s := s.setLane n { o with marker := some (pos, ui), markNs := s.monoNs, lostNs := if again then none else o.lostNs }
    let s := if again then s.wr (R.LANE_STATUS_ALIGNED n) 1 else s
    if again && allLanes s p fun m => s.rdb (R.LANE_STATUS_ALIGNED m) then
      if (s.port p).deskewed ∧ linkState s (p - 49) ≠ 1 then s else portAligned p ((b.getD 2 0).toNat % 8) s
    else s

/-- LANE_DESKEW_FAIL: a lane is not aligned within 3 marker periods of entering UP (R381). -/
def laneDeskewFail (p : Nat) (s : State) : State :=
  let ns := lanesOf s p
  if !(s.port p).deskewed && ns.any fun n => laneState s n == 6 && !s.rdb (R.LANE_STATUS_ALIGNED n)
      && periodsPassed s (s.rd (R.LANE_STATUS_RATE n)) 3 (s.lane n).upNs
  then fallBack p [(0x1205, p)] s else s

/-- LANE_ALIGN_LOST: no valid marker came at 3 consecutive expected positions (R382). -/
def laneAlignLost (n : Nat) (s : State) : State :=
  let o := s.lane n
  if laneState s n = 6 && s.rdb (R.LANE_STATUS_ALIGNED n) && periodsPassed s (s.rd (R.LANE_STATUS_RATE n)) 3 o.markNs then
    let s := s.setLane n { o with marker := none, lostNs := some s.monoNs }
    let s := s.wr (R.LANE_COUNTS_ALIGN_LOST n) (satTo 8 (s.rd (R.LANE_COUNTS_ALIGN_LOST n) + 1))
    (s.wr (R.LANE_STATUS_ALIGNED n) 0).raise 0x1206 n
  else s

/-- LANE_REALIGN_TIMEOUT: 4 marker periods after losing alignment the port returns to BLIND, without lowering the cap
(R382). -/
def laneRealignTimeout (n : Nat) (s : State) : State :=
  match (s.lane n).lostNs, lanePort s n with
  | some t, some p =>
    if laneState s n = 6 && decide (49 ≤ p) && periodsPassed s (s.rd (R.LANE_STATUS_RATE n)) 4 t then portBlind p [] s else s
  | _, _ => s

/-! ### The eye (R375) -/

/-- The eye figure of R375: `v` in units of 2 mV, `h` in 1/64 UI. -/
def eyeFigure (v h : Nat) : Nat := 255 * min v 80 * min h 32 / 2560

/-- LANE_EYE_REFRESH (R375, R391). -/
def laneEyeRefresh (n v h : Nat) (s : State) : State :=
  if laneState s n = 6 then
    let e := eyeFigure v h
    let warn := s.rd (R.LANE_CTRL_EYE_WARN n)
    let s := ((s.wr (R.LANE_EYE_V n) v).wr (R.LANE_EYE_H n) h).wr (R.LANE_EYE_EYE n) e
    let s := s.wr (R.LANE_STATUS_EYE n) e
    let o := s.lane n
    if e < warn then (s.setLane n { o with eyeLow := true }).when (!o.eyeLow) (·.raise 0x1207 n)
    else s.setLane n { o with eyeLow := o.eyeLow && decide (e < warn + 8) }
  else s

/-! ### Test modes (R385, R386) -/

/-- A write of word `w` to the fields of LANE_TEST of lane `n` that mask `t` touches. While the lane belongs to an enabled port
the fields are run-locked (R226). A mode offered wakes the lane into the test; MODE 0 ends it. -/
def laneTestTouched (t n w : Nat) (s : State) : State :=
  let a := (R.LANE_TEST_MODE n).addr
  let runs := blockRuns s a
  let s := applyTouched t a w s
  if runs then s
  else
    let s := s.setLane n { s.lane n with prbsSeen := false, prbsBits := 0, lockNs := none }
    let s := (s.wr (R.LANE_PRBS_ERR_ERRORS n) 0).wr (R.LANE_TEST_PRBS_LOCK n) 0
    if testMode s n ≠ 0 then
      if laneState s n = 7 then sendPattern n (s.wr (R.LANE_STATUS_RATE n) (s.rd (R.LANE_TEST_TEST_RATE n))) else laneWake n s
    else if s.rd (R.LANE_TEST_MODE n) = 0 ∧ laneState s n = 7 then
      if s.rdb (R.LANE_CTRL_AWAKE n) then laneRest n 2 0 s else laneRest n 1 0 s
    else s

/-- LANE_TEST_MODE_WRITE: a write of word `w` to LANE_TEST of lane `n` (R385). -/
def laneTestModeWrite (n w : Nat) (s : State) : State := laneTestTouched allBits n w s

/-- The checker of lane `n` runs: modes 1, 3 and 4 (R385). -/
def checkerRuns (s : State) (n : Nat) : Bool := laneState s n == 7 && [1, 3, 4].contains (testMode s n)

/-- PRBS_LOCK (R386). -/
def prbsLock (n : Nat) (s : State) : State :=
  if checkerRuns s n && !s.rdb (R.LANE_TEST_PRBS_LOCK n) then
    (s.setLane n { s.lane n with lockNs := some s.monoNs }).wr (R.LANE_TEST_PRBS_LOCK n) 1
  else s

/-- PRBS_LOCK_LOST (R386). -/
def prbsLockLost (n : Nat) (s : State) : State :=
  if s.rdb (R.LANE_TEST_PRBS_LOCK n) then
    (s.setLane n { s.lane n with prbsBits := prbsBits s n, lockNs := none }).wr (R.LANE_TEST_PRBS_LOCK n) 0
  else s

/-- PRBS_ERROR: a locked checker finds an error (R386). -/
def prbsError (n : Nat) (s : State) : State :=
  if s.rdb (R.LANE_TEST_PRBS_LOCK n) then
    let o := s.lane n
    let s := s.wr (R.LANE_PRBS_ERR_ERRORS n) (satTo 32 (s.rd (R.LANE_PRBS_ERR_ERRORS n) + 1))
    (s.setLane n { o with prbsSeen := true }).when (!o.prbsSeen) (·.raise 0x1209 n)
  else s

/-- LANE_ERR_ONE: a write of 1 to ERR_ONE inverts one bit that the generator sends (R386), which the checker finds in the near-end
loopbacks (R385). -/
def laneErrOne (n : Nat) (s : State) : State :=
  if laneState s n = 7 ∧ 1 ≤ testMode s n ∧ testMode s n ≤ 4 then
    (s.send (.bitFlip n)).when (decide (3 ≤ testMode s n)) (prbsError n)
  else s

/-- Errors of ERR_EXP in a near-end loopback, and of INJ_LANE, that the locked checker of lane `n` meets in the last `ns` ns (R386,
R389; log 120). -/
def testErrors (s : State) (n ns : Nat) : Nat :=
  let run (e : Nat) : Nat := 2 ^ min 40 (max 10 e)
  let upTo (t0 now e : Nat) : Nat := (now - t0) * rateKbps (s.rd (R.LANE_STATUS_RATE n)) / 1000000 / run e
  let within (t0 e : Nat) : Nat := upTo t0 s.monoNs e - upTo t0 (s.monoNs - ns) e
  match (s.lane n).lockNs with
  | none => 0
  | some t =>
    (if s.rd (R.LANE_TEST_ERR_EXP n) ≠ 0 ∧ (testMode s n = 3 ∨ testMode s n = 4) then within t (s.rd (R.LANE_TEST_ERR_EXP n)) else 0)
      + if s.rdb R.INJ_LANE_ENABLE ∧ s.rd R.INJ_LANE_LANE = n then within s.inj.laneNs (s.rd R.INJ_LANE_EXP) else 0

/-- The checkers that are locked count the errors of the last `ns` ns. -/
def countErrors (ns : Nat) (s : State) : State :=
  (s.lanes.filter fun p => p.2.lockNs.isSome).foldl (fun s p =>
    (List.range (testErrors s p.1 ns)).foldl (fun s _ => prbsError p.1 s) s) s

/-! ### Power of the quadrants (R384, R514) -/

/-- Quadrant `q` has power: its lanes are in the deep low-power state (R384). -/
def quadrantOn (q : Nat) (s : State) : State :=
  refreshQuad ((span (32 * q) 32).foldl (fun s n => if laneState s n = 0 then s.wr (R.LANE_STATUS_STATE n) 1 else s) s)

/-- Quadrant `q` has lost its power: its lanes read OFF, those that were UP with LANE_DOWN, and its Crinus link goes down. -/
def quadrantOff (q : Nat) (s : State) : State :=
  let ns := span (32 * q) 32
  let evs := downEvents s ns
  let crinus := ns.any fun n => laneState s n == 6 && (lanePort s n).any (49 ≤ ·)
  let s := ns.foldl (fun s n => laneRest n 0 0 s) s
  refreshQuad ((raiseAll evs s).when crinus (linkDown q))

end Sys2Proof.Machine
end

