-- ==== Sys2Proof/Machine/Ports.lean ====
section
/-!
DEFINITION. DisplayPort, Ethernet and PCIe ports (R91, R95, R392 to R415): sinks and their capture, sources and their
training, what an Ethernet port accepts and answers, memberships, links that come up and go down.
-/
namespace Sys2Proof.Machine

/-- The LANES code of a lane count. -/
def lanesCode (n : Nat) : Nat := if n = 1 then 0 else if n = 2 then 1 else 2

/-- A lane count from its code. -/
def lanesNum (c : Nat) : Nat := [1, 2, 4].getD c 4

/-- A port's link comes up (R415). -/
def portComesUp (p rate lanes : Nat) (s : State) : State :=
  let s := ((setPortState p 3 rate s).wr (R.PORT_STATUS_LANES p) (lanesCode lanes)).wr (R.PORT_STATUS_PARTNER p) 1
  (s.wr (R.PORT_STATUS_TRAINS p) (satTo 16 (s.rd (R.PORT_STATUS_TRAINS p) + 1))).raise 0x1301 p

/-- A port's link leaves UP, other than through a disable or a reload (R415). -/
def portLeavesUp (p st : Nat) (s : State) : State :=
  if s.rd (R.PORT_STATUS_STATE p) = 3 then (setPortState p st 0 (stdLanesDown p s)).raise 0x1302 p else s

/-! ### DisplayPort sinks (R91, R95, R397 to R399) -/

/-- The start of active video has stayed within ±2 µs of a fixed offset from the tick edge over the last 8 frames (R414). -/
def sinkGenlock (period : Nat) (starts : List Nat) : Bool :=
  match starts with
  | [] => false
  | a :: _ =>
    let p : Int := (max 1 period : Nat)
    let es := starts.map fun (o : Nat) => let d := ((o : Int) - a).emod p; if p < 2 * d then d - p else d
    decide (8 ≤ starts.length) && decide (es.foldl max 0 - es.foldl min 0 ≤ 4000)

/-- A stream that a sink supports: its raster and pixel rate in the ranges of R396, its layout one of the capture ring's (R399), and
everything else about it, SST and the transport, listed too. -/
def rasterSupported (x : Raster) : Bool :=
  x.supported && decide (640 ≤ x.hActive ∧ x.hActive ≤ 4096 ∧ 480 ≤ x.vActive ∧ x.vActive ≤ 2304)
    && decide (x.hTotal * x.vTotal * 1000 ≤ 1350 * x.periodNs) && decide (x.fmt ≤ 8)

/-- SINK_FRAME_START: the first active pixel of a frame arrives, of a stream with raster `x` (R95, R396, R399). -/
def sinkFrameStart (k : Nat) (x : Raster) (s : State) : State :=
  if portUp s k = false then s
  else
    let o := s.port k
    let stable := if o.raster = some x then o.stable + 1 else 1
    let capt := rasterSupported x && (o.capturing || decide (3 ≤ stable))
    let key := sourceKey 1 k
    let src := s.source key
    let starts := ((s.nowNs - s.tick.lastEdgeNs) :: src.starts).take 8
    let fill := capt && !captureStopped s k
    let s := s.setPort k { o with raster := some x, stable, capturing := capt, unsup := !rasterSupported x }
    let b := ringBuffer s key []
    let s := s.setSource key { src with
      filling := if fill then some s.wus else none, fillNs := s.monoNs, starts, sinceUnder := min 8 (src.sinceUnder + 1)
      writing := if fill then b else src.writing, ring := if fill then src.ring.set b 0 else src.ring }
    let s := ((s.wr (R.PORT_SINK_TOTAL_V_TOTAL k) x.vTotal).wr (R.PORT_SINK_TOTAL_H_TOTAL k) x.hTotal).wr
      (R.PORT_SINK_ACTIVE_V_ACTIVE k) x.vActive
    let s := ((s.wr (R.PORT_SINK_ACTIVE_H_ACTIVE k) x.hActive).wr (R.PORT_SINK_PERIOD_PERIOD_NS k) x.periodNs).wr
      (R.PORT_SINK_FMT_SIGNAL k) (b2n capt)
    let s := ((s.wr (R.PORT_SINK_FMT_GENLOCK k) (b2n (sinkGenlock (s.rd R.TICK_PERIOD_NS_PERIOD) starts))).wr
      (R.PORT_SINK_FMT_FORMAT k) x.fmt).wr (R.PORT_SINK_FMT_COLORIMETRY k) x.colorimetry
    let s := (s.wr (R.PORT_SINK_FMT_LIMITED k) (b2n x.limited)).wr (R.PORT_SINK_FMT_AUDIO_CH k) x.audioCh
    refreshDirect (s.when (!rasterSupported x && !(o.unsup && o.raster == some x)) (·.raise 0x1305 k))

/-- CAPTURE_FRAME_COMPLETE: the last active line of the frame is in the capture ring (R91, R93, R399); `px` is the frame in
the ring's layout, lines unpadded. -/
def captureFrameComplete (k : Nat) (px : List Byte) (s : State) : State :=
  let key := sourceKey 1 k
  let src := s.source key
  match src.filling, (s.port k).raster with
  | some stamp, some x =>
    if portUp s k then
      let fr : Frame := { serial := s.comp.serial, stamp, w := x.hActive, h := x.vActive, fmt := x.fmt, bytes := px }
      let s := s.setSource key { src with filling := none, ring := src.ring.set src.writing fr.serial }
      let s := { s with comp := { s.comp with serial := s.comp.serial + 1 } }
      chkComputeSince 5 k src.fillNs px (completeSource key fr s)
    else s
  | _, _ => s

/-- The frame being captured never completes. -/
def stopCapture (k : Nat) (s : State) : State :=
  let key := sourceKey 1 k
  (s.setSource key { s.source key with filling := none, starts := [] }).wr (R.PORT_SINK_FMT_SIGNAL k) 0

/-- SINK_LINK_LOSS: `kind` 0 loss of signal, 1 loss of lock or symbol alignment, 2 a change of timing in mid-frame (R397, R399). -/
def sinkLinkLoss (k kind : Nat) (s : State) : State :=
  if portUp s k = false then s
  else
    let s := stopCapture k s
    let s := (s.wr (R.PORT_SINK_FMT_GENLOCK k) 0).setPort k { s.port k with capturing := false, stable := 0 }
    let s := if kind = 1 then s.send (.hpdIrq k) else s
    let s := if kind = 0 then s.wr (R.PORT_STATUS_PARTNER k) 0 else s
    (if kind = 2 then s else portLeavesUp k (if kind = 0 then 1 else 2) s).raise 0x1304 k

/-- The EDID bytes of a sink (R393). -/
def sinkEdid (s : State) (k : Nat) : List Byte :=
  let b := s.section_ 2
  let n := (b.getD (32 * k + 10) 0).toNat
  (b.drop (ofLeBytes ((b.drop (32 * k + 12)).take 4))).take (128 * n)

/-- The DPCD of a sink: the receiver capability fields report MAX_RATE and LANES (R397), ADJUST_REQUEST the levels of R398, the
lane status the lanes, and the rest what the source has written. The addresses are DisplayPort's. PRESUMED (log 20). -/
def dpcdByte (s : State) (k a : Nat) : Byte :=
  let rate := s.rd (R.PORT_CFG_MAX_RATE k)
  let lanes := lanesNum (s.rd (R.PORT_CFG_LANES k))
  let lane := fun (i : Nat) => (lanesOf s k).find? fun n => s.rd (R.LANE_CFG_INDEX n) == i
  let ok := fun (i : Nat) => b2n ((lane i).any fun n => laneState s n == 6) * 7
  let adj := fun (i : Nat) => match lane i with
    | some n => if is128 (s.rd (R.LANE_STATUS_RATE n)) then (s.lane n).adjust % 16 else 1 + (s.lane n).adjust % 4 * 4
    | none => 0
  BitVec.ofNat 8 (match a with
    | 0x000 => 0x14
    | 0x001 => if rate = 2 then 0x06 else if rate = 4 then 0x0A else 0x1E
    | 0x002 => 0xC0 + lanes
    | 0x003 => 0x80
    | 0x202 => ok 0 + 16 * ok 1
    | 0x203 => ok 2 + 16 * ok 3
    | 0x204 => b2n (portUp s k)
    | 0x206 => adj 0 + 16 * adj 1
    | 0x207 => adj 2 + 16 * adj 3
    | 0x2215 => if rate = 8 then 1 else if rate = 0xA then 5 else 0
    | _ => ((s.port k).dpcd.get (fun _ => 0) a).toNat)

/-- AUX_REQUEST: a sink that drives HPD answers an AUX transaction: EDID at I2C address 0x50 with the segment pointer at 0x30,
every other I2C address NACK, and the DPCD (R397). -/
def auxRequest (k : Nat) (q : AuxRequest) (s : State) : State :=
  let o := s.port k
  if o.hpd = false then s
  else if q.i2c then
    if q.addr = 0x30 ∧ q.write then
      (s.setPort k { o with segment := if q.stop then 0 else (q.data.headD 0).toNat }).send (.auxReply k true [])
    else if q.addr ≠ 0x50 then s.send (.auxReply k false [])
    else if q.write then
      let s := s.setPort k { o with offset := (q.data.headD 0).toNat, segment := if q.stop then 0 else o.segment }
      s.send (.auxReply k true [])
    else
      let e := sinkEdid s k
      let at_ := fun (i : Nat) => 256 * o.segment + (o.offset + i) % 256
      let out := (List.range q.len).map fun i => (e[at_ i]?).getD ((Config.freeValue (s.freeCount + i)).setWidth 8)
      let s := { s with freeCount := s.freeCount + q.len }
      let s := s.setPort k { o with offset := (o.offset + q.len) % 256, segment := if q.stop then 0 else o.segment }
      s.send (.auxReply k true out)
  else if q.write then
    let put := fun (t : Tab Byte) (x : Byte × Nat) => Tab.set (fun _ => 0) t (q.addr + x.2) x.1
    let s := s.setPort k { o with dpcd := q.data.zipIdx.foldl put o.dpcd }
    let train := decide (q.addr ≤ 0x102) && decide (0x102 < q.addr + q.data.length) && q.data.getD (0x102 - q.addr) 0 != 0
    let s := if train && s.rd (R.PORT_STATUS_STATE k) == 1 then s.wr (R.PORT_STATUS_STATE k) 2 else s
    s.send (.auxReply k true [])
  else s.send (.auxReply k true ((span q.addr q.len).map (dpcdByte s k)))

/-! ### DisplayPort sources (R400 to R403) -/

/-- The rate codes of DisplayPort, highest first. -/
def dpRates : List Nat := [0xA, 8, 7, 4, 2]

/-- The flue that source port `p` shows. -/
def flueOf (s : State) (p : Nat) : Option Nat :=
  (List.range 24).find? fun f => s.rd (R.CMP_FLUE_VTIME_V_TOTAL f) != 0 && s.rd (R.CMP_FLUE_CTRL_PORT f) == p

/-- The pixel rate of a flue, as a fraction in pixels per second (R19, R119). -/
def fluePixelRate (s : State) (f : Nat) : Nat × Nat :=
  let r := rateFrac (s.rd R.TICK_CFG_RATE)
  let h := s.rd (R.CMP_FLUE_HTIME_H_TOTAL f)
  let v := s.rd (R.CMP_FLUE_VTIME_V_TOTAL f)
  (h * v * r.1 * (1 + s.rd (R.CMP_FLUE_CTRL_X2 f)), r.2)

/-- The trained link carries the flue: 0.97 of the capacity of R395. -/
def linkCarries (s : State) (f rate lanes : Nat) : Bool :=
  let (n, d) := fluePixelRate s f
  let depth := [8, 10, 12].getD (s.rd (R.CMP_FLUE_CTRL_DEPTH f)) 12
  decide (n * 3 * depth * 16500 ≤ 97 * lanes * (rateKbps rate * 1000) * d * (if is128 rate then 160 else 132))

/-- HPD_CONNECT: HPD has been high for 2 ms (R400). -/
def hpdConnect (p : Nat) (s : State) : State :=
  let o := s.port p
  if s.rdb (R.PORT_CFG_ENABLE p) && !o.connected then
    ((s.setPort p { o with connected := true }).wr (R.PORT_STATUS_PARTNER p) 1).wr (R.PORT_STATUS_STATE p) 1
  else s

/-- HPD_DISCONNECT: HPD has been low for more than 2 ms (R400, R413). -/
def hpdDisconnect (p : Nat) (s : State) : State :=
  let o := s.port p
  if o.connected then
    let s := (s.setPort p { o with connected := false }).wr (R.PORT_STATUS_PARTNER p) 0
    (portLeavesUp p 1 s).wr (R.PORT_STATUS_STATE p) 1
  else s

/-- HPD_IRQ: the source reads the link status, and retrains at the rate in use when lock is lost (R401, R413). -/
def hpdIrq (p : Nat) (lost : Bool) (s : State) : State :=
  if portUp s p && (s.port p).connected && lost then
    let rate := s.rd (R.PORT_STATUS_RATE p)
    let s := portLeavesUp p 2 (s.setPort p { s.port p with trying := rate })
    s.wr (R.PORT_STATUS_RATE p) rate
  else s

/-- The port cannot show its flue (R401). -/
def portShort (p : Nat) (s : State) : State := (setPortState p 4 0 s).raise 0x1303 p

/-- A block of an EDID has a valid checksum. -/
def edidOk (b : List Byte) : Bool := b.length == 128 && b.foldl (fun t x => t + x.toNat) 0 % 256 == 0

/-- PORT_CAPS_READ: the source has read DPCD and EDID; it reports them, checks the timing, and begins to train (R400, R401). The
layout of the first detailed timing descriptor is EDID's. PRESUMED (log 20). -/
def portCapsRead (p : Nat) (c : MonitorCaps) (s : State) : State :=
  let o := s.port p
  let j := p - 16
  if !o.connected || s.rd (R.PORT_STATUS_STATE p) != 1 then s
  else
    let bs := c.blocks.take 4
    let e := bs.flatten
    let byte := fun (i : Nat) => (e.getD i 0).toNat
    let clk := (byte 54 + 256 * byte 55) * 10
    let hAct := byte 56 + byte 58 / 16 * 256
    let vAct := byte 59 + byte 61 / 16 * 256
    let s := ((s.wr (R.PORT_SRC_CAP_DPCD_REV j) c.dpcdRev).wr (R.PORT_SRC_CAP_MAX_RATE j) c.maxRate).wr
      (R.PORT_SRC_CAP_MAX_LANES j) c.maxLanes
    let s := (s.wr (R.PORT_SRC_CAP_EDID_OK j) (b2n (!bs.isEmpty && bs.all edidOk))).wr (R.PORT_SRC_CAP_EDID_BLOCKS j) bs.length
    let s := (List.range 128).foldl (fun s w => s.wr (R.PORT_EDID_BYTES j w) (ofLeBytes ((e.drop (4 * w)).take 4))) s
    let s := ((s.wr (R.PORT_SRC_PREF_H_ACTIVE j) hAct).wr (R.PORT_SRC_PREF_V_ACTIVE j) vAct).wr (R.PORT_SRC_PREF_CLK_CLK_KHZ j) clk
    let s := s.raise 0x1306 p
    let differs : Bool := match flueOf s p with
      | none => false
      | some f =>
        let (n, d) := fluePixelRate s f
        let x : Int := (clk * 1000 * d : Nat)
        hAct != s.rd (R.CMP_FLUE_HTIME_H_ACTIVE f) || vAct != s.rd (R.CMP_FLUE_VTIME_V_ACTIVE f)
          || decide ((n : Int) < 200 * (x - n).natAbs)
    let s := s.when differs (·.raise 0x1307 p)
    let top := min (s.rd (R.PORT_CFG_MAX_RATE p)) c.maxRate
    match dpRates.find? (· ≤ top) with
    | none => portShort p s
    | some r =>
      let lanes := min (lanesNum (s.rd (R.PORT_CFG_LANES p))) c.maxLanes
      let s := s.setPort p { s.port p with trying := r }
      (setPortState p 2 r s).wr (R.PORT_STATUS_LANES p) (lanesCode lanes)

/-- The levels that the monitor requests, realised on the port's lanes (R403). -/
def realiseLevels (p rate : Nat) (levels : List Nat) (s : State) : State :=
  let s := s.wr (R.PORT_SRC_LEVEL_LEVELS (p - 16)) (levels.zipIdx.foldl (fun a x => a + x.1 % 256 * 256 ^ x.2) 0)
  (lanesOf s p).foldl (fun s n =>
    let l := levels.getD (s.rd (R.LANE_CFG_INDEX n)) 0
    let t := if is128 rate then ffeTaps (l % 16) else (0, levelPost (bits l 5 4))
    let s := setTx n 0xF t.1 t.2 s
    if is128 rate then s else s.setLane n { s.lane n with amplitudeMv := [400, 600, 800, 1200].getD (bits l 7 6) 1200 }) s

/-- SOURCE_TRAINING_DONE: a training attempt ends; `levels` are the bytes of PORT_SRC_LEVEL by lane (R401). -/
def sourceTrainingDone (p : Nat) (ok : Bool) (levels : List Nat) (s : State) : State :=
  if s.rd (R.PORT_STATUS_STATE p) ≠ 2 ∨ (s.port p).connected = false then s
  else
    let r := (s.port p).trying
    let lanes := lanesNum (s.rd (R.PORT_STATUS_LANES p))
    if ok then
      let s := realiseLevels p r (levels.take 4) s
      if (flueOf s p).all fun f => linkCarries s f r lanes then portComesUp p r lanes (stdLanesUp p r lanes s)
      else portShort p s
    else
      match dpRates.find? (· < r) with
      | none => portShort p s
      | some q => (s.setPort p { s.port p with trying := q }).wr (R.PORT_STATUS_RATE p) q

/-! ### Ethernet (R405 to R409) -/

/-- A received frame is dropped and counted. -/
def dropRx (p : Nat) (s : State) : State := s.wr (R.PORT_ETH_DROP_RX (p - 40)) (satTo 16 (s.rd (R.PORT_ETH_DROP_RX (p - 40)) + 1))

/-- A field of a received frame, most significant byte first. -/
def beAt (f : List Byte) (o n : Nat) : Nat := ofLeBytes ((f.drop o).take n).reverse

/-- The groups that port `p` is to have joined: those of its enabled decode reels and AES67 receive streams (R407). -/
def wantedGroups (s : State) (p : Nat) : List Nat :=
  let reels := (List.range 128).filter fun r =>
    s.rdb (R.REEL_CFG_ENABLE r) && s.rd (R.REEL_CFG_MODE r) == 0 && s.rd (R.REEL_NET_PORT r) == p
  let aes := (List.range 32).filter fun k => s.rdb (R.AUD_AES_CFG_ENABLE k) && s.rd (R.AUD_AES_CFG_PORT k) == p
  let gs := reels.map (fun r => wordsAddr ((List.range 4).map fun i => s.rd (R.REEL_GROUP_ADDR r i)))
    ++ aes.map (fun k => wordsAddr ((List.range 4).map fun i => s.rd (R.AUD_AES_ADDR_ADDR k i)))
  (gs.filter isGroup).eraseDups

/-- Groups are reported at once and twice again at intervals of 1 s: those joined by a change to any-source reception, those
left by its end (R407). -/
def reportGroups (p : Nat) (gs : List Nat) (s : State) : State :=
  if gs.isEmpty then s
  else
    let o := s.port p
    let s := s.setPort p { o with
      reports := (o.reports.filter fun x => !gs.contains x.1) ++ gs.map fun g => (g, 2, s.monoNs + 1000000000) }
    sendReport p (gs.map fun g => (if o.groups.contains g then 4 else 3, g)) s

/-- At a commit edge port `p` joins and leaves groups (R407, R413). -/
def membershipCommit (s : State) (p : Nat) : State :=
  let o := s.port p
  let now := if s.rdb (R.PORT_CFG_ENABLE p) then wantedGroups s p else []
  if now = o.groups then s
  else
    let changed := (now.filter fun g => !o.groups.contains g) ++ o.groups.filter fun g => !now.contains g
    let s := s.setPort p { o with groups := now }
    if portUp s p then reportGroups p changed s else s

/-- MEMBERSHIP_REPORT_REPEAT (R407). -/
def membershipReportRepeat (p : Nat) (s : State) : State :=
  let o := s.port p
  let due := o.reports.filter fun x => decide (x.2.2 ≤ s.monoNs)
  if portUp s p = false ∨ due.isEmpty then s
  else
    let next := fun (x : Nat × Nat × Nat) =>
      if s.monoNs < x.2.2 then some x else if x.2.1 ≤ 1 then none else some (x.1, x.2.1 - 1, x.2.2 + 1000000000)
    let s := s.setPort p { o with reports := o.reports.filterMap next }
    sendReport p (due.map fun x => (if o.groups.contains x.1 then 4 else 3, x.1)) s

/-- An answer to a membership query: every group of the family. -/
def answerQuery (p : Nat) (v4 : Bool) (s : State) : State :=
  let gs := (s.port p).groups.filter fun g => isV4 g == v4
  if gs.isEmpty then s else sendReport p (gs.map fun g => (2, g)) s

/-- A UDP datagram passes the ingress check units of port `p`; PTP messages go into the receive ring (R446, R494). -/
def udpIn (p : Nat) (f : List Byte) (u : Nat) (s : State) : State :=
  let dst := beAt f (u + 2) 2
  let m := (f.drop (u + 8)).take (beAt f (u + 4) 2 - 8)
  let s := if s.rdb (R.TMB_PTP_PORT_ENABLE (p - 40)) && (dst == 319 || dst == 320) then ptpReceive p (dst == 319) f s else s
  (chkStrip 3 p (some dst) false m (chkCompute 3 p (some dst) m s)).2

/-- An ARP packet: a request for the port's address is answered, and the sender of a request or answer is learned (R406). -/
def arpIn (p : Nat) (f : List Byte) (s : State) : State :=
  let op := beAt f 20 2
  let mac := beAt f 22 6
  let addr := mapped (beAt f 28 4)
  if mapped (beAt f 38 4) ≠ ethIp4 s p then s
  else
    let s := learnNeighbour p addr mac s
    if op = 1 then s.send (.ethFrame p (ethFrame s p mac 0x0806 (arpBody s p 2 mac addr))) else s

/-- An IPv4 packet at byte 14 of an untagged frame (R405, R406). -/
def ip4In (p : Nat) (f : List Byte) (s : State) : State :=
  let hl := 4 * ((f.getD 14 0).toNat % 16)
  let proto := (f.getD 23 0).toNat
  let src := mapped (beAt f 26 4)
  let u := 14 + hl
  let body := (f.drop u).take (beAt f 16 2 - hl)
  if beAt f 20 2 % 0x4000 ≠ 0 ∨ (hl ≠ 20 ∧ proto ≠ 2) then dropRx p s
  else if proto = 2 then if f.getD u 0 = 0x11 then answerQuery p true s else s
  else if proto = 1 then
    if f.getD u 0 = 8 ∧ isOwn s p (mapped (beAt f 30 4)) then
      let m := splice (splice body 0 [0, 0]) 2 [0, 0]
      let m := splice m 2 (beBytes 2 (checksum (onesSum m)))
      sendNet p src (.ethFrame p (ethFrame s p (beAt f 6 6) 0x0800 (ip4Packet (ethIp4 s p) src 1 64 [] m))) s
    else s
  else if proto = 17 then udpIn p f u s
  else s

/-- An IPv6 packet at byte 14 of an untagged frame; only the hop-by-hop header may stand before the payload (R405, R406). -/
def ip6In (p : Nat) (f : List Byte) (s : State) : State :=
  let n0 := (f.getD 20 0).toNat
  let ext := if n0 = 0 then 8 * ((f.getD 55 0).toNat + 1) else 0
  let next := if n0 = 0 then (f.getD 54 0).toNat else n0
  let u := 54 + ext
  let src := beAt f 22 16
  let body := (f.drop u).take (beAt f 18 2 - ext)
  if next = 17 then udpIn p f u s
  else if next ≠ 58 then dropRx p s
  else
    let t := (f.getD u 0).toNat
    let target := beAt f (u + 8) 16
    if t = 128 then
      let m := splice (splice body 0 [129]) 2 [0, 0]
      sendNet p src (.ethFrame p (ethFrame s p (beAt f 6 6) 0x86DD (icmp6Packet (ethIp6 s p) src 64 [] m))) s
    else if t = 135 ∧ target = ethIp6 s p then
      let s := learnNeighbour p src (beAt f 6 6) s
      let m := [136, 0, 0, 0, 0x60, 0, 0, 0] ++ beBytes 16 target ++ [2, 1] ++ beBytes 6 (ethMac s p)
      s.send (.ethFrame p (ethFrame s p (beAt f 6 6) 0x86DD (icmp6Packet (ethIp6 s p) src 255 [] m)))
    else if t = 136 then learnNeighbour p target (beAt f 6 6) s
    else if t = 130 then answerQuery p false s
    else s

/-- A frame with its tag removed, or nothing for a frame of another VLAN (R406). -/
def untag (s : State) (p : Nat) (f : List Byte) : Option (List Byte) :=
  if beAt f 12 2 = 0x8100 then
    if s.rdb (R.PORT_ETH_CTRL_VLAN_EN (p - 40)) ∧ beAt f 14 2 % 4096 ≠ s.rd (R.PORT_ETH_CTRL_VID (p - 40)) then none
    else some (f.take 12 ++ f.drop 16)
  else some f

/-- A PTP message over Ethernet or UDP. -/
def isPtp (f : List Byte) : Bool :=
  let et := beAt f 12 2
  let dst := beAt f (ptpOffset f - 6) 2
  et == 0x88F7 || (((et == 0x0800 && f.getD 23 0 == 17) || (et == 0x86DD && f.getD 20 0 == 17)) && (dst == 319 || dst == 320))

/-- The port accepts an untagged frame by its destination (R406): its own address, broadcast ARP, groups it has joined, PTP,
and the groups through which solicitations and queries for it come. -/
def accepts (s : State) (p : Nat) (f : List Byte) : Bool :=
  let d := beAt f 0 6
  d == ethMac s p || (d == 0xFFFFFFFFFFFF && beAt f 12 2 == 0x0806)
    || (s.port p).groups.any (fun g => groupMac g == d)
    || (isPtp f && s.rdb (R.TMB_PTP_PORT_ENABLE (p - 40)))
    || d == groupMac (mapped 0xE0000001)
    || (s.rdb (R.PORT_ETH_CTRL_IPV6 (p - 40)) && (d == groupMac (solicitedNode (ethIp6 s p)) || d == 0x333300000001))

/-- A frame past injection: filtered, answered, or taken in (R406). -/
def ethDeliver (p : Nat) (f : List Byte) (s : State) : State :=
  match untag s p f with
  | none => dropRx p s
  | some f =>
    if accepts s p f = false ∨ 9216 < f.length + 4 then dropRx p s
    else
      let et := beAt f 12 2
      if et = 0x0806 then arpIn p f s
      else if et = 0x0800 then ip4In p f s
      else if et = 0x86DD then if s.rdb (R.PORT_ETH_CTRL_IPV6 (p - 40)) then ip6In p f s else dropRx p s
      else if et = 0x88F7 then ptpReceive p (decide ((f.getD 14 0).toNat % 16 < 4)) f s
      else dropRx p s

/-- What injection makes of a frame that arrives on receive path `n` (R250), its payload in `len` bytes from byte `at_`: the frames
that pass, in order, each with whether its own check can still pass. -/
def injectRx (n at_ len : Nat) (f : List Byte × Bool) (s : State) : List (List Byte × Bool) × State :=
  let (mode, s) := injFrame n s
  let (out, s) := injPass n s
  if mode = 1 then (out, s)
  else if mode = 2 then
    let (g, s) := injCorrupt n at_ len f.1 s
    ((g, false) :: out, s)
  else if mode = 3 then (out, injHold n f s)
  else (f :: out, s)

/-- The bits of an Ethernet frame that each lane of its port has just carried (R406). -/
def ethLaneBits (s : State) (p : Nat) (f : List Byte) : Nat := (f.length + 12) * 33 / (4 * max 1 (lanesOf s p).length)

/-- Bit errors injected into the lanes of Ethernet port `p` during a frame: RS-FEC corrects them, and without it the frame fails its
check (R250; log 120). -/
def ethLaneErrors (p : Nat) (f : List Byte × Bool) (s : State) : (List Byte × Bool) × State :=
  let e := portErrors s p (ethLaneBits s p f.1)
  if e = 0 then (f, s)
  else if s.rdb (R.PORT_ETH_CTRL_RS_FEC (p - 40)) then
    (f, s.wr (R.PORT_ETH_FEC_CORR (p - 40)) (satTo 16 (s.rd (R.PORT_ETH_FEC_CORR (p - 40)) + e)))
  else ((f.1, false), s)

/-- What the receive path of Ethernet port `p` makes of an arriving frame under injection (R250). -/
def ethInject (p : Nat) (f : List Byte × Bool) (s : State) : List (List Byte × Bool) × State :=
  let (f, s) := ethLaneErrors p f s
  injectRx (4 + (p - 40)) 14 (max 1 (f.1.length - 14)) f s

/-- ETH_FRAME_RECEIVED: a frame from its destination MAC address on, without its FCS; `fcsOk` tells whether that was right
(R406). -/
def ethFrameReceived (p : Nat) (f : List Byte) (fcsOk : Bool) (s : State) : State :=
  if portUp s p = false then s
  else
    let (fs, s) := ethInject p (f, fcsOk) s
    fs.foldl (fun s (g : List Byte × Bool) => if g.2 then ethDeliver p g.1 s else dropRx p s) s

/-- PORT_DOWN: the link of Ethernet port `p` goes down; packets that wait are dropped (R409). -/
def portDown (p : Nat) (s : State) : State :=
  if portUp s p then
    let n := (s.port p).held.length
    let s := (portLeavesUp p 1 s).wr (R.PORT_STATUS_PARTNER p) 0
    let s := s.setPort p { s.port p with held := [], reports := [] }
    (List.range n).foldl (fun s _ => dropTx p s) s
  else s

/-! ### Links that come up, and commits -/

/-- The generation of a PCIe rate code. -/
def pcieGen (rate : Nat) : Nat := if rate = 0xC then 4 else if rate = 6 then 3 else if rate = 3 then 2 else 1

/-- PORT_UP: the link of a sink, an Ethernet port or the PCIe endpoint comes up at a rate on a number of lanes (R407, R409,
R412). -/
def portUpEvent (p rate lanes : Nat) (s : State) : State :=
  let ready := ((lanesOf s p).filter fun n => laneState s n == 8 && decide (s.rd (R.LANE_CFG_INDEX n) < lanes)).length
  if portOn s p = false ∨ s.rd (R.PORT_STATUS_STATE p) = 3 ∨ ready < lanes then s
  else
    let s := portComesUp p rate lanes (stdLanesUp p rate lanes s)
    if p = 48 then
      let s := (s.wr R.PORT_PCIE_LINK_GEN (pcieGen rate)).wr R.PORT_PCIE_LINK_WIDTH lanes
      let o := s.port 48
      (s.setPort 48 { o with resetDue := false }).when o.resetDue (·.raise 0x1309 48)
    else if 40 ≤ p then reportGroups p (s.port p).groups s
    else s

/-- A commit sets or clears ENABLE of port `p` (R397, R400, R413, R415, R430). -/
def portCommit (before : Nat → Bool) (s : State) (p : Nat) : State :=
  let on := s.rdb (R.PORT_CFG_ENABLE p)
  if on && !before p then
    let s := (s.setPort p { hpd := decide (p < 16), capturing := true }).wr (R.PORT_STATUS_STATE p) 1
    if 49 ≤ p then s.wr (R.CRL_LINK_STATUS_STATE (p - 49)) 1 else s
  else if !on && before p then
    let s := if p < 16 then (stopCapture p s).wr (R.PORT_SINK_FMT_GENLOCK p) 0 else s
    let s := (setPortState p 0 0 s).wr (R.PORT_STATUS_LANES p) 0
    let s := (s.wr (R.PORT_STATUS_PARTNER p) 0).setPort p {}
    if 49 ≤ p then linkDown (p - 49) s else s
  else s

end Sys2Proof.Machine
end

