-- ==== Sys2Proof/Machine/Power.lean ====
section
/-!
DEFINITION. The power controller while the package runs (R503 to R507, R513 to R518, R248, R273): domains that switch on and
off, supply monitors, lost dies, package faults, the thermal trip, the wake.
-/
namespace Sys2Proof.Machine

/-! ### Package faults (R248) -/

/-- An event of the PWR block enters the queue if PD1, which holds it, is powered (R521). -/
def raisePwr (code object : Nat) (s : State) : State := s.when (s.powered 1) (·.raise code object)

/-- A package fault is declared for cause `c` (R248, R253): video stops on every source, so that every flue is DARK and the tile
table reads as zeros (R172), and the Crinus links tell the other packages (R435). PKG_FAULT is raised if the event queue works. -/
def declareFault (queueWorks : Bool) (c : Nat) (s : State) : State :=
  if s.rdb R.WDN_STATUS_PKG_FAULT then s
  else
    let s := (s.wr R.WDN_STATUS_PKG_FAULT 1).wr R.PWR_STATUS_PKG_FAULT 1
    let s := s.when queueWorks (·.raise 0x0908 c)
    let s := { s with regs := s.regs.filter fun p => decide (p.1 < 0x400000) || decide (0x800000 ≤ p.1) }
    wardenNotice 1 c ((List.range 24).foldl (fun s f => countStates { regs := s.regs } f s) s)

/-- A package fault for cause `c`; the event queue works while PD1 is powered. -/
def pkgFault (c : Nat) (s : State) : State := declareFault (s.powered 1) c s

/-- EVQ_STAGING_UE: an uncorrectable error in the event queue's memory, whose queue then works no more, or in staging memory (R248).
The row does not say in which: that is a free value. DESIGN CHOICE (log 106). -/
def evqStagingUe (s : State) : State :=
  declareFault (s.powered 1 && bitOf (Config.freeValue s.freeCount).toNat 0) 4 { s with freeCount := s.freeCount + 1 }

/-- THERMTRIP: the comparator of sensor `i` reaches 120 °C, and THERMTRIP_N asserts until PORST_N (R273, R516). -/
def thermTrip (_i : Nat) (s : State) : State :=
  pkgFault 2 ((s.wr R.PWR_STATUS_THERMTRIP 1).wr R.PWR_RST_CAUSE_THERMTRIP 1)

/-! ### Domains -/

/-- The region of a power domain, if it holds one. -/
def domainRegion (d : Nat) : Option Nat := (List.range 4).find? fun r => regionDomain r == d

/-- Domain `d` has lost its power: what lies in it stops. -/
def domainOff (d : Nat) (s : State) : State :=
  if s.powered d = false then s
  else
    let s := setBit R.PWR_STATUS_POWERED d false s
    if 2 ≤ d ∧ d ≤ 5 then quadrantOff (d - 2) s
    else if d = 9 ∨ d = 14 then (span (12 * ((d - 9) / 5)) 12).foldl (fun s v => s.setEngine v {}) s
    else if (domainRegion d).isSome then refreshHier s
    else s

/-- Domain `d` is switched off after a fault, and stays off until warm reset or PORST_N (R504, R515). -/
def failOff (d : Nat) (s : State) : State :=
  let s := domainOff d s
  let p := s.power
  { s with power := { p with
      failedOff := d :: p.failedOff.erase d, switching := p.switching.erase d, toSwitch := p.toSwitch.erase d } }

/-- SEQ_BUSY follows the switches in progress. -/
def refreshSeq (s : State) : State := s.wr R.PWR_STATUS_SEQ_BUSY (b2n (!s.power.switching.isEmpty))

/-- The domains of R505 and the pairs of R506, in the order in which they are switched on. -/
def powerPairs : List (List Nat) := [[1], [2], [11, 16], [10, 15], [9, 14], [7, 12], [8, 13], [3, 4], [5, 6]]

/-- The next pair of the domains that are still to be switched on begins, once no switch is in progress (R506). -/
def switchNext (s : State) : State :=
  let p := s.power
  if p.switching.isEmpty = false then refreshSeq s
  else
    match powerPairs.find? fun q => q.any p.toSwitch.contains with
    | none => refreshSeq s
    | some q =>
      let go := q.filter p.toSwitch.contains
      refreshSeq { s with power := { p with
        switching := go
        toSwitch := p.toSwitch.filter fun d => !go.contains d
        switchNs := go.foldl (fun t d => t.set (fun _ => 0) d s.monoNs) p.switchNs } }

/-- DOMAIN_SWITCH_DONE: domain `d`'s switch has completed and its monitor has been in its window for 10 µs (R503, R506). -/
def domainSwitchDone (d : Nat) (s : State) : State :=
  let p := s.power
  if p.switching.contains d then
    let s := { s with power := { p with switching := p.switching.erase d, failedOff := p.failedOff.erase d } }
    let s := setBit R.PWR_STATUS_POWERED d true s
    let s := if 2 ≤ d ∧ d ≤ 5 then quadrantOn (d - 2) s
      else match domainRegion d with
        | some r => refreshHier (if s.faults.resets.any (·.region == r) then regionPowered r s else s)
        | none => s
    switchNext s
  else s

/-! ### Supply monitors (R513 to R515) -/

/-- The power domains of compute die `d`. -/
def dieDomains (d : Nat) : List Nat := span (7 + 5 * d) 5

/-- Die `d` is lost (R515): its domains go off, its regions are recorded and stay unpowered, and the loss of both dies is a
package fault. -/
def dieLost (d : Nat) (s : State) : State :=
  if s.power.diesLost.contains d then s
  else
    let s := { s with
      power := { s.power with diesLost := d :: s.power.diesLost }
      faults := { s.faults with deadRegions := [2 * d, 2 * d + 1] ++ s.faults.deadRegions.filter fun r => r / 2 != d } }
    let s := (dieDomains d).foldl (fun s x => failOff x s) s
    let s := logFault 0x08 2 (2 * d + 1) false (logFault 0x08 2 (2 * d) false s)
    let s := raisePwr 0x1903 d s
    if s.power.diesLost.length = 2 then pkgFault 3 s else s

/-- What a trip of monitor `m` does (R514). -/
def tripAction (m : Nat) (s : State) : State :=
  if m ≤ 2 then pkgFault 1 s
  else if m ≤ 6 then failOff m s
  else if m = 7 ∨ m = 8 ∨ m = 12 ∨ m = 13 then logFault 0x08 2 ((domainRegion m).getD 0) false s
  else if m ≤ 11 then dieLost 0 s
  else if m ≤ 16 then dieLost 1 s
  else if m = 17 ∨ m = 20 then dieLost 0 s
  else if m = 18 ∨ m = 21 then dieLost 1 s
  else if m = 19 then pkgFault 1 (failOff 1 (failOff 6 s))
  else if m = 22 then pkgFault 1 (failOff 1 s)
  else if m = 23 then pkgFault 1 s |> failOff 2
  else if m ≤ 26 then failOff (m - 21) s
  else if m = 27 then pkgFault 1 s |> failOff 2 |> failOff 3 |> failOff 4 |> failOff 5
  else if m = 31 then pkgFault 1 s
  else s

/-- SUPPLY_MONITOR_SAMPLE: monitor `m` reads `mv` (R513): two samples in a row outside the window trip it, a hundred inside
clear it. The rail of a domain without power trips nothing. -/
def supplyMonitorSample (m mv : Nat) (s : State) : State :=
  let inside := decide (s.rd (R.PWR_MON_CFG_LOW_MV m) ≤ mv) && decide (mv ≤ s.rd (R.PWR_MON_CFG_HIGH_MV m))
  let s := (s.wr (R.PWR_MON_STAT_IN_WINDOW m) (b2n inside)).wr (R.PWR_MON_STAT_MV m) mv
  let o := s.power.monitors.get (fun _ => {}) m
  let set := fun (o : MonState) (s : State) => { s with power := { s.power with monitors := s.power.monitors.set (fun _ => {}) m o } }
  if inside then
    let n := o.inn + 1
    if o.tripped ∧ 100 ≤ n then raisePwr 0x1902 m (set { out := 0, inn := n, tripped := false } s)
    else set { o with out := 0, inn := min 100 n } s
  else
    let live := decide (17 ≤ m) || s.powered m
    if live && !o.tripped && decide (1 ≤ o.out) then
      let s := set { out := 2, inn := 0, tripped := true } s
      let s := s.wr (R.PWR_MON_STAT_TRIPS m) (satTo 7 (s.rd (R.PWR_MON_STAT_TRIPS m) + 1))
      let s := if m < 17 then setBit R.PWR_DOMAIN_FAULT_TRIPPED m true s else s
      tripAction m (raisePwr 0x1901 m s)
    else set { o with out := if live then min 2 (o.out + 1) else 0, inn := 0 } s

/-! ### Wake (R517, R518) -/

/-- The wake action for the flues of a mask, right after an edge's commit (R517, R518). -/
def wakeAction (s : State) : State :=
  match s.power.wakeMask with
  | none => s
  | some m =>
    let s := { s with power := { s.power with wakeMask := none } }
    let s := (s.wr R.PWR_WAKE_PENDING 1).wr R.PWR_WAKE_FLUES m
    (List.range 24).foldl (fun s f =>
      if bitOf m f && s.rd (R.CMP_FLUE_VTIME_V_TOTAL f) != 0 then
        let p := s.rd (R.CMP_FLUE_CTRL_PORT f)
        (s.wrBoth (R.CMP_FLUE_CTRL_ENABLE f) 1).wrBoth (R.PORT_CFG_ENABLE p) 1
      else s) s

/-- WAKE_PENDING_CLEAR: a write of 1 to PWR_WAKE.PENDING releases WAKE_N (R518). -/
def wakePendingClear (s : State) : State := s.wr R.PWR_WAKE_PENDING 0

end Sys2Proof.Machine
end

