-- ==== Sys2Proof/Machine/ImgApply.lean ====
section
/-!
DEFINITION. Applying a section of a structure image (R73, R81): what each section sets in the registers and in the hidden
state, at boot and when a partial image replaces it. A record that is the same in the section in force changes nothing (R80).
-/
namespace Sys2Proof.Machine

/-- The fields of the register at `a` that firmware can write, which an image's register words set too. -/
def cfgMask (a : Nat) : Nat := accMask .rw a + accMask .rws a + accMask .rwl a

/-- A word under a mask. -/
def maskInto (m w : Nat) (x : Word) : Word := BitVec.ofNat 32 ((x.toNat - (x.toNat &&& m)) + (w &&& m))

/-- An image sets the configuration fields of the register at `a`, live and shadow. -/
def imgWord (a w : Nat) (s : State) : State :=
  { s with regs := s.regs.set resetWord a (maskInto (cfgMask a) w (s.word a))
           shadow := s.shadow.set resetWord a (maskInto (accMask .rws a) w (s.shadowWord a)) }

/-- A reload restores the RWL fields of the register at `a` to the values that the image gives them (R227). -/
def imgRwl (a w : Nat) (s : State) : State :=
  { s with regs := s.regs.set resetWord a (maskInto (accMask .rwl a) w (s.word a)) }

/-- An image sets a whole word that firmware cannot write. -/
def imgLive (a w : Nat) (s : State) : State := { s with regs := s.regs.set resetWord a (BitVec.ofNat 32 w) }

/-- The little-endian words of a body from offset `o`. -/
def bodyWords (b : List Byte) (o n : Nat) : List Nat := (List.range n).map fun k => b32 b (o + 4 * k)

/-- Record `i` of `n` bytes of a body. -/
def bodyRec (b : List Byte) (n i : Nat) : List Byte := (b.drop (n * i)).take n

/-! ### Power plan (step 1: R503 to R507, R555) -/

/-- The domains that a plan powers and that are not: they wait for their switches, lost dies and dead regions apart; those it
leaves out are switched off, in the reverse order of R506. -/
def planPower (mask : Nat) (s : State) : State :=
  let off := (span 3 14).filter fun d => !bitOf mask d
  let dead (d : Nat) := (s.power.diesLost.any fun x => (dieDomains x).contains d)
    || (domainRegion d).any s.faults.deadRegions.contains
  let need := (span 3 14).filter fun d => bitOf mask d && !s.powered d && !s.power.switching.contains d && !dead d
  let s := powerPairs.reverse.flatten.foldl (fun s d => if off.contains d && s.powered d then domainOff d s else s) s
  switchNext { s with power := { s.power with
    plannedOff := off
    switching := s.power.switching.filter fun d => !off.contains d
    toSwitch := need } }

def applyPower (b : List Byte) (s : State) : State :=
  let s := [0xD0000, 0xD0004, 0xD0008, 0xD000C].zipIdx.foldl (fun s (p : Nat × Nat) => imgWord p.1 (b32 b (4 + 4 * p.2)) s) s
  let s := imgLive 0xD002C (b8 b 20) s
  let slot (k : Nat) := if b8 b (24 + k) < 24 then 0x80 + b8 b (24 + k) else 0
  let s := (List.range 6).foldl (fun s j =>
    imgLive (0xD0040 + 4 * j) ((List.range 4).foldl (fun w k => w + slot (4 * j + k) * 2 ^ (8 * k)) 0) s) s
  let s := (List.range 32).foldl (fun s m => imgWord (0x1B0100 + 8 * m) (b32 b (64 + 4 * m)) s) s
  planPower (b32 b 0) s

/-! ### Memory, matrix, protection (steps 2 to 4: R325 to R328, R342, R352, R362, R365) -/

/-- The channels that some partition uses. -/
def usedChannels (ps : List Partition) : List Nat := (List.range 24).filter fun c => ps.any fun p => bitOf p.mask c

/-- The memory partitions: every line of every partition reads zero with its partition's tag (R328), the fitted channels are
trained, `failed` of them in vain (R342). -/
def applyMemory (failed : List Nat) (b : List Byte) (s : State) : State :=
  let ps := partitionsOf b
  let key := 64 + 32 * min 32 (b8 b 25)
  let dens := (span 1 24).map (b8 b)
  let s := { s with mem := { s.mem with
    bytes := s.mem.bytes.filter fun (p : Nat × Byte) => decide (0x4000000000 ≤ p.1)
    lines := s.mem.lines.filter fun (p : Nat × LineErr) => decide (0x4000000000 ≤ 64 * p.1)
    partitions := ps, keys := (span key 9).map fun o => b8 b o % 16, density := dens } }
  let fitted := (List.range 24).filter fun c => dens.getD c 0 != 0
  let s := (s.wr R.HRT_CFG_RATE (b8 b 0)).wr R.HRT_CFG_FITTED (fitted.foldl (fun x c => x + 2 ^ c) 0)
  fitted.foldl (fun s c =>
    if failed.contains c then (s.wr (R.HRT_CH_STAT_STATE c) 3).raise 0x0F06 c
    else
      let s := s.setChan c { s.chan c with trainedNs := s.monoNs, trainStep := 0, driftPs := 0 }
      (s.wr (R.HRT_CH_STAT_STATE c) 2).wr (R.HRT_CH_TRAIN_TEMP_C c) (channelDieTemp s c)) s

def applyMatrix (b : List Byte) (s : State) : State :=
  (List.range 161).foldl (fun s n => imgWord (0x141000 + 4 * n) (b32 b (8 + 4 * n)) s) (s.wr R.MTX_SLICE_MASK (b16 b 0))

/-- A region's four words. -/
def setRegion (u i : Nat) (ws : List Nat) (s : State) : State :=
  ws.zipIdx.foldl (fun s (p : Nat × Nat) => imgLive ((R.MPU_RGN_START_LINE u i).addr + 4 * p.2) p.1 s) s

/-- The regions that a protection section changes, with their new words. -/
def protChanges (s : State) (b : List Byte) (u : Nat) : List (Nat × List Nat) :=
  (List.range 256).filterMap fun i =>
    let w := protWords b u i
    if rgnWords s u i = w then none else some (i, w)

/-- The protection regions. At boot they stand from now on; a reload installs all of its changes at one epoch step and drains
their ranges (R365). -/
def applyProtection (boot : Bool) (b : List Byte) (s : State) : State :=
  let s := (List.range 3).foldl (fun s u =>
    let ch := protChanges s b u
    let ranges := ch.flatMap fun c =>
      [(s.rd (R.MPU_RGN_START_LINE u c.1), s.rd (R.MPU_RGN_END_LINE u c.1)), (c.2.getD 0 0, c.2.getD 1 0)]
    let s := ch.foldl (fun s c => setRegion u c.1 c.2 s) s
    if boot || ch.isEmpty then s
    else
      let s := (s.wr (R.MPU_EPOCH_EPOCH u) (s.rd (R.MPU_EPOCH_EPOCH u) + 1)).wr (R.MPU_UPD_STAT_PENDING u) 1
      { s with mem := { s.mem with drains := s.mem.drains ++
          [({ unit := u, object := 0xFF, epoch := s.rd (R.MPU_EPOCH_EPOCH u), ranges, goNs := s.monoNs } : Drain)] } }) s
  { s with protectionApplied := true }

/-! ### Injection permission and check units (steps 5 and 6: R78, R500, R556) -/

def applyPermit (b : List Byte) (s : State) : State :=
  let m := b8 b 0 % 32
  (imgLive 0x1C0000 m s).wr R.IMG_STATUS_INJ_PERMITTED (b2n (m != 0))

def applyChecks (boot : Bool) (old b : List Byte) (s : State) : State :=
  (List.range 16).foldl (fun s i =>
    let put := if !boot && bodyRec old 32 i == bodyRec b 32 i then imgRwl else imgWord
    let s := (List.range 5).foldl (fun s k => put (0xF0100 + 0x20 * i + 4 * k) (b32 b (32 * i + 4 * k)) s) s
    if !boot && bodyRec old 32 i == bodyRec b 32 i then s else chkRestart i s) s

/-! ### Lanes and ports (steps 7 and 8: R372, R393) -/

def applyLanes (boot : Bool) (old b : List Byte) (s : State) : State :=
  refreshQuad ((List.range 128).foldl (fun s n =>
    let o := 8 * n
    if !boot && bodyRec old 8 n == bodyRec b 8 n then s
    else
      let s := (s.wr (R.LANE_CFG_PORT n) (b8 b o % 64)).wr (R.LANE_CFG_INDEX n) (b8 b (o + 1))
      let s := (s.wr (R.LANE_CFG_MAX_RATE n) (b8 b (o + 7))).wr (R.LANE_CFG_CABLE n) (b8 b (o + 3) % 16)
      let s := (s.wr (R.LANE_CFG_TX_INV n) (bits (b8 b (o + 2)) 0 0)).wr (R.LANE_CFG_RX_INV n) (bits (b8 b (o + 2)) 1 1)
      let s := (setTx n 0xF (b8 b (o + 4)) (b8 b (o + 5)) s).wr (R.LANE_RXEQ_PEAK n) (b8 b (o + 6))
      s.setLane n { s.lane n with kept := none, adapted := false }) s)

def applyPorts (boot : Bool) (old b : List Byte) (s : State) : State :=
  (List.range 53).foldl (fun s p =>
    let o := 32 * p
    if !boot && bodyRec old 32 p == bodyRec b 32 p then s
    else
      let used := b8 b o != 0
      let s := (s.wr (R.PORT_CFG_TYPE p) (b8 b o)).wr (R.PORT_CFG_LANES p) (if used then lanesCode (b8 b (o + 1)) else 0)
      let s := s.wr (R.PORT_CFG_MAX_RATE p) (if used then b8 b (o + 2) else 0)
      let s := if 40 ≤ p ∧ p < 48 then s.wr (R.PORT_ETH_CTRL_RS_FEC (p - 40)) (bits (b8 b (o + 3)) 0 0) else s
      if p = 48 then s.wrBoth (R.PORT_CFG_ENABLE p) 1 else s) s

/-! ### Audio and sense (steps 9 and 10: R458, R476) -/

/-- The 36-byte record of an audio map that starts at offset `a`, if it has one: its words. -/
def audioRecWords (b : List Byte) (a : Nat) : Option (List Nat) :=
  ((List.range (b.length / 36)).find? fun i => b32 b (36 * i) == a).map fun i => bodyWords b (36 * i + 4) 8

/-- The offsets that records of an audio map name. -/
def audioOffsets (b : List Byte) : List Nat := (List.range (b.length / 36)).map fun i => b32 b (36 * i)

/-- The audio map: a record that is new or differs sets its registers, those of a record removed return to reset. -/
def applyAudio (old b : List Byte) (s : State) : State :=
  let put (f : Nat → Nat → State → State) (a : Nat) (ws : List Nat) (s : State) : State :=
    ws.zipIdx.foldl (fun s (p : Nat × Nat) => f (a + 4 * p.2) p.1 s) s
  let gone := (audioOffsets old).filter fun a => !(audioOffsets b).contains a
  let s := gone.foldl (fun s a => put imgWord a ((List.range 8).map fun k => (resetWord (a + 4 * k)).toNat) s) s
  (List.range (b.length / 36)).foldl (fun s i =>
    let a := b32 b (36 * i)
    let ws := bodyWords b (36 * i + 4) 8
    put (if audioRecWords old a = some ws then imgRwl else imgWord) a ws s) s

/-- The first record of kind `k` for object `n` in a sense map. -/
def senseRecOf (b : List Byte) (k n : Nat) : Option (List Byte) :=
  ((senseRecs b k).find? fun o => b8 b (o + 1) == n).map fun o => (b.drop o).take 16

/-- The sense map: panels, overlays, sentinel channels, profiles; an object whose record is unchanged keeps what it holds. -/
def applySense (old b : List Byte) (s : State) : State :=
  let diff (k n : Nat) := senseRecOf old k n != senseRecOf b k n
  let s := (List.range 4).foldl (fun s p =>
    if diff 1 p then
      let r := (senseRecOf b 1 p).getD []
      s.setPanel p { first := b8 r 2, count := b8 r 3, wakeMask := b32 r 8 }
    else s) s
  let s := (List.range 16).foldl (fun s o =>
    if diff 2 o then
      let r := (senseRecOf b 2 o).getD []
      let s := s.setOverlay o { used := (senseRecOf b 2 o).isSome
                                swap := bitOf (b8 r 6) 0, mirrorX := bitOf (b8 r 6) 1, mirrorY := bitOf (b8 r 6) 2 }
      imgLive (0x1A0400 + 16 * o) (b8 r 2 * 2 ^ 24 + b8 r 3 * 2 ^ 16 + b8 r 4 * 256 + b8 r 5) s
    else s) s
  let s := (List.range 8).foldl (fun s q =>
    if diff 4 q then
      let r := (senseRecOf b 4 q).getD []
      let v : Profile := { used := (senseRecOf b 4 q).isSome, drive := b8 r 2, sense := b8 r 3
                           meanDrive := b16 r 4, meanSense := b16 r 6, tol := b8 r 8 }
      { s with touch := { s.touch with profiles := s.touch.profiles.set (fun _ => {}) q v } }
    else s) s
  let s := (List.range 24).foldl (fun s f =>
    if diff 3 f then
      let c := match senseRecOf b 3 f with | some r => b8 r 2 | none => 0xFF
      s.wr (R.SNT_FLUE_CFG_CHANNEL f) c
    else s) s
  s.wr R.TCH_STATUS_CONFIGURED ((List.range 4).foldl (fun x p => x + 2 ^ p * b2n (senseRecOf b 1 p).isSome) 0)

/-! ### Units and rectangles (steps 11 and 12: R54, R87, R191, R554) -/

/-- The idle stand-ins of a reserve: its units that hold no work, are no flue's direct unit and are not withdrawn (R54, R87). -/
def freshStandins (s : State) : Nat :=
  (List.range 32).foldl (fun x u =>
    x + 2 ^ u * b2n (bitOf s.comp.reserve (u / 4) && !holdsWork s u && !(s.unit u).withdrawn
      && !(List.range 24).any fun f => s.rd (R.CMP_FLUE_DIRECT_UNIT f) == u)) 0

def applyUnits (b : List Byte) (s : State) : State :=
  let keys := (List.range 24).flatMap fun f => (List.range 72).map fun k => (f, k)
  let bands := keys.foldl (fun (t : Tab Nat) (p : Nat × Nat) =>
    Tab.set (fun _ => 0xFF) t (p.1 * 128 + p.2) (b8 b (64 + 80 * p.1 + p.2))) []
  let s := { s with comp := { s.comp with
    bandUnits := bands, reserve := b8 b 0
    redistribute := s.comp.redistribute.filter fun k => 32 ≤ b8 b (64 + 80 * (k / 128) + k % 128) } }
  let s := (List.range 24).foldl (fun s f => s.wr (R.CMP_FLUE_DIRECT_UNIT f) (allocDirect b f)) s
  let s := (List.range 64).foldl (fun s n =>
    let m := allocMembers b n
    ((s.wr (R.CRT_RECT_MEMBERS_MEMBER_A n) (m.getD 0 0xFF)).wr (R.CRT_RECT_MEMBERS_MEMBER_B n) (m.getD 1 0xFF)).wr
      (R.CRT_RECT_MEMBERS_MEMBER_C n) (m.getD 2 0xFF)) s
  refreshHier (s.wr R.GLB_UNIT_STANDIN_IDLE_STANDIN (freshStandins s))

def applyCritical (b : List Byte) (s : State) : State :=
  let n := critCount b
  let s := (List.range 64).foldl (fun s i =>
    if i < n then
      let s := (s.wr (R.CRT_RECT_POS_VALID i) 1).wr (R.CRT_RECT_POS_FLUE i) (critField b i 0)
      let s := (s.wr (R.CRT_RECT_POS_COL0 i) (critField b i 2)).wr (R.CRT_RECT_POS_ROW0 i) (critField b i 3)
      (s.wr (R.CRT_RECT_SIZE_COLS_M1 i) (critField b i 4)).wr (R.CRT_RECT_SIZE_ROWS_M1 i) (critField b i 5)
    else restoreRect i (imgLive (R.CRT_RECT_SIZE_COLS_M1 i).addr 0 (imgLive (R.CRT_RECT_POS_VALID i).addr 0 s))) s
  let tiles := (List.range n).foldl (fun x i => x + (critField b i 4 + 1) * (critField b i 5 + 1)) 0
  refreshHier ((s.wr R.CRT_STATUS_RECTS n).wr R.CRT_STATUS_CRIT_TILES tiles)

/-! ### Initial register sets (step 13: R64, R74, R86) -/

/-- The records of initial register sets as (offset, mask, value). -/
def initRecords (b : List Byte) : List (Nat × Nat × Nat) :=
  (List.range (b.length / 12)).map fun i => (b32 b (12 * i), b32 b (12 * i + 4), b32 b (12 * i + 8))

/-- At boot a record writes the fields it touches, live and shadow, and the W1S and WO fields among them act (R524); the
injection registers check their permission (R78, R249). In a reload it is an ordinary write. `write` makes an ordinary write of a
word to the fields that a mask touches. -/
def applyInit (boot : Bool) (write : Nat → Nat → Nat → State → State) (b : List Byte) (s : State) : State :=
  (initRecords b).foldl (fun s (r : Nat × Nat × Nat) =>
    let (a, m, v) := r
    let t := touchedBits (fun x => x != .ro) a m
    let act := touchedBits (fun x => x == .w1s || x == .wo) a m
    if t = 0 then s
    else if boot && !(decide (0x1C0000 ≤ a) && decide (a < 0x1D0000)) then
      (initRecord a m v s).when (act != 0) (write act a (v &&& m &&& act))
    else write t a (reloadWord a m v s) s) s

/-! ### Wall geometry (step 14: R18, R84, R452, R553) -/

/-- The tick starts at the first target edge at least 64 µs ahead (R18, R452), with nothing built or published. -/
def startTick (s : State) : State :=
  let s := (s.wr { R.TICK_STATUS_RUN with lo := 26 } 0).wr R.TICK_BUILD_COMPLETE 0
  { s with tick := { edgeAtTarget (s.rd R.TICK_CFG_RATE) s.nowNs s.tick with
      geometryApplied := true
      runBase := 0, runCount := 0
      building := none, complete := false, buildUs := 0, current := none, firstEdge := true, countAll := false } }

/-- The record of flue `f` in the wall geometry: its registers. -/
def applyFlue (b : List Byte) (f : Nat) (s : State) : State :=
  let o := 64 + 64 * f
  let fl := b8 b o
  let s := (s.wr (R.CMP_FLUE_CTRL_X2 f) (bits fl 1 1)).wr (R.CMP_FLUE_CTRL_BT2020 f) (bits fl 2 2)
  let s := (s.wr (R.CMP_FLUE_CTRL_DEPTH f) (b8 b (o + 1))).wr (R.CMP_FLUE_CTRL_PORT f) (b8 b (o + 2))
  let s := (List.range 5).foldl (fun s k => imgWord (0x81004 + 0x80 * f + 4 * k) (b32 b (o + 4 + 4 * k)) s) s
  let on := bitOf fl 0
  let s := s.wr (R.CMP_FLUE_TILES_TILE_BASE f) (wBase b f)
  let s := (s.wr (R.CMP_FLUE_TILES_COLS_M1 f) (if on then wCols b f - 1 else 0)).wr (R.CMP_FLUE_TILES_ROWS_M1 f)
    (if on then wRows b f - 1 else 0)
  (s.wr (R.CMP_FLUE_HELD_BASE f) (b32 b (o + 28))).wr (R.CMP_FLUE_HELD_IDX_COUNT f) (b8 b (o + 32))

/-- A flue whose record changes has written no held copy. -/
def emptyRing (f : Nat) (s : State) : State :=
  let s := (s.wr (R.CMP_FLUE_HELD_IDX_NEWEST f) 0xFF).wr (R.CMP_FLUE_HELD_IDX_WRITING f) 0xFF
  s.setFlue f { s.flue f with ring := [], bufBands := [], bufSigs := [] }

/-- Entry `i` of the tile table belongs to a tile of a defined flue of a wall geometry (R121, R553). -/
def occupied (b : List Byte) (i : Nat) : Bool :=
  (List.range 24).any fun f => wDefined b f && decide (wBase b f ≤ i) && decide (i < wBase b f + wCols b f * wRows b f)

/-- The tile-table entries that no flue's tiles occupy read as all zeros (R172). -/
def clearUnoccupied (b : List Byte) (s : State) : State :=
  { s with regs := s.regs.filter fun p => decide (p.1 < 0x400000) || decide (0x800000 ≤ p.1) || occupied b ((p.1 - 0x400000) / 16) }

def applyWall (boot : Bool) (old b : List Byte) (s : State) : State :=
  let s := (s.wr R.TICK_CFG_RATE (b8 b 0)).wr R.TICK_CFG_PUB_GUARD (b8 b 1)
  let s := s.wr R.GLB_PKG_PKG_ID (b8 b 2)
  let s := (List.range 24).foldl (fun s f =>
    (applyFlue b f s).when (boot || bodyRec (old.drop 64) 64 f != bodyRec (b.drop 64) 64 f) (emptyRing f)) s
  let s := clearUnoccupied b s
  if boot || old.take 3 != b.take 3 then startTick s else s

/-! ### All sections -/

/-- The order of R73, by section type. -/
def applyOrder : List Nat := [9, 6, 7, 8, 13, 12, 1, 2, 11, 10, 4, 5, 14, 3]

/-- Section `t` takes effect with body `b`, and is in force from now on. -/
def applySection (boot : Bool) (write : Nat → Nat → Nat → State → State) (failed : List Nat) (t : Nat) (b : List Byte) (s : State) :
    State :=
  let old := s.section_ t
  let s := { s with img := { s.img with sections := s.img.sections.set (fun _ => []) t b } }
  match t with
  | 1 => applyLanes boot old b s
  | 2 => applyPorts boot old b s
  | 3 => applyWall boot old b s
  | 4 => applyUnits b s
  | 5 => applyCritical b s
  | 6 => applyMemory failed b s
  | 7 => applyMatrix b s
  | 8 => applyProtection boot b s
  | 9 => applyPower b s
  | 10 => applySense old b s
  | 11 => applyAudio old b s
  | 12 => applyChecks boot old b s
  | 13 => applyPermit b s
  | 14 => applyInit boot write b s
  | _ => s

end Sys2Proof.Machine
end

