-- ==== Sys2Proof/Machine/Image.lean ====
section
/-!
DEFINITION. The image loader (R62 to R89, R552): the stages of a load and its checks, application step by step, a reload that
waits at the edges, and the fuses.
-/
namespace Sys2Proof.Machine

/-- A change of the loader's hidden state. -/
def modImg (g : ImgState → ImgState) (s : State) : State := { s with img := g s.img }

def setLoadState (v : Nat) (s : State) : State := s.wr R.IMG_STATUS_LOAD_STATE v

/-- LOAD_STATE: 0 none, 1 READING, 2 VERIFYING, 3 VALIDATING, 4 WAITING, 5 APPLYING, 6 DONE, 7 REFUSED. -/
def loadState (s : State) : Nat := s.rd R.IMG_STATUS_LOAD_STATE

/-! ### The start of a load and its refusal -/

/-- The device asks for `n` bytes of the image (R72, R543): of the flash by command 0x0B in single-bit mode and 0x6B in quad mode, each
with a 3-byte address and 8 dummy clocks (log 118). -/
def readImage (src addr n : Nat) (s : State) : State :=
  if src = 0 then s.send (.qspiRead ((if s.rd R.PWR_BOOT_BOOTSEL = 2 then 0x0B else 0x6B) * 2 ^ 24 + addr % 2 ^ 24) 8 n) else s

/-- A load begins to read (R72, R552). -/
def imgStart (src addr : Nat) (boot secondary : Bool) (s : State) : State :=
  setLoadState 1 (modImg (fun o => { o with
    staging := [], src := src, addr := addr, boot := boot, secondary := secondary, headerRead := false, waited := 0, todo := [] })
    (readImage src addr 0x200 s))

/-- The boot load (R72, R511): the primary copy in QSPI flash, or nothing until firmware writes GO. -/
def bootLoad (s : State) : State :=
  let sel := s.rd R.PWR_BOOT_BOOTSEL
  if sel = 0 ∨ sel = 2 then imgStart 0 0 true false s else s

/-- The load is refused (R70): code, section and offset, without the event. -/
def imgRefused (code sec off : Nat) (s : State) : State :=
  let s := (s.wr R.IMG_STATUS_CODE code).wr R.IMG_STATUS_SECTION sec
  setLoadState 7 (modImg (fun o => { o with staging := [], todo := [] }) (s.wr R.IMG_DETAIL_OFFSET off))

/-- The load is refused and IMG_REFUSED raised; a refused primary copy at boot is followed by the secondary (R72). -/
def imgRefuse (code sec off : Nat) (s : State) : State :=
  let s := (imgRefused code sec off s).raise 0x0202 code
  if s.img.boot && !s.img.secondary && code != 0x11 then imgStart 0 0x400000 true true s
  else modImg (fun o => { o with boot := false }) s

/-- IMG_GO: a write of 1 to GO (R77, R70, R82). -/
def imgGo (s : State) : State :=
  if 1 ≤ loadState s ∧ loadState s ≤ 5 then s.wr R.IMG_STATUS_BUSY_HIT 1
  else
    let src := s.rd R.IMG_CTRL_SRC
    let lo := s.rd R.IMG_SRC_LO_ADDR
    let s := modImg (fun o => { o with wait := s.rd R.IMG_CTRL_WAIT_TICKS, boot := false, secondary := false }) s
    if 2 ≤ src ∨ lo % 64 ≠ 0 then imgRefuse 1 0 0 s
    else imgStart src (if src = 0 then lo else s.rd R.IMG_SRC_HI_ADDR * 2 ^ 32 + lo) false false s

/-- IMG_CANCEL: a write of 1 to CANCEL refuses a waiting reload (R82). -/
def imgCancel (s : State) : State := if loadState s = 4 then imgRefuse 0x10 0 0 s else s

/-! ### The stages of a load -/

/-- IMG_READ_DONE: a part of the image has been read, or the read that begins at offset `fail` has failed (R552). A part of
another length than the device reads is no part of a load. -/
def imgReadDone (bytes : List Byte) (fail : Option Nat) (s : State) : State :=
  if loadState s ≠ 1 then s
  else
    match fail with
    | some o => imgRefuse 1 0 o s
    | none =>
      if s.img.headerRead = false then
        if bytes.length ≠ 0x200 then s
        else
          match (headerFaults bytes).head? with
          | some (c, o) => imgRefuse c 0 o s
          | none => readImage s.img.src (s.img.addr + 0x200) (imageSize bytes - 0x200)
              (modImg (fun o => { o with staging := bytes, headerRead := true }) s)
      else if bytes.length + 0x200 ≠ imageSize s.img.staging then s
      else setLoadState 2 (modImg (fun o => { o with staging := o.staging ++ bytes }) s)

/-- A key slot accepts a key hash (R66). -/
def keyKnown (f : Fuses) (h : List Byte) : Bool :=
  (f.hash0 == some h && !f.revoked0) || (f.hash1 == some h && !f.revoked1)

/-- IMG_VERIFY_DONE: key, signature and security version (R65 to R68). -/
def imgVerifyDone (s : State) : State :=
  if loadState s ≠ 2 then s
  else
    let d := s.img.staging
    let n := d.length - 96
    let key := (d.drop 0x40).take 96
    let provisioned := s.fuses.hash0.isSome || s.fuses.hash1.isSome
    let sig := d.drop n
    if provisioned && !keyKnown s.fuses (sha384 key) then imgRefuse 6 0 0x40 s
    else if !ecdsaVerify (ofBeBytes (key.take 48)) (ofBeBytes (key.drop 48)) (d.take n)
        (ofBeBytes (sig.take 48)) (ofBeBytes (sig.drop 48)) then imgRefuse 7 0 n s
    else if imageSvn d < s.fuses.svn
        || (imagePartial d && s.rdb R.IMG_STATUS_CONFIGURED && decide (imageSvn d < s.rd R.IMG_SVN_IMAGE_SVN)) then
      imgRefuse 8 0 0x0C s
    else setLoadState 3 (modImg (fun o => { o with unprov := !provisioned }) s)

/-- The least of a list, if it has one. -/
def least : List Nat → Option Nat
  | [] => none
  | x :: xs => some (xs.foldl min x)

/-- The offset in the image of a section's field. -/
def imageOffset (d : List Byte) (t o : Nat) : Nat :=
  match dirEntry d t with | some (_, _, base, _) => base + o | none => o

/-- The bodies that a load is checked with: its own sections, and for a partial image those in force beside them. -/
def loadBody (s : State) (d : List Byte) (t : Nat) : List Byte :=
  if hasSection d t then sectionBody d t else if imagePartial d then s.section_ t else []

/-- A unit allocation gives work to a withdrawn unit (R87). -/
def withdrawnCross (s : State) (b : List Byte) : List (Nat × Nat) :=
  let offs := (List.range 24).flatMap (fun f => span (64 + 80 * f) 72) ++ (List.range 64).flatMap fun n => span (1984 + 4 * n) 3
  (offs.filter fun o => decide (b8 b o < 32) && (s.unit (b8 b o)).withdrawn).map fun o => (4, o)

/-- The first disagreement under CROSS_CHECK: section and offset in the image of its lowest field that takes part. A partial image
loaded while no image is in force has only its own sections to disagree. -/
def crossFault (s : State) (d : List Byte) : Option (Nat × Nat) :=
  let enabled (p : Nat) := s.rdb (R.PORT_CFG_ENABLE p)
  let alone := imagePartial d && !s.rdb R.IMG_STATUS_CONFIGURED
  let all := ((allCross enabled (loadBody s d)).filter fun c => !alone || c.all fun x => hasSection d x.1).flatten
    ++ (if imagePartial d && !alone && hasSection d 8 then protCross s (sectionBody d 8) else [])
    ++ (if imagePartial d && !alone && hasSection d 4 then withdrawnCross s (sectionBody d 4) else [])
  let mine := (all.filter fun x => hasSection d x.1).map fun x => (imageOffset d x.1 x.2, x.1)
  mine.foldl (fun m x => match m with | none => some (x.2, x.1) | some y => some (if x.1 < y.2 then (x.2, x.1) else y)) none

/-- The first refusal of the checks 0x09 to 0x12 in the order of R70: code, section, offset. -/
def validateFault (s : State) (d : List Byte) : Option (Nat × Nat × Nat) :=
  let dir := (directoryFaults d).foldl (fun (m : Option (Nat × Nat)) x =>
    match m with | none => some x | some y => some (if x.1 < y.1 then x else y)) none
  match dir with
  | some (o, t) => some (9, t, o)
  | none =>
  match if imagePartial d then none else requiredTypes.find? fun t => !hasSection d t with
  | some t => some (0xA, t, 0xA0)
  | none =>
  match sectionTypes.findSome? (fun t => if hasSection d t then (least (sectionFaults t (sectionBody d t))).map fun o => (t, o) else none) with
  | some (t, o) => some (0xB, t, imageOffset d t o)
  | none =>
  let loaded := s.rdb R.IMG_STATUS_CONFIGURED
  match crossFault s d with
  | some (t, o) => some (0xC, t, o)
  | none =>
  match if imagePartial d then (dirUsed d).find? fun e => !reloadableTypes.contains e.2.1 else none with
  | some (i, t, _) => some (0xD, t, 0xA0 + 16 * i)
  | none =>
  if imagePartial d != loaded then some (0xD, 0, 7)
  else if imagePartial d && (b32 d 0x18 != s.rd R.IMG_BUILD_LO_BUILD || b32 d 0x1C != s.rd R.IMG_BUILD_HI_BUILD) then
    some (0xE, 0, 0x18)
  else
    match if imagePartial d then none else s.img.failed with
    | some (t, o) => some (0x11, t, o)
    | none =>
    if s.fuses.injForbid && hasSection d 13 && b8 (sectionBody d 13) 0 != 0 then some (0x12, 13, imageOffset d 13 0)
    else none

/-- IMG_VALIDATE_DONE: the checks of the sections (R70). An accepted full image begins to be applied, a partial one waits. -/
def imgValidateDone (s : State) : State :=
  if loadState s ≠ 3 then s
  else
    let d := s.img.staging
    match validateFault s d with
    | some (c, t, o) => imgRefuse c t o s
    | none =>
      if imagePartial d then setLoadState 4 (modImg (fun o => { o with waited := 0 }) s)
      else
        let s := setLoadState 5 (s.wr R.IMG_STATUS_CODE 0)
        let s := modImg (fun o => { o with todo := applyOrder.filter (hasSection d) }) s
        applySection true (fun _ _ _ s => s) [] 9 (sectionBody d 9) s

/-! ### Application of a full image (R73, R75) -/

/-- Application stops at the step of section `t` (R75). -/
def applyFail (t : Nat) (s : State) : State :=
  let o := imageOffset s.img.staging t 0
  imgRefuse 0x11 t o (modImg (fun x => { x with failed := some (t, o) }) s)

/-- The cues that the image gives to units withdrawn before a warm reset go to stand-ins (R55, R57). -/
def moveWithdrawn (s : State) : State :=
  (List.range 32).foldl (fun s u => s.when (s.unit u).withdrawn (moveUnitCue [u] u)) s

/-- The last step is done: the image is in force (R73), under R67 if the device is unprovisioned. It counts as applied for R69 from
now on, and so does none whose application stopped. DESIGN CHOICE (log 107). -/
def imgLoaded (s : State) : State :=
  let d := s.img.staging
  let s := (s.wr R.IMG_BUILD_LO_BUILD (b32 d 0x10)).wr R.IMG_BUILD_HI_BUILD (b32 d 0x14)
  let s := (s.wr R.IMG_SVN_IMAGE_SVN (imageSvn d)).wr R.IMG_SECT_RELOADED_TYPES 0
  let s := (s.wr R.IMG_STATUS_CONFIGURED 1).wr R.IMG_STATUS_FROM_SECONDARY (b2n (s.img.boot && s.img.secondary))
  let s := s.wr R.IMG_STATUS_UNPROVISIONED (b2n s.img.unprov)
  let s := modImg (fun o => { o with staging := [], boot := false, applied := true }) (setLoadState 6 s)
  let s := { s with tick := { s.tick with countAll := true } }
  let s := (refreshHier (moveWithdrawn s)).raise 0x0201 0
  s.when s.img.unprov (·.raise 0x0204 0)

/-- The step of section `t` can complete: the planned domains have been switched on. -/
def stepReady (s : State) (t : Nat) : Bool := t != 9 || (s.power.switching.isEmpty && s.power.toSwitch.isEmpty)

/-- IMG_APPLY_STEP_DONE: the present step completes, or cannot; `failed` are the channels whose training failed in the memory
step (R342); `write` makes the writes that initial-register records start (R524). -/
def imgApplyStepDone (write : Nat → Nat → Nat → State → State) (ok : Bool) (failed : List Nat) (s : State) : State :=
  if loadState s ≠ 5 then s
  else
    match s.img.todo with
    | [] => s
    | t :: ts =>
      let d := s.img.staging
      let hurt := t == 6 && (usedChannels (partitionsOf (sectionBody d 6))).any failed.contains
      if !ok || hurt then applyFail t s
      else if !stepReady s t then s
      else
        let s := if t = 9 then s else applySection true write failed t (sectionBody d t) s
        let s := modImg (fun o => { o with todo := ts }) s
        if ts.isEmpty then imgLoaded s else s

/-! ### Reloads (R80 to R87) -/

/-- An object's record differs between two bodies. -/
def recDiffers (old b : List Byte) (n i : Nat) : Bool := bodyRec old n i != bodyRec b n i

/-- The EDID blocks of sink `p` in a port map. -/
def edidBytes (b : List Byte) (p : Nat) : List Byte := (b.drop (b32 b (32 * p + 12))).take (128 * b8 b (32 * p + 10))

/-- Panel `p` changes (R80). -/
def panelChanges (old b : List Byte) (p : Nat) : Bool :=
  senseRecOf old 1 p != senseRecOf b 1 p || (span (4 * p) 4).any fun o =>
    senseRecOf old 2 o != senseRecOf b 2 o
      || match senseRecOf b 2 o with
         | some r => senseRecOf old 4 (b8 r 5) != senseRecOf b 4 (b8 r 5)
         | none => false

/-- The condition of R80 on section `t` with new body `b`. -/
def reloadReady (s : State) (t : Nat) (b : List Byte) : Bool :=
  let old := s.section_ t
  let off (f : Nat) := !wDefined (s.section_ 3) f || !flueRuns s f
  match t with
  | 1 => (List.range 128).all fun n => !recDiffers old b 8 n || (match lanePort s n with
      | none => true
      | some p => !portOn s p && laneState s n == 1)
  | 2 => (List.range 53).all fun p =>
      !(recDiffers old b 32 p || (decide (p < 16) && edidBytes old p != edidBytes b p))
        || (!portOn s p && (decide (p < 49) || linkState s (p - 49) == 0))
  | 3 => (List.range 24).all (fun f => bodyRec (old.drop 64) 64 f == bodyRec (b.drop 64) 64 f || off f)
      && (old.take 3 == b.take 3 || ((List.range 24).all off && (List.range 4).all fun k => !linkActive s k))
  | 4 => (List.range 24).all fun f => off f || ((List.range 72).all (fun k =>
        s.comp.bandUnits.get (fun _ => 0xFF) (f * 128 + k) == b8 b (64 + 80 * f + k))
      && s.rd (R.CMP_FLUE_DIRECT_UNIT f) == allocDirect b f)
  | 9 => (List.range 4).all fun r => bitOf (b32 b 0) (regionDomain r) || (span (8 * r) 8).all fun u => !holdsWork s u
  | 10 => (List.range 4).all (fun p => !panelChanges old b p || !s.rdb (R.TCH_PNL_CTRL_ENABLE p))
      && (List.range 24).all fun f => senseRecOf old 3 f == senseRecOf b 3 f || !s.rdb (R.SNT_FLUE_CFG_ENABLE f)
  | 11 => (audioOffsets old ++ audioOffsets b).all fun a => audioRecWords old a == audioRecWords b a
      || (List.range 8).all fun k => !blockRuns s (a + 4 * k)
  | 12 => (List.range 16).all fun i => !recDiffers old b 32 i || !s.rdb (R.CHK_CU_CFG_ENABLE i)
  | 14 => (initRecords b).all fun r => r.2.1 &&& accMask .rwl r.1 == 0 || !blockRuns s r.1
  | _ => true

/-- No fault hold is in progress and no record is QUEUED, HANDLING or RETRY (R80). -/
def faultsQuiet (s : State) : Bool :=
  !s.rdb R.WDN_STATUS_HOLD && s.faults.openRecs.all fun i => s.rd (R.WDN_LOG_W1_STATE i) == 4

/-- The types of an image's sections as bits. -/
def typeBits (d : List Byte) : Nat := (sectionTypes.filter (hasSection d)).foldl (fun x t => x + 2 ^ t) 0

/-- A reload is over: its protection regions have drained (R81, R85). -/
def reloadDone (m : Nat) (s : State) : List (Nat × Nat) × State :=
  let s := setLoadState 6 (modImg (fun o => { o with reloaded := none }) s)
  ((0x0203, m) :: if s.img.unprov then [(0x0204, 0)] else [], s)

/-- The tick edge's part of a waiting reload (R80 to R87): the conditions, the repeated cross-checks, and the application of
every section at once; the events it raises. A reload whose edges are used up is refused. -/
def imgTickEdge (write : Nat → Nat → Nat → State → State) (s : State) : List (Nat × Nat) × State :=
  if loadState s ≠ 4 then ([], s)
  else if max 1 s.img.wait ≤ s.img.waited then ([(0x0202, 0x0F)], imgRefused 0x0F 0 0 s)
  else
    let s := modImg (fun o => { o with waited := o.waited + 1 }) s
    let d := s.img.staging
    let ts := applyOrder.filter (hasSection d)
    if faultsQuiet s && ts.all fun t => reloadReady s t (sectionBody d t) then
      match crossFault s d with
      | some (t, o) => ([(0x0202, 0x0C)], imgRefused 0x0C t o s)
      | none =>
        let s := ts.foldl (fun s t => applySection false write [] t (sectionBody d t) s) (setLoadState 5 s)
        let s := s.wr R.IMG_STATUS_CODE 0
        let s := s.wr R.IMG_SECT_RELOADED_TYPES (s.rd R.IMG_SECT_RELOADED_TYPES ||| typeBits d / 2)
        let s := s.wr R.IMG_WAITED_EDGES (satTo 16 s.img.waited)
        let s := modImg (fun o => { o with staging := [], applied := true }) s
        if s.mem.drains.any (·.object == 0xFF) then ([], modImg (fun o => { o with reloaded := some (typeBits d) }) s)
        else reloadDone (typeBits d) s
    else ([], s)

/-- IMG_IDLE_TIMEOUT: WAIT_TICKS edges have passed without the conditions of R80 (R82). -/
def imgIdleTimeout (s : State) : State :=
  if loadState s = 4 && decide (max 1 s.img.wait ≤ s.img.waited) then imgRefuse 0x0F 0 0 s else s

/-- MPU_DRAINED, with the end of a reload whose regions it was waiting for (R85, R364). -/
def mpuDrainedThen (u : Nat) (s : State) : State :=
  let s := mpuDrained u s
  match s.img.reloaded with
  | some m =>
    if s.mem.drains.any (·.object == 0xFF) then s
    else let (evs, s) := reloadDone m s; raiseAll evs s
  | none => s

/-! ### Fuses (R66 to R69) -/

/-- The registers that show the fuses. -/
def refreshFuses (s : State) : State :=
  let f := s.fuses
  let s := (s.wr R.IMG_FUSE_STAT_SLOT0_PROG (b2n f.hash0.isSome)).wr R.IMG_FUSE_STAT_SLOT0_REVOKED (b2n f.revoked0)
  let s := (s.wr R.IMG_FUSE_STAT_SLOT1_PROG (b2n f.hash1.isSome)).wr R.IMG_FUSE_STAT_SLOT1_REVOKED (b2n f.revoked1)
  (s.wr R.IMG_FUSE_STAT_INJ_FORBID (b2n f.injForbid)).wr R.IMG_SVN_FUSE_SVN f.svn

/-- A fuse operation that R69 allows blows its fuses; any other is refused. -/
def fuseOp (ok : Bool) (g : Fuses → Fuses) (s : State) : State :=
  if ok then refreshFuses ({ s with fuses := g s.fuses }.wr R.IMG_FUSE_STAT_LAST_RESULT 0)
  else s.wr R.IMG_FUSE_STAT_LAST_RESULT 1

/-- The key hash in IMG_FUSE_DATA. -/
def fuseData (s : State) : List Byte := (List.range 12).flatMap fun k => leBytes 4 (s.rd (R.IMG_FUSE_DATA_HASH k))

def fuseProgramSlot0 (s : State) : State :=
  fuseOp (!s.img.applied && s.fuses.hash0.isNone) (fun f => { f with hash0 := some (fuseData s) }) s

def fuseProgramSlot1 (s : State) : State :=
  fuseOp (!s.img.applied && s.fuses.hash1.isNone) (fun f => { f with hash1 := some (fuseData s) }) s

def fuseRevokeSlot0 (s : State) : State :=
  let f := s.fuses
  fuseOp (!s.img.applied && f.hash0.isSome && !f.revoked0 && f.hash1.isSome && !f.revoked1)
    (fun f => { f with revoked0 := true }) s

def fuseRevokeSlot1 (s : State) : State :=
  let f := s.fuses
  fuseOp (!s.img.applied && f.hash1.isSome && !f.revoked1 && f.hash0.isSome && !f.revoked0)
    (fun f => { f with revoked1 := true }) s

def fuseAdvanceSvn (s : State) : State :=
  fuseOp (s.rdb R.IMG_STATUS_CONFIGURED && decide (s.fuses.svn < s.rd R.IMG_SVN_IMAGE_SVN)) (fun f => { f with svn := f.svn + 1 }) s

def fuseBlowInjForbid (s : State) : State := fuseOp true (fun f => { f with injForbid := true }) s

/-- A write of IMG_FUSE_PROG: acted on only with its UNLOCK (R88). -/
def fuseProg (w : Nat) (s : State) : State :=
  if bits w 31 16 ≠ 0xA5C3 then s
  else
    match bits w 3 0 with
    | 1 => fuseProgramSlot0 s
    | 2 => fuseProgramSlot1 s
    | 3 => fuseRevokeSlot0 s
    | 4 => fuseRevokeSlot1 s
    | 5 => fuseAdvanceSvn s
    | 6 => fuseBlowInjForbid s
    | _ => s

end Sys2Proof.Machine
end

