-- ==== Sys2Proof/Machine/Reset.lean ====
section
/-!
DEFINITION. Resets (R505 to R511, R519, R527): PORST_N, warm reset, the power-up of the domains and its time limit, and the
resets of the PCIe endpoint (R412).
-/
namespace Sys2Proof.Machine

/-- The PCIe endpoint's lanes and port as they are before any image (R370, R410, R511). -/
def bootPcie (s : State) : State :=
  let s := (List.range 4).foldl (fun s n =>
    ((s.wr (R.LANE_CFG_PORT n) 48).wr (R.LANE_CFG_INDEX n) n).wr (R.LANE_CFG_MAX_RATE n) 0xC) s
  let s := ((s.wr (R.PORT_CFG_TYPE 48) 4).wr (R.PORT_CFG_LANES 48) 2).wr (R.PORT_CFG_MAX_RATE 48) 0xC
  refreshQuad s

/-- PORST_ASSERT: everything resets but the fuses (R508). -/
def porstAssert (s : State) : State :=
  refreshFuses { State.reset with fuses := s.fuses, sent := s.sent, freeCount := s.freeCount, pending := s.pending }

/-- PORST_RELEASE: BOOTSEL is latched, PD0 leaves reset, and PD1 and PD2 are to be switched on (R505, R511). -/
def porstRelease (bootsel : Nat) (s : State) : State :=
  if s.power.porst then
    let s := (s.wr R.PWR_BOOT_BOOTSEL bootsel).wr R.PWR_STATUS_POWERED 1
    let s := bootPcie { s with power := { s.power with porst := false, toSwitch := [1, 2] } }
    switchNext s
  else s

/-- The PCIe endpoint begins its link training (R511). -/
def pcieTrain (s : State) : State :=
  (List.range 4).foldl (fun s n => laneWake n s) (s.wr (R.PORT_STATUS_STATE 48) 1)

/-- DOMAIN_SWITCH_DONE; with PD1 the boot load begins (R72), with PD2 the training of the PCIe link (R511). -/
def domainSwitched (d : Nat) (s : State) : State :=
  if s.power.switching.contains d then
    (domainSwitchDone d s).when (d == 1) bootLoad |>.when (d == 2) pcieTrain
  else s

/-- DOMAIN_POWER_TIMEOUT: 200 µs after its switch began domain `d` has no power (R506, R507): the switch of a region reports a
fault, which is REGION_POWER (R230). -/
def domainPowerTimeout (d : Nat) (s : State) : State :=
  if s.power.switching.contains d && decide (s.power.switchNs.get (fun _ => 0) d + 200000 ≤ s.monoNs) then
    let s := setBit R.PWR_DOMAIN_FAULT_TRIPPED d true (failOff d s)
    if loadState s = 5 ∧ s.img.todo.head? = some 9 then
      refreshSeq (applyFail 9 { s with power := { s.power with toSwitch := [] } })
    else
      let region := (domainRegion d).any (regionResetting s)
      let s := s.when (s.rdb R.IMG_STATUS_CONFIGURED && !region) (raisePwr 0x1901 d)
      let s := match domainRegion d with
        | some r => s.when (s.rdb R.IMG_STATUS_CONFIGURED) (logFault 0x08 2 r false)
        | none => s
      switchNext s
  else s

/-! ### Warm reset (R508 to R510, R527) -/

/-- The registers that keep their values over a warm reset (R527), and those of the PCIe link, which stays up (R508). -/
def keptOffset (a : Nat) : Bool :=
  (decide (0xE0000 ≤ a) && decide (a < 0xF0000)) || (decide (0x1B0000 ≤ a) && decide (a < 0x1C0000))
    || (decide (0xC1000 ≤ a) && decide (a < 0xC2000)) || a == 0xC0004 || a == 0xC0008 || a == 0x20028 || a == 0x8
    || (decide (0x161000 ≤ a) && decide (a < 0x161100)) || a == 0x174004 || a == 0x174014

/-- A warm reset, from the ball or from PWR_RESET: the notice to the other packages, the log's open records LOGGED, the
host's reads answered, everything cleared that R508 and R527 do not keep, and the load begun again. Withdrawn units hold
themselves idle until they pass their canaries (R57). -/
def warmReset (ball : Bool) (s : State) : State :=
  if s.power.porst || s.rdb R.PWR_STATUS_THERMTRIP then s
  else
    let s := warmNotice s
    let s := s.faults.openRecs.foldl (fun s i => setRecState i 0xA s) s
    let s := s.mem.outstanding.foldl (fun s (o : Outstanding) =>
      if o.access.src = 152 ∧ o.access.write = false then s.send (.unsupportedRequest 152 o.access.addr) else s) s
    let after := s.rd R.WDN_STATUS_PKG_FAULT
    let up := bits (s.word (R.LANE_UP_UP 0).addr).toNat 3 0
    let link := (s.rd R.PORT_PCIE_LINK_GEN, s.rd R.PORT_PCIE_LINK_WIDTH)
    let fresh : State := {
      regs := s.regs.filter fun (p : Nat × Word) => keptOffset p.1
      shadow := s.shadow.filter fun (p : Nat × Word) => keptOffset p.1
      time := s.time
      comp := { units := s.comp.units.filterMap fun (p : Nat × UnitState) =>
        if p.2.withdrawn then some (p.1, { withdrawn := true, rejoining := true }) else none }
      evq := { msixEnabled := s.evq.msixEnabled, msixMasked := s.evq.msixMasked, msixPending := s.evq.msixPending }
      power := { porst := false, monitors := s.power.monitors }
      faults := { recs := s.faults.recs, seq := s.faults.seq }
      lanes := s.lanes.filter fun (p : Nat × LaneState) => decide (p.1 < 4)
      ports := s.ports.filter fun (p : Nat × PortState) => p.1 == 48
      img := { applied := s.img.applied }
      fuses := s.fuses, sent := s.sent, freeCount := s.freeCount, pending := s.pending }
    let s := (fresh.wr (R.LANE_UP_UP 0) up).wr R.PORT_PCIE_LINK_GEN link.1 |>.wr R.PORT_PCIE_LINK_WIDTH link.2
    let s := ((s.wr R.PWR_STATUS_PKG_FAULT 0).wr R.PWR_STATUS_SEQ_BUSY 0).wr R.PWR_STATUS_POWERED 7
    let s := ((s.wr R.PWR_RST_CAUSE_PORST 0).wr R.PWR_RST_CAUSE_AFTER_FAULT after).wr R.PWR_RST_CAUSE_WARM_COUNT
      (satTo 16 (s.rd R.PWR_RST_CAUSE_WARM_COUNT + 1))
    let s := (s.wr R.PWR_RST_CAUSE_WARM_BALL (b2n ball)).wr R.PWR_RST_CAUSE_WARM_REG (b2n !ball)
    bootLoad (quadrantOn 0 (bootPcie (refreshFuses s)))

/-- WARM_RST_N held low for 10 µs. -/
def warmRstN (s : State) : State := warmReset true s

/-- A write of PWR_RESET: a warm reset when it carries the key and WARM (R509). -/
def pwrReset (w : Nat) (s : State) : State := if bits w 31 16 = 0x3C5A ∧ bitOf w 0 then warmReset false s else s

/-! ### Resets of the PCIe endpoint (R412) -/

/-- PORT_PCIE_RESET: a function-level reset (kind 0), a hot reset (1) or a link-down (2) of the endpoint. The reset's event
waits for the link to be up again. -/
def portPcieReset (kind : Nat) (s : State) : State :=
  let s := { s with
    evq := { s.evq with msixEnabled := false, msixMasked := List.range 64, msixPending := [] }
    mem := { s.mem with outstanding := s.mem.outstanding.filter fun (o : Outstanding) => o.access.src != 152 } }
  let s := s.wr R.PORT_PCIE_LINK_RESETS (satTo 8 (s.rd R.PORT_PCIE_LINK_RESETS + 1))
  let s := if loadState s = 1 ∧ s.img.src = 1 then
      imgRefuse 1 0 (if s.img.headerRead then 0x200 else 0) s else s
  if kind = 0 then s.raise 0x1309 48
  else
    let s := (portLeavesUp 48 1 s).wr (R.PORT_STATUS_PARTNER 48) 0
    let s := (s.wr R.PORT_PCIE_LINK_GEN 0).wr R.PORT_PCIE_LINK_WIDTH 0
    s.setPort 48 { s.port 48 with resetDue := true }

end Sys2Proof.Machine
end

