-- ==== Sys2Proof/Machine/RegWrite.lean ====
section
/-!
DEFINITION. A write to any offset of the control aperture (R522 to R528): registers with behaviour of their own act as the
commands of their own rows do, every other one by the access types of its fields.
-/
namespace Sys2Proof.Machine

/-- A write to a register of the layer table; a CONTENT bit written after the seal waits for a later commit (R221). -/
def layerWrite (t a w : Nat) (s : State) : State :=
  let l := (a - 0x40000) / 64
  let s := applyTouched t a w s
  if a = (R.LYR_CTRL_CONTENT l).addr ∧ s.sealed.isSome ∧ bitOf t (R.LYR_CTRL_CONTENT l).lo then
    modClap (fun o => { o with contentSince := if o.contentSince.contains l then o.contentSince else l :: o.contentSince }) s
  else s

/-- A write of WDN_LOG_PTR.RD: the records before it count as read (R233). -/
def logPtrWrite (a w : Nat) (s : State) : State :=
  let old := s.rd R.WDN_LOG_PTR_RD
  let s := applyWrite a w s
  if s.rd R.WDN_LOG_PTR_RD = old then s
  else s.wr R.WDN_LOG_STAT_UNREAD ((s.rd R.WDN_LOG_PTR_WR + 256 - s.rd R.WDN_LOG_PTR_RD) % 256)

/-- The MSI-X table and pending bits that the endpoint answers at BAR0 (R411): word 3 of an entry holds its mask bit. A vector
unmasked while its bit is pending sends its message. -/
def msixWrite (a w : Nat) (s : State) : State :=
  let s := { s with evq := { s.evq with msixEnabled := true } }
  let v := (a - 0xFE0000) / 16
  if a < 0xFE0400 ∧ a % 16 = 12 then
    if bitOf w 0 then
      { s with evq := { s.evq with msixMasked := if s.evq.msixMasked.contains v then s.evq.msixMasked else v :: s.evq.msixMasked } }
    else
      let due := s.evq.msixPending.contains v
      let s := { s with evq := { s.evq with msixMasked := s.evq.msixMasked.filter (· ≠ v)
                                            msixPending := s.evq.msixPending.filter (· ≠ v) } }
      s.when due (·.send (.msix v))
  else s

/-- A write of word `w` to the fields of the register at offset `a` of the control aperture that mask `t` touches (R64),
behaviour included; `w` is 0 in every W1S field that it does not touch. -/
def regWriteTouched (t a w : Nat) (s : State) : State :=
  let plain := applyTouched t a w
  if a = 0x20 then glbEvqRdWrite w s
  else if a = 0x220 ∨ a = 0x224 then intPendClear ((a - 0x220) / 4) w s
  else if a = 0x10004 then (plain s).when (bitOf w 2) resync
  else if a = 0x20000 then ((plain s).when (bitOf w 1) imgCancel).when (bitOf w 0) imgGo
  else if a = 0x2002C then fuseProg w s
  else if a = 0x30000 then s.when (bitOf w 0) clapArm
  else if a = 0x3001C then (plain s).when (bitOf w 1) clapDiscard
  else if 0x40000 ≤ a ∧ a < 0x80000 then layerWrite t a w s
  else if a = 0xC0004 then logPtrWrite a w s
  else if a = 0xE0000 then (s.when (bitOf w 1) tmbStep).when (bitOf w 0) tmbSnap
  else if a = 0xE0008 then tmbIncWrite w s
  else if a = 0xE000C then tmbFracWrite w s
  else if a = 0xE005C then ptpTxWrWrite w s
  else if 0xE0100 ≤ a ∧ a < 0xE0300 ∧ a % 0x20 = 0 then tmoEnableTouched t ((a - 0xE0100) / 0x20) w s
  else if 0xF0100 ≤ a ∧ a < 0xF0300 ∧ a % 0x20 = 0 then (plain s).when (bitOf w 24) (chkRestartWrite ((a - 0xF0100) / 0x20))
  else if 0x120000 ≤ a ∧ a < 0x130000 ∧ a % 0x200 = 0xC then (plain s).when (bitOf w 31) (encIdrReq ((a - 0x120000) / 0x200))
  else if a = 0x150020 ∨ a = 0x154020 ∨ a = 0x158020 then
    (plain s).when (bitOf w 31) (mpuUpdGo ((a - 0x150000) / 0x4000) (bits w 7 0))
  else if 0x161000 ≤ a ∧ a < 0x163000 ∧ a % 0x40 = 4 then (plain s).when (bitOf w 31) (laneSurvey ((a - 0x161000) / 0x40))
  else if 0x161000 ≤ a ∧ a < 0x163000 ∧ a % 0x40 = 0x20 then
    let n := (a - 0x161000) / 0x40
    (s.when (t != 2 ^ 23) (laneTestTouched t n w)).when (bitOf w 23) (laneErrOne n)
  else if a = 0x180C00 then (plain s).when (bitOf w 31) crlRegGo
  else if 0x190400 ≤ a ∧ a < 0x190480 ∧ a % 0x20 = 4 then slotMaskWrite ((a - 0x190400) / 0x20) w s
  else if 0x190100 ≤ a ∧ a < 0x190300 ∧ 8 ≤ a % 0x40 ∧ s.rd (R.AUD_IEC_CFG_MODE ((a - 0x190100) / 0x40)) = 1 then s
  else if 0x1A0100 ≤ a ∧ a < 0x1A0200 ∧ a % 0x40 = 0 then
    let p := (a - 0x1A0100) / 0x40
    ((plain s).when (bitOf w 29) (tchTest p)).when (bitOf w 28) (tchSurvey p)
  else if a = 0x1B0010 then pwrReset w s
  else if 0x1C0100 ≤ a ∧ a < 0x1C0130 then injRxCfgWrite ((a - 0x1C0100) / 4) w s
  else if a = 0x1C0200 then injVoterWrite w s
  else if a = 0x1C0300 then injDramWrite w s
  else if a = 0x1C0400 then injLaneWrite w s
  else plain s

/-- A write of word `w` to offset `a` of the control aperture, behaviour included. -/
def regWrite (a w : Nat) (s : State) : State := regWriteTouched allBits a w s

/-- MPU2 lets source `src` write to offset `a`, and no fence holds it back (R337, R357). -/
def mayWrite (s : State) (src a : Nat) : Bool :=
  !isFenced s src && match checkAccess s src true (0x4010000000 + a) with | .permitted _ => true | .refused _ _ => false

/-- REGISTER_WRITE: source `src` writes `w` to offset `a` with byte enables `be` (R523), an access whose check ACCESS_CHECK has
recorded (R357). The PCIe endpoint answers its own window (R411); without PD1 there is nothing to write to. -/
def registerWrite (src a w be : Nat) (s : State) : State :=
  if src = 152 ∧ 0xFE0000 ≤ a ∧ a < 0xFE0808 then (if be = 15 then msixWrite a w s else s)
  else if s.powered 1 = false ∨ mayWrite s src a = false then s
  else if be ≠ 15 then (s.wr R.GLB_ACCESS_PARTIAL (satTo 8 (s.rd R.GLB_ACCESS_PARTIAL + 1))).wr R.GLB_ACCESS_OFFSET a
  else regWrite a w s

/-- A read of a word at offset `a`, with the two side effects of R526 that the register's own rows have. -/
def regRead (a : Nat) (s : State) : Nat × State :=
  if 0xE0300 ≤ a ∧ a < 0xE0380 ∧ a = (R.TMC_TS_NS_NS ((a - 0xE0300) / 0x10)).addr then
    let s := tmcTsRead ((a - 0xE0300) / 0x10) s
    (readReg false a s, s)
  else (readReg false a s, s)

end Sys2Proof.Machine
end

