-- ==== Sys2Proof/Machine/TickSource.lean ====
section
/-!
DEFINITION. What drives the tick (R12 to R17, R431, R434, R452): the predicted edges of the selected source, its lock and its
loss, the election of the system tick master, and where the next tick edge lies.
-/
namespace Sys2Proof.Machine

/-- A change of the tick's hidden state. -/
def modTick (g : TickState → TickState) (s : State) : State := { s with tick := g s.tick }

/-- This package is the system tick master. -/
def isMaster (s : State) : Bool := s.rdb R.CRL_SYS_MASTER_VALID && s.rd R.CRL_SYS_MASTER_ID == pkgId s

/-- TICK_CTRL.SRC as it drives the tick: a master whose SRC is Crinus runs from its timebase (R434). -/
def tickSrc (s : State) : Nat :=
  let v := s.rd R.TICK_CTRL_SRC
  if v = 3 ∧ isMaster s then 0 else v

/-- The mean interval of the last source edges, in ns, of at most eight intervals; 0 for fewer than two edges. -/
def meanPeriod (es : List Nat) : Nat :=
  let l := es.take 9
  match l.head?, l.getLast? with
  | some a, some b => if l.length < 2 then 0 else (2 * (a - b) + (l.length - 1)) / (2 * (l.length - 1))
  | _, _ => 0

/-- A period lies within ±500 ppm of the rate in TICK_CFG.RATE (R14). -/
def rateGood (s : State) (p : Nat) : Bool :=
  let n := nominalPeriodNs (s.rd R.TICK_CFG_RATE)
  decide (n * 9995 ≤ p * 10000) && decide (p * 10000 ≤ n * 10005)

/-- An edge of the selected source at timebase time `t`: it counts towards the lock when it came within ±2 µs of the edge that
the preceding ones predict (R14). -/
def sourceEdgeAt (t : Nat) (s : State) : State :=
  let es := s.tick.sourceEdges
  let p := meanPeriod es
  let next := es.headD 0 + p
  let good := decide (2 ≤ es.length) && decide (max t next - min t next ≤ 2000)
  let es := if good || decide (es.length < 2) then (t :: es).take 10 else [t, es.headD 0]
  let run := if good then s.tick.goodRun + 1 else 0
  let s := modTick (fun o => { o with sourceEdges := es, goodRun := run }) s
  if decide (8 ≤ run) && rateGood s (meanPeriod es) && !s.rdb R.TICK_STATUS_LOCKED then
    let s := s.wr R.TICK_STATUS_LOCKED 1
    let s := if s.rdb R.TICK_STATUS_HOLDOVER then s else s.wr R.TICK_STATUS_ACTIVE_SRC (tickSrc s)
    (modTick (fun o => { o with selectedPeriods := none }) s).raise 0x0104 (s.rd R.TICK_CTRL_SRC)
  else s

/-- TICK_SOURCE_EDGE: an edge of the selected source arrives: of TICK_IN or of the named sink's active video (R14). An edge of
a Crinus source comes with its EDGE frame. -/
def tickSourceEdge (s : State) : State :=
  if tickSrc s = 1 ∨ tickSrc s = 2 then sourceEdgeAt s.nowNs s else s

/-- The selected source is lost under R15: an expected edge is a quarter of a period overdue, its rate has left the window, or
it has not locked within 16 periods. -/
def sourceLost (s : State) : Bool :=
  let p := meanPeriod s.tick.sourceEdges
  tickSrc s != 0
    && ((s.rdb R.TICK_STATUS_LOCKED
          && (decide (s.tick.sourceEdges.headD 0 + p + p / 4 < s.nowNs) || !rateGood s p))
      || (!s.rdb R.TICK_STATUS_HOLDOVER && s.tick.selectedPeriods.any (17 ≤ ·)))

/-- The units that edges are reckoned in: 1/(2000 N) ns, so that a period and its 500 ppm are whole. -/
def edgeUnit (rate : Nat) : Int := (2000 * (rateFrac rate).1 : Nat)
def periodUnits (rate : Nat) : Int := (2000 * (rateFrac rate).2 * 1000000000 : Nat)

/-- An edge at `cand` is moved toward `target` by at most 500 ppm of the period `p` (R17). -/
def slewTo (p cand target : Int) : Int := cand - max (-(p / 2000)) (min (p / 2000) (cand - target))

/-- The tick runs on from the timebase in nominal periods counted from the instant `base` (R15): the edge after the last one is
the point of that series nearest to one period on, and the tick's phase is not stepped (R17). -/
def freeRunFrom (base : Nat) (s : State) : State :=
  let rate := s.rd R.TICK_CFG_RATE
  let u := edgeUnit rate
  let p := periodUnits rate
  let cand := (s.tick.lastEdgeNs : Int) * u + p
  let k := (2 * (cand - base * u) + p) / (2 * p)
  let next := slewTo p cand (base * u + p * k)
  let at_ := max (s.tick.lastEdgeNs + 2) ((next + u) / (2 * u) * 2).toNat
  (modTick (fun o => { o with runBase := base, runCount := k.toNat, nextEdgeNs := at_, edgeRest := next - at_ * u }) s).wr
    R.TICK_PERIOD_NS_PERIOD ((2 * (next - s.tick.lastEdgeNs * u) + u) / (2 * u)).toNat

/-- TICK_SRC_LOST: the tick runs on from the timebase at the nominal rate, in holdover (R15): from the last good edge of the
source, or from the last tick edge where the tick was still slewing toward it, since the phase is not stepped (R17; log 76). A
source that never locked leaves the tick as it runs. -/
def tickSrcLost (s : State) : State :=
  if sourceLost s then
    let s := s.when (s.rdb R.TICK_STATUS_LOCKED && !s.rdb R.TICK_STATUS_HOLDOVER)
      (freeRunFrom (if s.rdb R.TICK_STATUS_SLEWING then s.tick.lastEdgeNs else s.tick.sourceEdges.headD s.tick.lastEdgeNs))
    let s := modTick (fun o => { o with goodRun := 0, selectedPeriods := none }) s
    let s := (s.wr R.TICK_STATUS_LOCKED 0).wr R.TICK_STATUS_HOLDOVER 1
    ((s.wr R.TICK_STATUS_ACTIVE_SRC 0).wr R.TICK_STATUS_SLEWING 0).raise 0x0103 (s.rd R.TICK_CTRL_SRC)
  else s

/-- A newly selected source (R15): unlocked unless it is the timebase, without predicted edges, the tick free-running from the edge at `base`. -/
def selectSource (base : Nat) (s : State) : State :=
  let s := modTick (fun o => { o with
    sourceEdges := [], goodRun := 0, runBase := base, runCount := 0
    selectedPeriods := if tickSrc s = 0 then none else some 0 }) s
  let s := s.wr R.TICK_STATUS_LOCKED (b2n (tickSrc s == 0 && s.rdb R.TICK_STATUS_RUN))
  (s.wr R.TICK_STATUS_HOLDOVER 0).wr R.TICK_STATUS_ACTIVE_SRC 0

/-- What the TICK_CTRL fields select: SRC, and the sink or the edge of TICK_IN where SRC uses them. -/
def sourceChoice (s : State) : Nat × Nat :=
  let v := s.rd R.TICK_CTRL_SRC
  (v, if v = 1 then s.rd R.TICK_CTRL_IN_EDGE else if v = 2 then s.rd R.TICK_CTRL_SRC_SINK else 0)

/-- The third action of an edge (R17, R220): a change of source by the commit, or a resync, which takes effect only while the
selected source is locked and is used up either way (R16). `before` is the
choice before the commit. -/
def tickSourceCommit (before : Nat × Nat) (s : State) : State :=
  let s := if sourceChoice s = before then s else selectSource s.tick.lastEdgeNs s
  if s.tick.resyncPending then
    let s := modTick (fun o => { o with resyncPending := false }) s
    if s.rdb R.TICK_STATUS_LOCKED then
      (s.wr R.TICK_STATUS_HOLDOVER 0).wr R.TICK_STATUS_ACTIVE_SRC (tickSrc s)
    else s
  else s

/-! ### The next edge (R12, R17, R452) -/

/-- The grid point nearest to `t`: the error lies in (−P/2, +P/2] of the period `p` (R452). -/
def gridNear (p t : Int) : Int :=
  let err := t.emod p
  t - (if p < 2 * err then err - p else err)

/-- The edge of the source that is nearest to `t`, from its last edge and its mean period. -/
def sourceNear (last p t : Nat) : Nat :=
  if p = 0 ∨ t ≤ last then last else last + (2 * (t - last) + p) / (2 * p) * p

/-- The next edge after the present one at `e`: the state with its time, the period now running, SLEWING and PHASE_ERR. The tick
slews while the present edge lies 1 µs or more off the source's. The exact times are kept, so that the rounding to cycles does
not accumulate (R12, R17). -/
def planEdge (e : Nat) (s : State) : State :=
  let rate := s.rd R.TICK_CFG_RATE
  let u := edgeUnit rate
  let p := periodUnits rate
  let t := s.tick
  let ex := (e : Int) * u + t.edgeRest
  let external := tickSrc s != 0 && meanPeriod t.sourceEdges != 0
  let follow := s.rdb R.TICK_STATUS_LOCKED && !s.rdb R.TICK_STATUS_HOLDOVER && tickSrc s != 0
  let near (x : Nat) : Int := (sourceNear (t.sourceEdges.headD 0) (meanPeriod t.sourceEdges) x : Nat)
  let phase : Int := if external then near e - e else 0
  let next : Int × Bool :=
    if follow then (slewTo p (ex + p) (near (e + nominalPeriodNs rate) * u), decide (1000 ≤ phase.natAbs))
    else if s.rd R.TICK_CTRL_SRC = 0 then
      (slewTo p (ex + p) (gridNear p (ex + p)), decide (1000 * u ≤ (ex - gridNear p ex).natAbs))
    else (slewTo p (ex + p) ((t.runBase : Int) * u + p * (t.runCount + 1)), false)
  let at_ := max (e + 2) ((next.1 + u) / (2 * u) * 2).toNat
  let s := modTick (fun o => { o with
    nextEdgeNs := at_, edgeRest := next.1 - at_ * u, runCount := o.runCount + 1
    selectedPeriods := o.selectedPeriods.map (· + 1) }) s
  let s := (s.wr R.TICK_PERIOD_NS_PERIOD ((2 * (next.1 - ex) + u) / (2 * u)).toNat).wr R.TICK_STATUS_SLEWING (b2n next.2)
  s.wr R.TICK_PHASE_ERR_ERR ((max (-2147483647) (min 2147483647 phase)).emod (2 ^ 32)).toNat

/-! ### The system tick master (R431, R434) -/

/-- A tick number was within the last 8 ticks. -/
def within8 (s : State) (t : Nat) : Bool := decide ((s.rd R.TICK_COUNT_COUNT + 2 ^ 32 - t) % 2 ^ 32 < 8)

/-- The packages heard in the last 8 ticks, the own one included while a Crinus port is enabled: id, PRIO, CANDIDATE. -/
def heardPackages (s : State) : List (Nat × Nat × Bool) :=
  let own := if (List.range 4).any fun k => s.rdb (R.PORT_CFG_ENABLE (49 + k))
    then [(pkgId s, (ownClaim s).2, (ownClaim s).1)] else []
  own ++ (s.crl.claims.filter fun c => within8 s c.2.2.2 && c.1 != pkgId s).map fun c => (c.1, c.2.1, c.2.2.1)

/-- The candidate of highest PRIO, of lowest id on a tie. -/
def electMaster (l : List (Nat × Nat × Bool)) : Option (Nat × Nat) :=
  (l.filter fun c => c.2.2).foldl (fun (b : Option (Nat × Nat)) c =>
    match b with
    | none => some (c.1, c.2.1)
    | some x => if x.2 < c.2.1 ∨ (x.2 = c.2.1 ∧ c.1 < x.1) then some (c.1, c.2.1) else b) none

/-- The election goes by what has been heard; a new master is announced, and the package that becomes or stops being it
changes what drives its tick (R431, R434). -/
def reelect (s : State) : State :=
  let hs := heardPackages s
  let ids := (hs.map Prod.fst).eraseDups
  let old := if s.rdb R.CRL_SYS_MASTER_VALID then some (s.rd R.CRL_SYS_MASTER_ID) else none
  let was := isMaster s
  let s := s.wr R.CRL_SYS_PEERS (ids.foldl (fun m i => m + 2 ^ i) 0)
  match electMaster hs with
  | none =>
    let s := ((s.wr R.CRL_SYS_MASTER_VALID 0).wr R.CRL_SYS_MASTER_ID 0).wr R.CRL_SYS_MASTER_PRIO 0
    s.when (was && s.rd R.TICK_CTRL_SRC == 3) (selectSource s.tick.nextEdgeNs)
  | some (m, prio) =>
    let s := ((s.wr R.CRL_SYS_MASTER_VALID 1).wr R.CRL_SYS_MASTER_ID m).wr R.CRL_SYS_MASTER_PRIO prio
    let now := m == pkgId s
    let s := s.when (now && !was) fun s =>
      let s := s.when (s.rd R.TICK_CTRL_SRC == 3) (selectSource s.tick.nextEdgeNs)
      (s.wr R.TICK_STATUS_HOLDOVER 0).when (s.rdb R.TICK_STATUS_LOCKED) (fun s => s.wr R.TICK_STATUS_ACTIVE_SRC (tickSrc s))
    let s := s.when (was && !now && s.rd R.TICK_CTRL_SRC == 3) (selectSource s.tick.nextEdgeNs)
    s.when (old != some m) (·.raise 0x1405 m)

/-- GLB_PKG as it stands at an edge (R61). -/
def refreshPkg (s : State) : State :=
  let n := ((List.range 8).filter fun p => bitOf (s.rd R.CRL_SYS_PEERS) p).length
  (s.wr R.GLB_PKG_SYS_SIZE (max 1 n)).wr R.GLB_PKG_TICK_MASTER (b2n (isMaster s))

/-- CRL_MASTER_CHANGE: the election is made again from the CLAIMs that still count (R431). -/
def crlMasterChange (s : State) : State := reelect s

end Sys2Proof.Machine
end

