-- ==== Sys2Proof/Machine/CrinusRx.lean ====
section
/-!
DEFINITION. Layer export and import over the Crinus links (R426 to R429), and the receiving side of a link (R420 to R436).
-/
namespace Sys2Proof.Machine

/-! ### Export tiles (R426 to R428) -/

/-- Columns, rows and number of the export tiles of a frame. -/
def exportCols (w : Nat) : Nat := (w + 31) / 32
def exportTiles (w h : Nat) : Nat := exportCols w * ((h + 31) / 32)

/-- Rows of the chroma plane of an export tile; 0 for a packed format. -/
def tileChroma (fmt : Nat) : Nat := if fmtSubX fmt then (if fmtSubY fmt then 16 else 32) else 0

/-- Bytes of an export tile. -/
def tileBytes (fmt : Nat) : Nat := (32 + tileChroma fmt) * 32 * fmtBytes fmt

/-- A frame in memory is poisoned at byte `o` of its layout (R331). -/
def poisonedAt (s : State) (fr : Frame) (o : Nat) : Bool :=
  match fr.place with
  | none => false
  | some p => isPoisoned (s.line ((p.1 + o) / 64))

/-- The bytes of export tile `t` of the crop (x0, y0, w, h) of a frame, and whether a poisoned line was read: luma rows, then
chroma rows; pixels outside the frame, and poisoned lines, are zero. -/
def exportTile (s : State) (fr : Frame) (x0 y0 w h t : Nat) : List Byte × Bool :=
  let ft := frameFetch s.mem.bytes fr
  let b := fmtBytes fr.fmt
  let c := t % exportCols w * 32
  let r := t / exportCols w * 32
  let luma := (List.range (32 * 32 * b)).map fun i =>
    let x := c + i % (32 * b) / b
    let y := r + i / (32 * b)
    if x < w ∧ y < h ∧ x0 + x < fr.w ∧ y0 + y < fr.h then some ((y0 + y) * ft.pitch + (x0 + x) * b + i % b) else none
  let sub := if fmtSubY fr.fmt then 2 else 1
  let chroma := (List.range (tileChroma fr.fmt * 32 * b)).map fun i =>
    let j := i % (32 * b)
    let x := c + j / (2 * b) * 2
    let y := r / sub + i / (32 * b)
    if x < w ∧ y * sub < h ∧ x0 + x < fr.w ∧ y0 + y * sub < fr.h
    then some (fr.h * ft.pitch + (y0 / sub + y) * ft.pitch + (x0 + x) * b + j % (2 * b)) else none
  let offs := luma ++ chroma
  let bad := offs.filter fun o => o.any (poisonedAt s fr)
  (offs.map fun o => match o with
    | none => 0
    | some a => if poisonedAt s fr a then 0 else BitVec.ofNat 8 (ft.byte a), !bad.isEmpty)

/-- The 16 × 16 blocks of a frame under export tile `t` of its crop. -/
def exportBlocks (fr : Frame) (x0 y0 w h t : Nat) : List Nat :=
  let c := t % exportCols w * 32
  let r := t / exportCols w * 32
  let blocks (a n lim : Nat) : List Nat := ((span a (min n (lim - min lim a))).map (· / 16)).eraseDups
  let bw := (fr.w + 15) / 16
  (blocks (y0 + r) (min 32 (h - r)) fr.h).flatMap fun y => (blocks (x0 + c) (min 32 (w - c)) fr.w).map fun x => y * bw + x

/-- The flags byte of a tile or of a LAYER frame. -/
def markByte (untrusted concealed ancient : Bool) : Nat := b2n untrusted + 2 * b2n concealed + 4 * b2n ancient

/-- A tile's stamp and flags (R428). -/
def exportMark (fr : Frame) (la : LayerAge) (now : Nat) (bad : Bool) (blocks : List Nat) : Nat × Nat :=
  let unt := bad || blocks.any fr.untrusted.contains
  let conc := blocks.any fr.concealed.contains
  match fr.cstamp with
  | some (cs, anc) =>
    if conc ∧ ageOf la.stamp la.ancient now < ageOf cs anc now then (cs, markByte unt conc anc)
    else (la.stamp, markByte unt conc la.ancient)
  | none => (la.stamp, markByte unt conc la.ancient)

/-- The parts of a tile's data. -/
def tileParts (d : List Byte) : List (List Byte) :=
  (List.range ((d.length + 4079) / 4080)).map fun i => (d.drop (4080 * i)).take 4080

/-- The TILE frames of one tile of an export. -/
def tileFrames (slot tick expiry t : Nat) (mark : Nat × Nat) (d : List Byte) : List CrlFrame :=
  let ps := tileParts d
  ps.zipIdx.map fun (p : List Byte × Nat) =>
    { typ := 2, cls := 3, slot, expiryNs := some expiry
      payload := leBytes 1 slot ++ leBytes 1 (16 * p.2 + ps.length) ++ leBytes 2 t ++ leBytes 4 tick ++ leBytes 4 mark.1
        ++ leBytes 1 mark.2 ++ [0, 0, 0] ++ p.1 }

/-- The frames of the export of layer `l` of the published sheet (R426, R427). -/
def exportFrames (s : State) (sh : Sheet) (l : SheetLayer) (fr : Frame) (again : Bool) (expiry : Nat) : List CrlFrame :=
  let now := s.rd R.TICK_EDGE_WUS_WUS
  let tick := s.rd R.TICK_COUNT_COUNT
  let slot := sh.rd (R.LYR_PROBE_EXPORT_EXPORT_SLOT l.num)
  let g := layerGeo sh l.num
  let la := layerAge s sh now l
  let p := leBytes 1 slot ++ leBytes 1 (pkgId s) ++ leBytes 1 fr.fmt ++ leBytes 1 (b2n again + 2 * b2n la.ancient)
    ++ leBytes 4 tick ++ leBytes 2 (g.cw - 1) ++ leBytes 2 (g.ch - 1) ++ leBytes 4 la.stamp
    ++ leBytes 2 (exportTiles g.cw g.ch) ++ List.replicate 14 0
  let head : CrlFrame := { typ := 3, cls := 3, slot, payload := p }
  if again then [head]
  else head :: (List.range (exportTiles g.cw g.ch)).flatMap fun t =>
    let d := exportTile s fr g.x0 g.y0 g.cw g.ch t
    tileFrames slot tick expiry t (exportMark fr la now d.2 (exportBlocks fr g.x0 g.y0 g.cw g.ch t)) d.1

/-- What tells two exported frames of a slot apart: source, crop and serial. -/
def exportKey (sh : Sheet) (l : Nat) (fr : Frame) : Nat × Nat :=
  let g := layerGeo sh l
  ((((sh.layerKey l * 65536 + g.x0) * 65536 + g.y0) * 65536 + g.cw) * 65536 + g.ch, fr.serial)

/-- The exporting layers of a sheet with their frames (R112, R426). -/
def exportLayers (sh : Sheet) : List (SheetLayer × Frame) :=
  sh.layers.filterMap fun l =>
    if sh.rd (R.LYR_PROBE_EXPORT_EXPORT l.num) = 1 then l.frame.map fun fr => (l, fr) else none

/-- When the TILE frames of this tick's exports expire, in step-free ns (R425). -/
def exportExpiry (s : State) : Nat :=
  (((s.tick.nextEdgeNs : Int) - s.time.offset).toNat) - s.rd R.CRL_CFG_IMPORT_CUT_US * 1000

/-- Send the export of one layer on those of the links `ks` that its slot names (R426); `fresh` sends the frame whether or not
it was sent before (R430). -/
def sendExport (ks : List Nat) (fresh : Bool) (sh : Sheet) (s : State) (x : SheetLayer × Frame) : State :=
  let slot := sh.rd (R.LYR_PROBE_EXPORT_EXPORT_SLOT x.1.num)
  let key := exportKey sh x.1.num x.2
  let again := !fresh && s.crl.exported.get (fun _ => none) slot == some key
  let outs := ks.filter fun k => bitOf (s.rd (R.CRL_EXP_CFG_LINKS slot)) k
  if outs.isEmpty then s
  else
    let fs := exportFrames s sh x.1 x.2 again (exportExpiry s)
    outs.foldl (fun s k => fs.foldl (fun s f => queueFrame k f s) s) s

/-- The exports of an edge, on every up link (R426); after a package fault there are none (R60). -/
def exportEdge (s : State) : State :=
  match (if s.rdb R.WDN_STATUS_PKG_FAULT then none else s.tick.current) with
  | none => { s with crl := { s.crl with exported := [] } }
  | some sh =>
    let xs := exportLayers sh
    let s := xs.foldl (sendExport (upLinks s) false sh) s
    { s with crl := { s.crl with exported := xs.foldl (fun (t : Tab (Option (Nat × Nat))) x =>
        t.set (fun _ => none) (sh.rd (R.LYR_PROBE_EXPORT_EXPORT_SLOT x.1.num)) (some (exportKey sh x.1.num x.2))) [] } }

/-- After link `k` has come up its export slots send the current tick's exports afresh, unless they have expired (R430). -/
def exportAfresh (k : Nat) (s : State) : State :=
  match s.tick.current with
  | none => s
  | some sh => if exportExpiry s ≤ s.monoNs then s else (exportLayers sh).foldl (sendExport [k] true sh) s

/-! ### Import (R429) -/

/-- The import slots that take exports of package `origin` from its slot `slot`. -/
def importSlots (s : State) (origin slot : Nat) : List Nat :=
  (List.range 64).filter fun i => s.rdb (R.CRL_IMP_CFG_ENABLE i) && s.rd (R.CRL_IMP_CFG_PKG_ID i) == origin
    && s.rd (R.CRL_IMP_CFG_EXPORT_SLOT i) == slot

/-- The cut of an export whose LAYER frame arrives now, in step-free ns. -/
def importCutNs (s : State) : Nat :=
  (((s.tick.nextEdgeNs : Int) - s.time.offset).toNat) - s.rd R.CRL_CFG_IMPORT_CUT_US * 1000

/-- The data of tile `t` of an export being received, once every part has arrived. -/
def tileData (x : ImportFill) (t : Nat) : Option (List Byte) :=
  match x.marks.get (fun _ => (0, 0, 0)) t with
  | (0, _, _) => none
  | (n, _, _) =>
    let ps := (List.range n).map fun i => x.parts.get (fun _ => []) (16 * t + i)
    if ps.any (·.isEmpty) then none else some ps.flatten

/-- A tile as it goes into the frame: its data, stamp and flags; a missing one is held (R429 point 4). -/
def importTile (s : State) (i : Nat) (x : ImportFill) (t : Nat) : List Byte × Nat × Nat :=
  match tileData x t with
  | some d => let m := x.marks.get (fun _ => (0, 0, 0)) t; (d, m.2.1, m.2.2)
  | none =>
    match (s.source (sourceKey 4 i)).newest with
    | some fr =>
      if fr.w = x.w ∧ fr.h = x.h ∧ fr.fmt = x.fmt then
        let m := (s.import_ i).marks.getD t (0, 5)
        ((exportTile s fr 0 0 x.w x.h t).1, m.1, m.2)
      else ([], 0, 5)
    | none => ([], 0, 5)

/-- One row of a plane of the frame, taken from the tiles: `o` is where the row begins in a tile, `n` its bytes. -/
def importRow (tiles : List (List Byte × Nat × Nat)) (cols row o b n : Nat) : List Byte :=
  ((List.range cols).flatMap fun c =>
    let d := (tiles.getD (row * cols + c) ([], 0, 0)).1
    (List.range (32 * b)).map fun j => d.getD (o + j) 0).take n

/-- The pixels of an imported frame in its format's layout, lines unpadded. -/
def importPixels (fmt w h : Nat) (tiles : List (List Byte × Nat × Nat)) : List Byte :=
  let b := fmtBytes fmt
  let cols := exportCols w
  let luma := (List.range h).flatMap fun y => importRow tiles cols (y / 32) (y % 32 * 32 * b) b (w * b)
  let per := max 1 (tileChroma fmt)
  let lines := if fmtSubX fmt then (if fmtSubY fmt then (h + 1) / 2 else h) else 0
  luma ++ (List.range lines).flatMap fun y =>
    importRow tiles cols (y / per) (32 * 32 * b + y % per * 32 * b) b (w * b)

/-- The 16 × 16 blocks of the tiles that carry flag `bit`. -/
def markedBlocks (w h bit : Nat) (tiles : List (List Byte × Nat × Nat)) : List Nat :=
  let fr : Frame := { w, h }
  tiles.zipIdx.flatMap fun p => if bitOf p.1.2.2 bit then exportBlocks fr 0 0 w h p.2 else []

/-- The address of frame buffer `b` of import slot `i` (R437). -/
def importBuffer (s : State) (i b : Nat) : Nat :=
  s.rd (R.CRL_IMP_BUF_ADDR i) * 64 + b * (s.rd (R.CRL_IMP_SIZE_FRAME_4K i) * 4096)

/-- The five frame buffers of import slot `i` lie in the partitions for imports (R327, R437). -/
def importPlaced (s : State) (i : Nat) : Bool := inUse s 7 (importBuffer s i 0) (importBuffer s i 5)

/-- The stamps and flags of an import's tiles as its buffer holds them (R429 point 2), 8 bytes a tile (log 121). -/
def importMarks (tiles : List (List Byte × Nat × Nat)) : List Byte :=
  tiles.flatMap fun t => leBytes 4 t.2.1 ++ leBytes 4 t.2.2

/-- An import completes with what has arrived (R429 points 3 to 6). -/
def completeImport (i : Nat) (x : ImportFill) (s : State) : State :=
  let tiles := (List.range x.tiles).map (importTile s i x)
  let held := ((List.range x.tiles).filter fun t => (tileData x t).isNone).length
  let oldest := tiles.foldl (fun (o : Option (Nat × Bool)) t =>
    let a := bitOf t.2.2 2
    match o with
    | none => some (t.2.1, a)
    | some y => if ageOf y.1 y.2 s.wus < ageOf t.2.1 a s.wus then some (t.2.1, a) else o) none
  let st := oldest.getD (x.stamp, x.ancient)
  let a := importBuffer s i x.buffer
  let s := (s.memWrite a (importPixels x.fmt x.w x.h tiles)).memWrite (a + x.tiles * tileBytes x.fmt) (importMarks tiles)
  let fr : Frame := { serial := s.comp.serial, stamp := st.1, ancient := st.2, w := x.w, h := x.h, fmt := x.fmt
                      place := some (a, x.w * fmtBytes x.fmt)
                      untrusted := markedBlocks x.w x.h 0 tiles, concealed := markedBlocks x.w x.h 1 tiles }
  let o := s.import_ i
  let s := s.setImport i { o with
    filling := o.filling.filter (· != x), marks := tiles.map fun t => t.2
    lastCut := if held = 0 then o.lastCut else some x.tick }
  let s := { s with comp := { s.comp with serial := s.comp.serial + 1 } }
  let key := sourceKey 4 i
  let s := completeSource key fr (s.setSource key { s.source key with ring := (s.source key).ring.set x.buffer fr.serial })
  let s := (s.wr (R.CRL_IMP_STAT_HELD i) (satTo 16 held)).wr (R.CRL_IMP_STAT_FRAMES i) (satTo 16 (s.rd (R.CRL_IMP_STAT_FRAMES i) + 1))
  if held = 0 then s else s.raiseOnce 0x1407 i

/-- IMPORT_CUT: every import whose cut has come completes with held tiles (R429). -/
def importCut (s : State) : State :=
  (List.range 64).foldl (fun s i =>
    ((s.import_ i).filling.filter fun x => decide (x.cutNs ≤ s.monoNs)).foldl (fun s x => completeImport i x s) s) s

/-- The number in bytes `o` to `o + n - 1` of a payload. -/
def leAt (p : List Byte) (o n : Nat) : Nat := ofLeBytes ((p.drop o).take n)

/-- A LAYER frame for import slot `i` (R429). -/
def layerFor (k : Nat) (p : List Byte) (s : State) (i : Nat) : State :=
  let o := s.import_ i
  let tick := leAt p 4 4
  let fmt := leAt p 2 1
  let w := leAt p 8 2 + 1
  let h := leAt p 10 2 + 1
  if bitOf (leAt p 3 1) 0 || o.begun == some tick || decide (12 ≤ fmt) || !importPlaced s i then s
  else if s.rd (R.CRL_IMP_SIZE_FRAME_4K i) * 4096 < exportTiles w h * (tileBytes fmt + 8) then
    (s.setImport i { o with begun := some tick }).raise 0x1408 i
  else if s.rdb R.TICK_STATUS_RUN && decide (importCutNs s ≤ s.monoNs) then
    s.setImport i { o with begun := some tick, lastCut := some tick }
  else
    let key := sourceKey 4 i
    let b := ringBuffer s key (o.filling.map (·.buffer))
    let s := s.setSource key { s.source key with ring := (s.source key).ring.set b 0 }
    let x : ImportFill := { buffer := b, link := k, fmt, w, h, stamp := leAt p 12 4, ancient := bitOf (leAt p 3 1) 1
                            tiles := exportTiles w h, tick, cutNs := importCutNs s }
    s.setImport i { o with begun := some tick, filling := o.filling ++ [x] }

/-- A TILE frame for import slot `i` (R429). -/
def tileFor (k : Nat) (p : List Byte) (s : State) (i : Nat) : State :=
  let o := s.import_ i
  let tick := leAt p 4 4
  let n := leAt p 1 1 % 16
  let part := leAt p 1 1 / 16
  let t := leAt p 2 2
  match o.filling.find? fun x => x.link == k && x.tick == tick with
  | some x =>
    if t < x.tiles ∧ part < n then
      let y : ImportFill := { x with
        parts := x.parts.set (fun _ => []) (16 * t + part) (p.drop 16)
        marks := x.marks.set (fun _ => (0, 0, 0)) t (n, leAt p 8 4, leAt p 12 1 % 8) }
      let s := s.setImport i { o with filling := o.filling.map fun z => if z = x then y else z }
      if (List.range y.tiles).all fun t => (tileData y t).isSome then completeImport i y s else s
    else s
  | none =>
    if o.lastCut = some tick then s.wr (R.CRL_LINK_LATE_LATE k) (satTo 16 (s.rd (R.CRL_LINK_LATE_LATE k) + 1)) else s

/-! ### Frames received (R420, R424) -/

/-- The fields of a header (R419). -/
structure CrlHead where
  credits : Nat
  pool : Nat
  ack : Nat
  seq : Nat
  len : Nat
  stale : Bool
  nak : Bool
  typ : Nat
  zero : Bool
  deriving DecidableEq, Repr

/-- The header that a frame begins with. -/
def headOf (f : List Byte) : CrlHead :=
  let w := leAt f 0 8
  { credits := bits w 63 49, pool := bits w 48 48, ack := bits w 47 36, seq := bits w 35 24, len := bits w 20 8
    stale := bitOf w 6, nak := bitOf w 4, typ := bits w 3 0, zero := bits w 23 21 == 0 && bits w 7 7 == 0 }

/-- Bytes `a` to `b - 1` of a payload are zero. -/
def zeroAt (p : List Byte) (a b : Nat) : Bool := leAt p a (b - a) == 0

/-- A payload has its type's size, and its zero fields are zero (R420, R427, R432, R435, R436). -/
def payloadGood (typ : Nat) (stale : Bool) (p : List Byte) : Bool :=
  let n := p.length
  match typ with
  | 1 => n == 32 && (match leAt p 0 1 with
      | 0 => zeroAt p 21 32
      | 1 => zeroAt p 8 20 && zeroAt p 21 32
      | 2 => zeroAt p 1 4 && zeroAt p 8 32
      | 3 => zeroAt p 1 4 && zeroAt p 24 32
      | _ => true)
  | 2 => if stale then n == 0 else decide (16 ≤ n) && decide (n ≤ 4096) && zeroAt p 13 16
  | 3 => n == 32 && zeroAt p 18 32
  | 4 => n == 16 && zeroAt p 12 16
  | 5 => decide (8 ≤ n) && decide (n ≤ 72) && zeroAt p 3 4
      && (n == 8 + (if leAt p 0 1 = 2 ∨ leAt p 0 1 = 0x81 then 4 * leAt p 1 1 else 0))
  | 6 => n == 0
  | _ => false

/-- A frame without its trailer passes the checks of R420. -/
def frameGood (f : List Byte) : Bool :=
  let h := headOf f
  decide (8 ≤ f.length) && h.zero && f.length == 8 + h.len && decide (h.len ≤ 4096) && (!h.stale || h.typ == 2)
    && payloadGood h.typ h.stale (f.drop 8)

/-- A NAK is due for the first frame discarded after an acceptance (R424). -/
def wantNak (k : Nat) (s : State) : State :=
  let o := s.link k
  if o.nakSent then s else s.setLink k { o with nakDue := true }

/-- A frame fails its check: discarded and counted (R420). -/
def frameBad (k : Nat) (s : State) : State :=
  wantNak k (s.wr (R.CRL_LINK_RETRY_CRC_ERRORS k) (satTo 16 (s.rd (R.CRL_LINK_RETRY_CRC_ERRORS k) + 1)))

/-- The units of a frame are free again (R421). -/
def freeUnits (k pool len : Nat) (s : State) : State :=
  let o := s.link k
  s.setLink k { o with
    freed := o.freed.set pool ((o.freed.getD pool 0 + frameUnits len) % 32768), owed := o.owed.set pool true }

/-! ### What accepted frames do -/

/-- A frame of the flood (TYPE, subtype or KIND, ORIGIN, COUNT) is a later copy, of this package's own, or has gone 7 hops
(R431, R433). -/
def floodDrops (typ sub origin count hops : Nat) (s : State) : Bool :=
  origin == pkgId s || decide (7 ≤ hops)
    || s.crl.forwarded.any fun x => x.1 == typ && x.2.1 == sub && x.2.2.1 == origin && x.2.2.2.1 == count && within8 s x.2.2.2.2

/-- Pass a frame of the flood on, once, on every up link but the one it came by. -/
def passOn (k : Nat) (f : CrlFrame) (sub origin count : Nat) (s : State) : State :=
  let l := (f.typ, sub, origin, count, s.rd R.TICK_COUNT_COUNT) :: s.crl.forwarded.filter fun x => within8 s x.2.2.2.2
  flood (some k) f { s with crl := { s.crl with forwarded := l } }

/-- The payload with HOPS, in byte `o`, one higher. -/
def hopOn (o : Nat) (p : List Byte) : List Byte := splice p o (leBytes 1 (leAt p o 1 + 1))

/-- Insert a number into a rising list. -/
def insertInt (x : Int) : List Int → List Int
  | [] => [x]
  | y :: l => if x ≤ y then x :: y :: l else y :: insertInt x l

/-- The measured delay of a link: the median of its last 16 exchanges, the mean of the middle two for an even number. -/
def linkDelay (s : State) (k : Nat) : Nat :=
  let l := (s.link k).delays.foldl (fun l x => insertInt x l) []
  let n := l.length
  ((if n % 2 = 1 then l.getD (n / 2) 0 else (l.getD (n / 2 - 1) 0 + l.getD (n / 2) 0) / 2)).toNat

/-- EDGE: passed on with the residence added to CORRECTION_NS as it leaves; a follower takes its edge from the first copy
(R432, R434). -/
def edgeIn (k : Nat) (p : List Byte) (s : State) : State :=
  let origin := leAt p 1 1
  let count := leAt p 4 4
  if floodDrops 1 0 origin count (leAt p 3 1) s then s
  else
    let s := passOn k { typ := 1, cls := 0, patch := 1, refNs := s.monoNs, payload := hopOn 3 p } 0 origin count s
    if tickSrc s = 3 ∧ s.rdb R.CRL_SYS_MASTER_VALID ∧ s.rd R.CRL_SYS_MASTER_ID = origin then
      sourceEdgeAt (s.nowNs - linkDelay s k - leAt p 16 4) s
    else s

/-- CLAIM: heard, passed on, and counted in the election (R431). -/
def claimIn (k : Nat) (p : List Byte) (s : State) : State :=
  let origin := leAt p 1 1
  let count := leAt p 4 4
  if floodDrops 1 1 origin count (leAt p 3 1) s then s
  else
    let s := passOn k { typ := 1, cls := 0, payload := hopOn 3 p } 1 origin count s
    let c := (origin, leAt p 2 1, bitOf (leAt p 20 1) 0, s.rd R.TICK_COUNT_COUNT)
    reelect { s with crl := { s.crl with claims := c :: s.crl.claims.filter (·.1 != origin) } }

/-- DELAY_REQ: answered with its arrival and the response's departure (R432, R433). -/
def delayReqIn (k : Nat) (p : List Byte) (s : State) : State :=
  queueFrame k { typ := 1, cls := 0, patch := 3
                 payload := [3, 0, 0, 0] ++ (p.drop 4).take 4 ++ timeField s.nowNs ++ List.replicate 16 0 } s

/-- DELAY_RESP: one exchange is over; after 16 the link enters UP (R430, R432). -/
def delayRespIn (k : Nat) (p : List Byte) (s : State) : State :=
  let o := s.link k
  match o.openReqs.find? (·.1 == leAt p 4 4) with
  | none => s
  | some r =>
    let out : Int := (s.monoNs : Int) - r.2
    let stay : Int := (fieldTime ((p.drop 16).take 8) : Int) - fieldTime ((p.drop 8).take 8)
    let s := s.setLink k { o with
      openReqs := o.openReqs.filter (· != r), delays := ((out - stay) / 2 :: o.delays).take 16, exchanges := o.exchanges + 1 }
    let s := s.wr (R.CRL_LINK_DELAY_DELAY_NS k) (satTo 16 (linkDelay s k))
    if linkState s k ≠ 2 then s
    else if 16 ≤ o.exchanges + 1 then
      exportAfresh k ((s.wr (R.CRL_LINK_STATUS_STATE k) 3).raise 0x1401 k)
    else queueDelayReq k s

/-- A WARDEN frame (R435): CRL_PEER_FAULT, passed on; a WARM_RESET notice takes the link down (R430), and so does a PKG_FAULT notice
on the link to the package that has failed. DEDUCED (log 105). -/
def wardenIn (k : Nat) (p : List Byte) (s : State) : State :=
  let kind := leAt p 0 1
  let origin := leAt p 1 1
  let count := leAt p 8 4
  if floodDrops 4 kind origin count (leAt p 3 1) s then s
  else
    let s := s.raise 0x1406 (origin * 16 + kind)
    let s := passOn k { typ := 4, cls := 1, payload := hopOn 3 p } kind origin count s
    if kind = 2 ∨ (kind = 1 ∧ leAt p 3 1 = 0) then linkDown k s else s

/-- One word of a REG request at aperture offset `a`, carried out as the link's source (R436): the word read (0 for a write or
a refusal), STATUS, and the state. -/
def regWord (k a : Nat) (write : Option Nat) (s : State) : Nat × Nat × State :=
  if a % 4 ≠ 0 then (0, 2, s)
  else
    let addr := 0x4010000000 + a
    match checkAccess s (153 + k) write.isSome addr with
    | .refused kind region => (0, 1, noteRefusal (153 + k) addr kind region s)
    | .permitted _ =>
      match write with
      | some w => (0, 0, regWrite a w s)
      | none => let (v, s) := regRead a s; (v, 0, s)

/-- The words of a REG request in ascending order: words read, the highest STATUS, the state. -/
def regWords (k : Nat) (ws : List (Nat × Option Nat)) (s : State) : List Nat × Nat × State :=
  ws.foldl (fun acc w =>
    let (v, st, s) := regWord k w.1 w.2 acc.2.2
    (acc.1 ++ [v], max acc.2.1 st, s)) ([], 0, s)

/-- A REG request: carried out word by word, then answered (R436). -/
def regRequestIn (k : Nat) (p : List Byte) (s : State) : State :=
  let wr := leAt p 0 1 == 2
  let n := leAt p 1 1
  let a := leAt p 4 4
  let ws := (List.range n).map fun i => (a + 4 * i, if wr then some (leAt p (8 + 4 * i) 4) else none)
  let (vs, st, s) := regWords k ws s
  let q := leBytes 1 (if wr then 0x82 else 0x81) ++ leBytes 1 n ++ leBytes 1 st ++ [0] ++ leBytes 4 a
    ++ (if wr then [] else vs.flatMap (leBytes 4))
  queueFrame k { typ := 5, cls := 2, payload := q } s

/-- A REG response ends the request outstanding on the link (R436). -/
def regResponseIn (k : Nat) (p : List Byte) (s : State) : State :=
  match s.crl.request with
  | some (j, _) =>
    if j = k then
      let s := if leAt p 0 1 = 0x81 ∧ leAt p 2 1 = 0 then
          (List.range (min 16 (leAt p 1 1))).foldl (fun s i => s.wr (R.CRL_REG_DATA_DATA i) (leAt p (8 + 4 * i) 4)) s
        else s
      regDone (leAt p 2 1) s
    else s
  | none => s

/-- What an accepted frame does. -/
def crlAccepted (k : Nat) (h : CrlHead) (p : List Byte) (s : State) : State :=
  match h.typ with
  | 1 => (match leAt p 0 1 with
      | 0 => edgeIn k p s
      | 1 => claimIn k p s
      | 2 => delayReqIn k p s
      | 3 => delayRespIn k p s
      | _ => s)
  | 2 => if h.stale then s else (importSlots s (s.rd (R.CRL_LINK_STATUS_PEER_ID k)) (leAt p 0 1)).foldl (tileFor k p) s
  | 3 => (importSlots s (leAt p 1 1) (leAt p 0 1)).foldl (layerFor k p) s
  | 4 => wardenIn k p s
  | 5 => if leAt p 0 1 = 1 ∨ leAt p 0 1 = 2 then regRequestIn k p s
      else if leAt p 0 1 = 0x81 ∨ leAt p 0 1 = 0x82 then regResponseIn k p s else s
  | _ => s

/-- A frame whose trailer and fields are good: its ACK and credits, a rewind for its NAK, and its acceptance in order (R422,
R424). -/
def crlGood (k : Nat) (f : List Byte) (s : State) : State :=
  let h := headOf f
  let s := takeAck k h.ack h.pool h.credits s
  let s := s.when h.nak (rewind k)
  if linkActive s k = false ∨ h.typ = 6 then s
  else
    let o := s.link k
    if h.seq = (o.accepted + 1) % 4096 then
      let s := s.setLink k { o with accepted := h.seq, nakSent := false, nakDue := false }
      freeUnits k (poolOf h.typ) h.len (crlAccepted k h (f.drop 8) s) |> fun t => if linkActive t k then t else t.setLink k {}
    else wantNak k s

/-- A frame with its trailer arrives at the ingress of link `k` (R420); `bad` is one that injection has corrupted. -/
def crlFrameIn (k : Nat) (bad : Bool) (f : List Byte) (s : State) : State :=
  if linkActive s k = false then s
  else if bad then frameBad k s
  else
    let s := chkCompute 1 (49 + k) none f s
    match chkStrip 1 (49 + k) none true f s with
    | (none, s) => frameBad k s
    | (some m, s) => if frameGood m then crlGood k m s else frameBad k s

/-- The kinds of frame that the rows of the receive table stand for. -/
inductive RxKind where
  | bad | nak | credit | layer | tile | edge | claim | delayReq | delayResp | warden | regRequest | regResponse | other
  deriving DecidableEq, Repr

/-- The row that a frame with its trailer stands under: one that fails its check, one with NAK set, else its type. -/
def rxKind (k : Nat) (f : List Byte) (s : State) : RxKind :=
  match (chkStrip 1 (49 + k) none true f s).1 with
  | none => .bad
  | some m =>
    let h := headOf m
    let sub := leAt m 8 1
    if !frameGood m then .bad
    else if h.nak then .nak
    else match h.typ with
      | 1 => [RxKind.edge, .claim, .delayReq, .delayResp].getD sub .other
      | 2 => .tile
      | 3 => .layer
      | 4 => .warden
      | 5 => if sub = 1 ∨ sub = 2 then .regRequest else if sub = 0x81 ∨ sub = 0x82 then .regResponse else .other
      | _ => .credit

/-- What the receive path of link `k` makes of an arriving frame with its trailer under injection (R250). -/
def crlInject (k : Nat) (f : List Byte) (s : State) : List (List Byte × Bool) × State :=
  let bits := ((frameBlocks f).length * 66 + 3) / 4
  injectRx k 8 (max 1 (f.length - 12)) (f, portErrors s (49 + k) bits == 0) s

/-- A frame of kind `kind` arrives on link `k`: injection acts first (R250), and what it lets through is received. -/
def crlReceive (kind : RxKind) (k : Nat) (f : List Byte) (s : State) : State :=
  if linkActive s k && decide (rxKind k f s = kind) then
    let (fs, s) := crlInject k f s
    fs.foldl (fun s (g : List Byte × Bool) => crlFrameIn k (!g.2) g.1 s) s
  else s

end Sys2Proof.Machine
end

