-- ==== Sys2Proof/Machine/Frames.lean ====
section
/-!
DEFINITION. The frames of the flues through a tick: their creation at the edge, FRAME_START, what a source port sends for the
check units (R494), poisoned reads (R331), and the rows of bands and votes with the engines that they may set to work.
-/
namespace Sys2Proof.Machine

/-! ### What a source port sends (R180, R494 point 0x6) -/

/-- The sentinel patch's grey at pixel (x, y) of a frame of flue `f`, where the patch lies, by the frame's own sheet (R29, R180,
R181). -/
def patchPixel (r : FrameRun) (f x y : Nat) : Option Nat :=
  let sh := r.sheet
  let code := sh.rd (R.SNT_FLUE_CFG_CODE f)
  let corner := sh.rd (R.SNT_FLUE_CFG_CORNER f)
  let iy := sh.rd (R.SNT_FLUE_PATCH_INSET_Y f)
  let ix := sh.rd (R.SNT_FLUE_PATCH_INSET_X f)
  let py := if corner < 2 then iy else vActive sh f - iy - 24
  let px := if corner % 2 = 0 then ix else hActive sh f - ix - 24
  if sh.rd (R.SNT_FLUE_CFG_ENABLE f) == 1 && code != 0 && decide (px ≤ x) && decide (x < px + 24) && decide (py ≤ y)
      && decide (y < py + 24) then
    let g := sh.rd (if chipHigh code (chipIndex f r) then R.SNT_FLUE_LEVEL_LEVEL_HI f else R.SNT_FLUE_LEVEL_LEVEL_LO f)
    let v := scale10 (flueDepth sh f) g
    some (packCodes v v v)
  else none

/-- The pixel of a frame as its bands give it: the held copy's for a held band, black where there was none (R150). -/
def sentPixel (s : State) (r : FrameRun) (f x y : Nat) : Nat :=
  let k := y / 32
  let b := r.band k
  let t := k * tileCols r.sheet f + x / 32
  match b.phase, r.buffer with
  | .held, some d => if bitOf ((s.flue f).bufBands.get (fun _ => 0) d) k then heldCodes s r.sheet f d x y else 0
  | .held, none => 0
  | _, _ =>
    let w := min 32 (hActive r.sheet f - x / 32 * 32)
    (b.tiles.get (fun _ => []) t).getD (y % 32 * w + x % 32) 0

/-- The bytes of a frame as sent, in the order and words of R197. -/
def sentFrame (s : State) (r : FrameRun) (f : Nat) : List Byte :=
  (List.range (vActive r.sheet f)).flatMap fun y => (List.range (hActive r.sheet f)).flatMap fun x =>
    (unpackCodes ((patchPixel r f x y).getD (sentPixel s r f x y))).flatMap (leBytes 2)

/-- The frames of flue `f` that have been scanned out have left through its port, with the colorimetry that the port signals to the
sink (R139); each is a message at the port's check units (R494). -/
def retireFrames (f : Nat) (s : State) : State :=
  let s := settleScans f (settleFrames f s)
  let gone := (s.flue f).frames.filter fun r => r.started && !frameDark s f r && decide (r.endNs ≤ s.monoNs)
  let p := s.rd (R.CMP_FLUE_CTRL_PORT f)
  let s := gone.foldl (fun s r =>
    let bytes := sentFrame s r f
    let s := s.send (.dpFrame p (flueDepth r.sheet f) (r.sheet.rd (R.CMP_FLUE_CTRL_BT2020 f) == 1) bytes)
    chkComputeSince 6 p r.startNs bytes s) s
  pruneFrames f s

/-! ### Frames of a tick (R20, R31, R118, R120) -/

/-- The bands of a new frame: their units as the sheet gives them, and the member items of the rectangles (R195). -/
def newBands (sh : Sheet) (f : Nat) (dark : Bool) : List BandRun :=
  (List.range (tileRows sh f)).map fun k =>
    { unit := if dark then 0xFF else sh.bandUnits.get (fun _ => 0xFF) (f * 128 + k)
      items := if dark then [] else
        ((rectsOf sh f).filter fun n => !(memberTiles sh f n k).isEmpty).flatMap fun n =>
          ((List.range 3).filter fun m => sheetMember sh n m != 0xFF).map fun m => { rect := n, member := m } }

/-- The rectangle of a tile is lost now, or forced to ember (R211, R244). -/
def lostAt (s : State) (sh : Sheet) (f t : Nat) : Bool :=
  match criticalRect sh f t with
  | some n => (s.rect n).lost || (s.rect n).forced.isSome
  | none => false

/-- The evaluation of every tile of flue `f` at an edge. -/
def evalFlue (s : State) (sh : Sheet) (las : List LayerAge) (now f : Nat) : List TileEval :=
  let dark := darkFlue s sh f
  (flueTiles sh f).map fun t =>
    evalTile sh las now now f t { dark, voteFail := lostAt s sh f t, resting := bitOf sh.announce f }

/-- The frames that begin in this tick on flue `f`, with the evaluation of the edge, and the tile table. -/
def edgeFlue (sh : Sheet) (las : List LayerAge) (acc : List TileEval × State) (f : Nat) : List TileEval × State :=
  let s := retireFrames f acc.2
  if flueDefined sh f = false then (acc.1, s)
  else
    let now := s.rd R.TICK_EDGE_WUS_WUS
    let tick := s.rd R.TICK_COUNT_COUNT
    let dark := darkFlue s sh f
    let tiles := evalFlue s sh las now f
    let badges := if dark then [] else flueBadges sh las f tiles
    let s := tiles.zipIdx.foldl (fun s (p : TileEval × Nat) =>
      writeEntry (tileIndex sh f p.2) tick p.1 (badges.any fun b => b.2.1 == p.2) none s) s
    let s := countStates sh f s
    let x2 := sh.rd (R.CMP_FLUE_CTRL_X2 f) == 1
    let period := s.rd R.TICK_PERIOD_NS_PERIOD
    let start := ((s.tick.lastEdgeNs : Int) - s.time.offset).toNat + sh.rd (R.CMP_FLUE_PHASE_PHASE_NS f)
    let frame (i : Nat) : FrameRun :=
      { serial := s.comp.serial + i, tick, now, index := i, sheet := sh, dark, tiles, badges, ages := las
        startNs := start + i * (period / 2), periodNs := if x2 then period / 2 else period, bands := newBands sh f dark }
    let fs := if x2 then [frame 0, frame 1] else [frame 0]
    let s := { s with comp := { s.comp with serial := s.comp.serial + fs.length } }
    let s := s.setFlue f { s.flue f with frames := (s.flue f).frames ++ fs }
    let past := if flueOn sh f then (flueTiles sh f).filter (overDepth sh f) else []
    (acc.1 ++ tiles, s.wr (R.CMP_FLUE_STAT_DEPTH_TILES f) (satTo 16 past.length))

/-- DEPTH for the flues whose sheet in use holds a tile over the limit (R128, R152). -/
def depthEvents (sh : Sheet) : List (Nat × Nat) :=
  (List.range 24).filterMap fun f =>
    if flueOn sh f then
      ((flueTiles sh f).find? (overDepth sh f)).map fun t => (0x0501, f * 256 + bandOf sh f t)
    else none

/-! ### FRAME_START -/

/-- The tiles of a frame's rectangles whose loss has changed since the edge are revised (R165, R244). -/
def reviseLost (f serial : Nat) (s : State) : State :=
  match frameOf s f serial with
  | none => s
  | some r =>
    let ts := (flueTiles r.sheet f).filter fun t =>
      (criticalRect r.sheet f t).isSome && lostAt s r.sheet f t != bitOf (r.tiles.getD t {}).causes 9
    countStates r.sheet f (ts.foldl (fun s t => reviseTile f serial t (ctxNow s r f t) s) s)

/-- CHECKED of the entries that name flue `f` begins again with a frame, but for those already compared in it (R209). -/
def clearChecked (f : Nat) (r : FrameRun) (s : State) : State :=
  (s.regs.filterMap fun (p : Nat × Word) =>
      if 0xB4000 ≤ p.1 ∧ p.1 < 0xB8000 ∧ p.1 % 16 = 0 then some ((p.1 - 0xB4000) / 16) else none).foldl (fun s e =>
    if s.rd (R.CRT_EXP_CTRL_FLUE e) = f ∧ r.compared.contains e = false then s.wr (R.CRT_EXP_STAT_CHECKED e) 0 else s) s

/-- At a frame's start an undecided vote keeps the signatures of the members that take part (R199). -/
def startVotes (members : List (Nat × List Nat)) (r : FrameRun) (f : Nat) : Tab TileVote :=
  r.votes.map fun (p : Nat × TileVote) =>
    let ms := ((criticalRect r.sheet f p.1).bind fun n => (members.find? (·.1 == n)).map Prod.snd).getD []
    (p.1, if p.2.decision.isSome then p.2 else { p.2 with sigs := p.2.sigs.filter fun x => ms.contains x.member })

/-- What R199 and R244 decide on tile `t` at the start of a frame: FAIL where the triplet has fewer than two members, where the
rectangle is lost although the members had agreed before, and where every signature is there without a majority. -/
def startDecision (f serial t : Nat) (s : State) : State :=
  match frameOf s f serial with
  | none => s
  | some r =>
    match criticalRect r.sheet f t with
    | none => s
    | some n =>
      let v := r.vote t
      let ms := r.membersOf n
      if decide (ms.length < 2) || (lostAt s r.sheet f t && v.decision.any (·.isSome))
          || (v.decision.isNone && decide (ms.length ≤ v.sigs.length))
      then decideFail f t serial s else s

/-- FRAME_START: the next frame of flue `f` begins: its rectangles' members and losses are taken, tiles that cannot be won fail at
once, the held copy gets a buffer, the encode reels count it (R34, R120, R148, R199, R209, R244, R304). -/
def frameStart (f : Nat) (s : State) : State :=
  match (s.flue f).frames.find? (fun r => !r.started && decide (r.startNs ≤ s.monoNs)) with
  | none => s
  | some r =>
    let s := clearChecked f r (encFrameStart f r.serial (retireFrames f s))
    if frameDark s f r then modFrame f r.serial (fun r => { r with started := true }) s
    else
      let ns := rectsOf r.sheet f
      let s := ns.foldl (fun s n => if (s.rect n).lost && decide (2 ≤ membersServing s n) then restoreRect n s else s) s
      let members := ns.map fun n => (n, presentMembers r.sheet n)
      let lost := ns.filter fun n => (s.rect n).lost
      let s := modFrame f r.serial (fun r => { r with started := true, members, lost, votes := startVotes members r f }) s
      let s := ensureBuffer f r.serial (reviseLost f r.serial s)
      let s := s.when (r.sheet.rd (R.SNT_FLUE_CFG_ENABLE f) == 1) (pushChip f r)
      let s := ns.foldl (fun s n => s.wr (R.CRT_RECT_STAT_FAIL_LAST n) (satTo 16 (r.fails.get (fun _ => 0) n))) s
      (flueTiles r.sheet f).foldl (fun s t => startDecision f r.serial t s) s

/-! ### Poisoned reads (R331) -/

/-- What a reader does with a poisoned line at `addr`: a composition unit stops its item and goes on to the next of its cue;
a cue processor's sheet is not marked complete when the line is one of cue sheets, and keeps the probe as it was when it is one
of a frame. The codec engines' response comes with their pictures, that of the others with the delivery. -/
def respondPoison (src addr : Nat) (s : State) : State :=
  if src < 32 then dropWork src s
  else if 56 ≤ src ∧ src < 88 then
    if ((partitionOf s addr).map fun p => p.use == 6).getD false then modTick (fun o => { o with cueBad := true }) s
    else modTick (fun o => { o with badReads := addr :: o.badReads }) s
  else s

/-- ACCESS_CHECK with what a refused read makes its reader do: all but the PCIe endpoint, the Warden and the debug master
take it as a poisoned line (R360). -/
def accessChecked (x : Access) (s : State) : State :=
  let refused := !isFenced s x.src && !x.write && (anyRefused s x).isSome
  (accessCheck x s).when (refused && decide (x.src < 152)) (respondPoison x.src x.addr)

/-! ### Bands and votes -/

/-- A band or a vote may complete a frame that an encode reel waits for. -/
def bandCompleted (u : Nat) (s : State) : State := dispatchEngines (bandComplete u s)
def bandDeadline' (f k : Nat) (s : State) : State := dispatchEngines (bandDeadlineAt f k s)
def voteArrived (f t u sig : Nat) (s : State) : State := dispatchEngines (voteSignatureArrival f t u sig s)
def voteCut (f k : Nat) (s : State) : State := dispatchEngines (voteCutoff f k s)

/-- CUE_SHEET_COMPLETE: the cue processors mark the sheet for the next tick complete no later than the publication guard
before the edge (R26), with the probes signed (R178); one that they cannot complete stays unmarked (R331). -/
def cueSheetComplete (ok : Bool) (s : State) : State :=
  match s.tick.building with
  | none => s
  | some sh =>
    if ok && !s.tick.complete && !s.tick.cueBad
        && decide (s.nowNs + s.rd R.TICK_CFG_PUB_GUARD * 1000 ≤ s.tick.nextEdgeNs) then
      let us := (s.nowNs - s.tick.lastEdgeNs) / 1000
      (modTick (fun o => { o with building := some { sh with probes := signProbes s sh }, complete := true, buildUs := us }) s).wr
        R.TICK_BUILD_COMPLETE 1
    else s

/-- FAULT_RECORD_TIMEOUT: a record that needs an action has waited 64 ticks, or both dies are lost: a package fault (R248). -/
def faultRecordTimeout (s : State) : State :=
  if s.faults.openRecs.any (timedOut s) then pkgFault 5 s else s

end Sys2Proof.Machine
end

