-- ==== Sys2Proof/Machine/Tick.lean ====
section
/-!
DEFINITION. TICK_EDGE (R12 to R31, R220, R533): the commit and what starts or stops with it, the source of the tick, a waiting
reload, publication of the sheet, evaluation of the tiles and the frames of the tick, the blocks' parts of an edge, and the
next sheet.
-/
namespace Sys2Proof.Machine

/-! ### The commit and what follows it -/

/-- The flue frames that have completed since the last edge are complete at this one: its time `w` is their stamp until a
layer's crop gives another (R91, R99). -/
def stampFlueFrames (w : Nat) (s : State) : State :=
  let last := ((s.tick.lastEdgeNs : Int) - s.time.offset).toNat
  (List.range 24).foldl (fun s f =>
    let o := s.source (sourceKey 5 f)
    match o.newest with
    | some fr => if last ≤ o.doneNs ∧ o.doneNs < s.monoNs
        then s.setSource (sourceKey 5 f) { o with newest := some { fr with stamp := w } } else s
    | none => s) s

/-- The edge begins: its number, its time, and the once-per-tick rules afresh (R18, R36). -/
def beginEdge (s : State) : State :=
  let e := s.tick.nextEdgeNs
  let n := if s.tick.firstEdge then 0 else s.rd R.TICK_COUNT_COUNT + 1
  let s := stampFlueFrames (wusOf e) s
  let s := { s with evq := { s.evq with raisedTick := [] }, tick := { s.tick with lastEdgeNs := e } }
  ((s.wr R.TICK_COUNT_COUNT n).wr R.TICK_EDGE_WUS_WUS (wusOf e)).wr R.TICK_STATUS_RUN 1

/-- Every buffer of the ring of a flue that a commit enables counts as empty (R558). -/
def emptyRingAt (was : Nat → Bool) (s : State) (f : Nat) : State :=
  if s.rdb (R.CMP_FLUE_CTRL_ENABLE f) && !was f then
    ((s.setFlue f { s.flue f with ring := [], bufBands := [], bufSigs := [] }).wr (R.CMP_FLUE_HELD_IDX_NEWEST f) 0xFF).wr
      (R.CMP_FLUE_HELD_IDX_WRITING f) 0xFF
  else s

/-- A commit turns a check unit on or off (R499); the endless message of a matrix point begins at the commit that enables its unit
(R494). -/
def chkStart (was : Nat → Bool) (s : State) (u : Nat) : State :=
  let on := s.rdb (R.CHK_CU_CFG_ENABLE u)
  if on == was u then s else (chkTurn u on s).when on (chkRestartWrite u)

/-- An expected-signature entry that a commit enables starts afresh (R210). -/
def expStart (was : Nat → Bool) (s : State) : State :=
  let es := s.regs.filterMap fun (p : Nat × Word) =>
    if 0xB4000 ≤ p.1 ∧ p.1 < 0xB8000 ∧ p.1 % 16 = 0 then some ((p.1 - 0xB4000) / 16) else none
  let on := es.filter fun e => s.rdb (R.CRT_EXP_CTRL_ENABLE e) && !was e
  { s with comp := { s.comp with expLast := on.foldl (fun x e => x.set (fun _ => 0) e 0) s.comp.expLast } }

/-- What a commit starts and stops; `old` is the state before it, and with `all` every live value counts as committed
(R224). -/
def commitObjects (old : State) (all : Bool) (s : State) : State :=
  let was (f : Nat → Fld) (n : Nat) : Bool := !all && old.rdb (f n)
  let ports := (List.range 53).filter (· != 48)
  let s := ports.foldl (portCommit (was R.PORT_CFG_ENABLE)) s
  let s := lanesTickEdge s
  let s := (List.range 32).foldl (audCommitRoute (was R.AUD_RT_CTRL_ENABLE)) s
  let s := (List.range 4).foldl (tchCommitPanel (was R.TCH_PNL_CTRL_ENABLE)) s
  let s := (List.range 128).foldl (reelCommit (was R.REEL_CFG_ENABLE)) s
  let s := (List.range 128).foldl (encCommit (was R.REEL_CFG_ENABLE)) s
  let s := (span 40 8).foldl membershipCommit s
  let s := (List.range 24).foldl (emptyRingAt (was R.CMP_FLUE_CTRL_ENABLE)) s
  expStart (was R.CRT_EXP_CTRL_ENABLE) ((List.range 16).foldl (chkStart (was R.CHK_CU_CFG_ENABLE)) s)

/-! ### Publication (R26 to R30, R56, R178) -/

/-- A published sheet gives bands to new units: they are theirs from now on, and the stopped cues that they came from are
empty (R56). -/
def takeRedistribution (sh : Sheet) (s : State) : State :=
  if sh.redist.isEmpty then s
  else
    let s := { s with comp := { s.comp with
      bandUnits := sh.redist.foldl (fun (t : Tab Nat) k =>
        t.set (fun _ => 0xFF) k (sh.bandUnits.get (fun _ => 0xFF) k)) s.comp.bandUnits
      redistribute := s.comp.redistribute.filter fun k => !sh.redist.contains k } }
    let s := (List.range 32).foldl (fun s u =>
      let x := s.unit u
      if x.stopped && x.withdrawn && (bandsOfUnit s u).isEmpty then s.setUnit u { x with stopped := false } else s) s
    refreshHier ((span 0 256).foldl (fun s i => if (s.frec i).holding then endHold i s else s) (refreshHold s))

/-- The sheet that was complete becomes the published one (R26). -/
def publish (sh : Sheet) (s : State) : State :=
  let old := levelNow s
  let s := takeLevels old (modTick (fun o => { o with current := some sh }) s)
  let s := sh.probes.foldl applyProbe s
  let s := (s.wr R.TICK_LATE_CONSEC 0).wr R.TICK_BUILD_LAST_BUILD_US (satTo 16 s.tick.buildUs)
  takeRedistribution sh (closeStall s)

/-- A sheet that is not complete is late: the events, and whether the cue processors stall (R27, R30). -/
def lateSheet (s : State) : List (Nat × Nat) × Bool × State :=
  let n := satTo 8 (s.rd R.TICK_LATE_CONSEC + 1)
  let stall := s.rd R.TICK_CTRL_LATE_LIMIT != 0 && n == s.rd R.TICK_CTRL_LATE_LIMIT && s.rd R.TICK_LATE_CONSEC != n
  let s := (s.wr R.TICK_LATE_TOTAL (satTo 16 (s.rd R.TICK_LATE_TOTAL + 1))).wr R.TICK_LATE_CONSEC n
  ((0x0101, s.rd R.TICK_COUNT_COUNT) :: (if stall then [(0x0102, n)] else []), stall, s)

/-- The publication point of an edge: TICK events, and the state. -/
def publishPoint (s : State) : List (Nat × Nat) × State :=
  match s.tick.building with
  | none => ([], s)
  | some sh =>
    if s.tick.complete then ([], publish sh s)
    else
      let (evs, stall, s) := lateSheet s
      (evs, s.when stall (logFault 0x0B 5 0 false))

/-! ### Evaluation (R155 to R175) -/

/-- The layers that an edge reports on: those of the sheet, and those that drew ember before and have left it. -/
def reportedLayers (s : State) (las : List LayerAge) : List LayerAge :=
  las ++ s.comp.layers.filterMap fun (p : Nat × LayerState) =>
    if (p.2.overPrev || p.2.untrustPrev || p.2.aheadPrev) && !las.any (·.num == p.1)
    then some { num := p.1, age := 0xFFFFFFFF, bound := false, limit := none } else none

/-- The tiles, frames and layer windows of an edge: CMP and FRS events, the layers' ages, the state. -/
def evaluateEdge (sweepDue : Bool) (s : State) : List (Nat × Nat) × List (Nat × Nat) × List LayerAge × State :=
  let now := s.rd R.TICK_EDGE_WUS_WUS
  let (swept, s) := if sweepDue then sweep now s else ([], s)
  match s.tick.current with
  | none =>
    let s := (List.range 24).foldl (fun s f => retireFrames f s) s
    ([], swept, [], clearLayerWindows s)
  | some sh =>
    let las := layerAges s sh now
    let (tiles, s) := (List.range 24).foldl (edgeFlue sh las) ([], s)
    let s := las.foldl (layerWindow tiles sh) (clearLayerWindows s)
    let (frs, s) := (reportedLayers s las).foldl (fun acc la =>
      let (e, s) := layerFreshEvents tiles la acc.2
      (acc.1 ++ e, s)) (swept, s)
    (depthEvents sh, frs, las, s)

/-! ### The next sheet (R25, R56, R92) -/

/-- The unit that takes one more band in a redistribution: the one in service with the fewest bands, the lowest-numbered of
equals. -/
def lightestUnit (s : State) (t : Tab Nat) : Option Nat :=
  let us := (List.range 32).filter fun u => memberServes s u && holdsWork s u
  let n (u : Nat) : Nat := (t.filter fun (p : Nat × Nat) => p.2 == u).length
  us.foldl (fun (b : Option Nat) u =>
    match b with | none => some u | some v => if n u < n v then some u else some v) none

/-- The bands without a unit are given to units in service (R56). -/
def redistributed (s : State) : Tab Nat × List Nat :=
  s.comp.redistribute.foldl (fun (acc : Tab Nat × List Nat) k =>
    match lightestUnit s acc.1 with
    | none => acc
    | some u => (acc.1.set (fun _ => 0xFF) k u, acc.2 ++ [k])) (s.comp.bandUnits, [])

/-- The cue processors begin the sheet for the next tick from what this edge has committed (R25): LYR events, the state. -/
def beginSheet (s : State) : List (Nat × Nat) × State :=
  let (layers, evs, s) := bindLayers s
  let (units, redist) := redistributed s
  let sh : Sheet := { tick := s.rd R.TICK_COUNT_COUNT, layers, bandUnits := units, redist
                      regs := s.regs.filter fun (p : Nat × Word) => decide (0x40000 ≤ p.1) && decide (p.1 < 0xC0000) }
  let sh := damperSheet s sh
  let sh := { sh with direct := honoured s sh }
  let (evs2, s) := directEvents sh s
  let s := modTick (fun o => { o with building := some sh, complete := false, cueBad := false, badReads := [], buildUs := 0 }) s
  (evs ++ evs2, s.wr R.TICK_BUILD_COMPLETE 0)

/-! ### The system's part (R426, R431, R432) -/

/-- The CLAIM of this package, once per tick, and the master's EDGE, on every up link. -/
def systemEdge (s : State) : State :=
  let s := refreshPkg (reelect s)
  let (cand, prio) := ownClaim s
  let id := pkgId s
  let count := s.rd R.TICK_COUNT_COUNT
  let q := [1] ++ leBytes 1 id ++ leBytes 1 prio ++ [0] ++ leBytes 4 count ++ List.replicate 12 0
    ++ leBytes 1 (b2n cand) ++ List.replicate 11 0
  let claim : CrlFrame := { typ := 1, cls := 0, payload := q }
  let e := s.tick.lastEdgeNs
  let p := [0] ++ leBytes 1 id ++ leBytes 1 prio ++ [0] ++ leBytes 4 count ++ timeField e ++ [0, 0, 0, 0]
    ++ leBytes 1 (s.rd R.TICK_CFG_RATE) ++ List.replicate 11 0
  let edge : CrlFrame := { typ := 1, cls := 0, patch := 1, refNs := ((e : Int) - s.time.offset).toNat, payload := p }
  let s := s.when (isMaster s) (flood none edge)
  exportEdge (flood none claim s)

/-- The units' canaries of the new tick are still to come (R42). -/
def newCanaries (s : State) : State :=
  (List.range 32).foldl (fun s u => s.setUnit u { s.unit u with canaryDone := false, canaryFailed := false }) s

/-! ### TICK_EDGE -/

/-- The edge from the publication on, for a tick that runs: `old` is the state before the commit, and with `all` there
was no edge before (R224). -/
def runEdge (energyUj : Nat) (old : State) (committed all : Bool) (imgEvs lyrEvs : List (Nat × Nat)) (s : State) : State :=
  let s := tmoTickEdge s.tick.lastEdgeNs (planEdge s.tick.lastEdgeNs s)
  let (tickEvs, s) := publishPoint s
  let s := refreshDirect (newCanaries (voteTickEdge (faultRecordTimeout (faultsTickEdge s))))
  let sweepDue := !all && s.rd R.TICK_EDGE_WUS_WUS / 2 ^ 30 != old.rd R.TICK_EDGE_WUS_WUS / 2 ^ 30
  let (cmpEvs, frsEvs, las, s) := evaluateEdge sweepDue s
  let (sntEvs, s) := match s.tick.current with | none => ([], s) | some sh => probeEvents sh s
  let s := sentinelTickEdge (fun f => !all && old.rdb (R.SNT_FLUE_CFG_ENABLE f)) s.tick.current s
  let (dmpEvs, s) := damperTickEdge energyUj (old.rdb R.DMP_CTRL_ENABLE) las s
  let s := reelTickEdge (hearthTickEdge (tchTickEdge (audTickEdge s)))
  let (bindEvs, s) := beginSheet s
  let clapEvs := if committed && s.rdb R.CLAP_CTRL_COMMIT_EVT then [(0x0303, s.rd R.CLAP_SEQ_COMMITS)] else []
  let s := raiseEdges clapEvs (raiseEdges imgEvs (raiseEdges tickEvs s))
  let s := raiseEdges frsEvs (raiseEdges cmpEvs (raiseEdges (lyrEvs ++ bindEvs) s))
  let s := refreshHier (raiseEdges dmpEvs (raiseEdges sntEvs s))
  dispatchEngines (systemEdge (checkLost s))

/-- The present cycle is the one nearest to the exact time of the next edge, or a later one (R12). -/
def edgeDue (s : State) : Bool :=
  let u := edgeUnit (s.rd R.TICK_CFG_RATE)
  let inc := s.rd R.TMB_INC_INT_INT * 2 ^ 32 + s.rd R.TMB_INC_FRAC_FRAC
  decide (((s.tick.nextEdgeNs : Int) * u + s.tick.edgeRest) * 2 ^ 33
    < ((s.nowNs * 2 ^ 33 + 2 * s.time.frac + inc : Nat) : Int) * u)

/-- TICK_EDGE: the next tick edge arrives; `energyUj` is the energy of the tick that ends, as the meter gives it (R258). -/
def tickEdge (energyUj : Nat) (s : State) : State :=
  if !s.tick.geometryApplied || !edgeDue s then s
  else
    let old := s
    let first := s.tick.firstEdge
    let all := first && s.tick.countAll
    let s := (List.range 24).foldl (fun s f => settleScans f (settleFrames f s)) s
    let (committed, s) := commitSeal (beginEdge s)
    let s := commitObjects old all (wakeAction s)
    let (lyrEvs, s) := if committed || all then checkLayers s else ([], s)
    let s := if committed || all then commitLayers all (s.rd R.TICK_EDGE_WUS_WUS) s else s
    let s := tickSourceCommit (sourceChoice old) (if first then selectSource s.tick.lastEdgeNs s else s)
    let (imgEvs, s) := imgTickEdge regWriteTouched s
    let s := modTick (fun o => { o with firstEdge := false, countAll := false }) s
    if s.rdb R.TICK_STATUS_RUN then clapAfterEdge (runEdge energyUj old committed all imgEvs lyrEvs s)
    else
      let s := modTick (fun o => { o with firstEdge := true }) s
      let clapEvs := if committed && s.rdb R.CLAP_CTRL_COMMIT_EVT then [(0x0303, s.rd R.CLAP_SEQ_COMMITS)] else []
      clapAfterEdge (raiseEdges lyrEvs (raiseEdges clapEvs (raiseEdges imgEvs s)))

/-! ### Detections named by their rows (R230) -/

def cacheUe (c : Nat) (s : State) : State := clusterFault 4 c s
def sigEngine (c : Nat) (s : State) : State := clusterFault 5 c s
def unlocalised (c : Nat) (s : State) : State := clusterFault 7 c s

/-- FLUE_OUT: a parity error in the band buffer or output stage of flue `f`. -/
def flueOut (f : Nat) (s : State) : State := logFault 0x0A 3 f false s

end Sys2Proof.Machine
end

