-- ==== Sys2Proof/Machine/Cycle.lean ====
section
/-!
DEFINITION. One cycle of the 500 MHz reference clock with no command waiting (R439, R440): the timebase counts. The counter of
the time that panic requests were queued (R346) counts with it, and so do the errors of the lane tests (R386) and the time since AES67 packets came
(R473).
-/
namespace Sys2Proof.Machine

/-- The timebase one cycle on: TMB_INC is added to the nanoseconds and the fraction, with the carries of R439. -/
def countTime (inc : Nat) (t : TimeState) : TimeState :=
  let frac := t.frac + inc % 2 ^ 32
  let ns := t.ns + inc / 2 ^ 32 + frac / 2 ^ 32
  { t with frac := frac % 2 ^ 32, ns := ns % 1000000000, sec := (t.sec + ns / 1000000000) % 2 ^ 48 }

/-- The increment in force, in units of 2^-32 ns (R440). -/
def incInForce (s : State) : Nat := s.rd R.TMB_INC_INT_INT * 2 ^ 32 + s.rd R.TMB_INC_FRAC_FRAC

/-- The channels in service at which a request of a real-time port in panic is queued count a cycle (R346). -/
def countPanic (s : State) : State :=
  (s.mem.outstanding.filter fun o => inPanic s o.access.src).foldl (fun t o =>
    let c := channelOf s o.access.addr
    if s.rd (R.HRT_CH_STAT_STATE c) = 2 then t.setChan c { t.chan c with panicNs := (s.chan c).panicNs + 2 } else t) s

/-- A cycle with nothing waiting; while PORST_N is asserted nothing counts (R508). -/
def cycle (s : State) : State :=
  if s.power.porst then s else (countStreams (countErrors 2 (countPanic { s with time := countTime (incInForce s) s.time }))).flushEvents

end Sys2Proof.Machine
end

