-- ==== Sys2Proof/Machine/ComposeCommands.lean ====
section
/-!
DEFINITION. The meanings of the commands of composition units, bands, votes and the sentinels (chapters 02, 05, 07 and 08), one for each row of the table: the row's effect where the command
names hardware that the block has.
-/
namespace Sys2Proof.Machine

/-- BAND_START (R123). A unit starts a band or member item once the sheet is published and its band-buffer half is free. -/
def execBandStart (unit : Nat) (s : State) : Out := checked (.bandStart unit) (bandStart unit s)

/-- BAND_COMPLETE (R40). A unit finishes composing a band or member item and takes the next item of its cue. -/
def execBandComplete (unit : Nat) (s : State) : Out := checked (.bandComplete unit) (bandCompleted unit s)

/-- CANARY_SIGNED (R42). A unit's canary tile is signed and compared with its expected ROM value. -/
def execCanarySigned (unit : Nat) (sig : Nat) (s : State) : Out :=
  checked (.canarySigned unit sig) (canarySigned unit sig s)

/-- CANARY_DEADLINE (R43). A canary not signed 100 µs before the next edge counts as failed. -/
def execCanaryDeadline (unit : Nat) (s : State) : Out := checked (.canaryDeadline unit) (canaryDeadline unit s)

/-- DIRECT_UNDERRUN (R146). A direct pixel misses the flue's scan and the rest of the frame is taken from the held copy. -/
def execDirectUnderrun (flue : Nat) (s : State) : Out := checked (.directUnderrun flue) (directUnderrun flue s)

/-- VOTE_SIGNATURE_ARRIVAL (R199). A member's tile signature reaches the flue's voter and may decide MAJORITY or FAIL. -/
def execVoteSignatureArrival (flue : Nat) (tile : Nat) (unit : Nat) (sig : Nat) (s : State) : Out :=
  checked (.voteSignatureArrival flue tile unit sig) (voteArrived flue tile unit sig s)

/-- VOTE_CUTOFF (R199). The vote cut-off is reached; undecided tiles fail and missing members count late. -/
def execVoteCutoff (flue : Nat) (band : Nat) (s : State) : Out := checked (.voteCutoff flue band) (voteCut flue band s)

/-- SENTINEL_EVALUATION (R184). At frame k0+24 the correlator evaluates a code period, confirming and refining latency. -/
def execSentinelEvaluation (flue : Nat) (samples : List Nat) (s : State) : Out :=
  checked (.sentinelEvaluation flue samples) (sentinelEvaluation flue samples s)

/-- GLASS_UNCONFIRMED (R186). CONFIRM_TICKS pass without confirmation and the flue becomes UNCONFIRMED. -/
def execGlassUnconfirmed (flue : Nat) (s : State) : Out := checked (.glassUnconfirmed flue) (glassUnconfirmed flue s)

/-- WARDEN_PROPOSAL (R212). A Warden core proposes an action record to the action port, which executes on two identical proposals. -/
def execWardenProposal (core : Nat) (index : Nat) (action : Nat) (object : Nat) (s : State) : Out :=
  checked (.wardenProposal core index action object) (wardenProposal core index action object s)

/-- VOTE_WINDOW_CLOSE (R213). A Warden vote window closes; dissenting cores are outvoted or a split is declared. -/
def execVoteWindowClose (s : State) : Out := checked .voteWindowClose (voteWindowClose s)

end Sys2Proof.Machine
end

