-- ==== Sys2Proof/Machine/CrinusCommands.lean ====
section
/-!
DEFINITION. The meanings of the commands of the Crinus links (chapter 18), one for each row of the table: the row's effect where the command
names hardware that the block has.
-/
namespace Sys2Proof.Machine

/-- CRL_FRAME_BAD (R420). A Crinus frame fails its check and is discarded, sending a NAK. -/
def execCrlFrameBad (link : Nat) (frame : List Byte) (s : State) : Out :=
  checked (.crlFrameBad link frame) (crlReceive .bad link frame s)

/-- CRL_CREDIT_RECEIVED (R422). A CREDIT frame updates freed units of a pool. -/
def execCrlCreditReceived (link : Nat) (frame : List Byte) (s : State) : Out :=
  checked (.crlCreditReceived link frame) (crlReceive .credit link frame s)

/-- CRL_NAK_RECEIVED (R424). A NAK header makes the sender rewind from ACK + 1. -/
def execCrlNakReceived (link : Nat) (frame : List Byte) (s : State) : Out :=
  checked (.crlNakReceived link frame) (crlReceive .nak link frame s)

/-- CRL_RETRY_TIMEOUT (R424). The oldest unacknowledged frame waits RETRY_US and the sender rewinds. -/
def execCrlRetryTimeout (link : Nat) (s : State) : Out := checked (.crlRetryTimeout link) (crlRetryTimeout link s)

/-- CRL_TILE_EXPIRY (R425). A TILE frame expires IMPORT_CUT_US before the next edge. -/
def execCrlTileExpiry (link : Nat) (s : State) : Out := checked (.crlTileExpiry link) (crlTileExpiry link s)

/-- CRL_LAYER_RECEIVED (R429). A LAYER frame starts an import into a frame buffer. -/
def execCrlLayerReceived (link : Nat) (frame : List Byte) (s : State) : Out :=
  checked (.crlLayerReceived link frame) (crlReceive .layer link frame s)

/-- CRL_TILE_RECEIVED (R429). A TILE frame is written into its import buffer, completing the frame when all tiles arrive. -/
def execCrlTileReceived (link : Nat) (frame : List Byte) (s : State) : Out :=
  checked (.crlTileReceived link frame) (crlReceive .tile link frame s)

/-- IMPORT_CUT (R429). At the import cut missing tiles are held and the frame completes. -/
def execImportCut (s : State) : Out := checked .importCut (importCut s)

/-- CRL_EDGE_RECEIVED (R434). An EDGE frame sets a follower's tick edge and is forwarded. -/
def execCrlEdgeReceived (link : Nat) (frame : List Byte) (s : State) : Out :=
  checked (.crlEdgeReceived link frame) (crlReceive .edge link frame s)

/-- CRL_CLAIM_RECEIVED (R431). A CLAIM frame is recorded for the election and forwarded. -/
def execCrlClaimReceived (link : Nat) (frame : List Byte) (s : State) : Out :=
  checked (.crlClaimReceived link frame) (crlReceive .claim link frame s)

/-- CRL_MASTER_CHANGE (R431). CLAIMs of the master are absent for 8 ticks and a new master is elected. -/
def execCrlMasterChange (s : State) : Out := checked .crlMasterChange (crlMasterChange s)

/-- CRL_DELAY_REQ_RECEIVED (R432). A DELAY_REQ is answered with a DELAY_RESP. -/
def execCrlDelayReqReceived (link : Nat) (frame : List Byte) (s : State) : Out :=
  checked (.crlDelayReqReceived link frame) (crlReceive .delayReq link frame s)

/-- CRL_DELAY_RESP_RECEIVED (R432). A DELAY_RESP updates the link delay, bringing the link UP after 16 exchanges. -/
def execCrlDelayRespReceived (link : Nat) (frame : List Byte) (s : State) : Out :=
  checked (.crlDelayRespReceived link frame) (crlReceive .delayResp link frame s)

/-- CRL_DELAY_TIMER (R432). Once per second after link-up a delay exchange is sent. -/
def execCrlDelayTimer (link : Nat) (s : State) : Out := checked (.crlDelayTimer link) (crlDelayTimer link s)

/-- CRL_PEER_FAULT (R435). A WARDEN PKG_FAULT or WARM_RESET frame arrives and the link goes down. -/
def execCrlPeerFault (link : Nat) (frame : List Byte) (s : State) : Out :=
  checked (.crlPeerFault link frame) (crlReceive .warden link frame s)

/-- CRL_REG_GO (R436). A write of 1 to CRL_REG_CMD.GO sends a REG request. -/
def execCrlRegGo (s : State) : Out := checked .crlRegGo (crlRegGo s)

/-- CRL_REG_REQUEST_RECEIVED (R436). A REG request is carried out under MPU2, fenced and answered. -/
def execCrlRegRequestReceived (link : Nat) (frame : List Byte) (s : State) : Out :=
  checked (.crlRegRequestReceived link frame) (crlReceive .regRequest link frame s)

/-- CRL_REG_RESPONSE_RECEIVED (R436). A REG response completes the outstanding request. -/
def execCrlRegResponseReceived (link : Nat) (frame : List Byte) (s : State) : Out :=
  checked (.crlRegResponseReceived link frame) (crlReceive .regResponse link frame s)

/-- CRL_REG_TIMEOUT (R436). A REG request has no response in 100 µs and ends with STATUS 2. -/
def execCrlRegTimeout (s : State) : Out := checked .crlRegTimeout (crlRegTimeout s)

/-- CRL_FRAME_BOUNDARY (R423). A Crinus sender finishes a frame and takes the next frame from the highest non-empty class, subject to credits. -/
def execCrlFrameBoundary (link : Nat) (s : State) : Out := checked (.crlFrameBoundary link) (crlFrameBoundary link s)

end Sys2Proof.Machine
end

