-- ==== Sys2Proof/Machine/FaultCommands.lean ====
section
/-!
DEFINITION. The meanings of the commands of faults, their handling and their injection, and the damper (chapters 10 and 11), one for each row of the table: the row's effect where the command
names hardware that the block has.
-/
namespace Sys2Proof.Machine

/-- DAMPER_RELAX (R270). After RELAX_TICKS consecutive edges below the relaxation threshold the most recent action is undone. -/
def execDamperRelax (s : State) : Out := checked .damperRelax (damperRelax s)

/-- HANDLER_STAGE_END (R236). The 8 µs handler stage ends; overrunning handlers are stopped or a split is declared. -/
def execHandlerStageEnd (overrun : List Nat) (s : State) : Out :=
  checked (.handlerStageEnd overrun) (handlerStageEnd overrun s)

/-- UNIT_STALL (R230). A unit that started an item completes no tile of it for 8 µs. -/
def execUnitStall (unit : Nat) (s : State) : Out := checked (.unitStall unit) (unitStall unit s)

/-- CACHE_UE (R230). An uncorrectable tile-cache error is detected in a cluster. -/
def execCacheUe (cluster : Nat) (s : State) : Out := checked (.cacheUe cluster) (cacheUe cluster s)

/-- SIG_ENGINE (R230). A signature engine's dual-rail comparison disagrees. -/
def execSigEngine (cluster : Nat) (s : State) : Out := checked (.sigEngine cluster) (sigEngine cluster s)

/-- UNLOCALISED (R230). A cluster reports a composition fault without naming a unit. -/
def execUnlocalised (cluster : Nat) (s : State) : Out := checked (.unlocalised cluster) (unlocalised cluster s)

/-- DIE_CLOCK (R230). A compute die's composition PLL loses lock, logging one record per region. -/
def execDieClock (die : Nat) (s : State) : Out := checked (.dieClock die) (dieClock die s)

/-- FLUE_OUT (R230). A parity error in a flue's band buffer or output stage is detected. -/
def execFlueOut (flue : Nat) (s : State) : Out := checked (.flueOut flue) (flueOut flue s)

/-- FAULT_HANDLING_START (R234). The Warden takes the next queued record and starts handlers on every core in the vote. -/
def execFaultHandlingStart (s : State) : Out := checked .faultHandlingStart (faultHandlingStart s)

/-- FAULT_ACTION_EXECUTED (R235). An action's execution completes, moving cues and ending the fault hold. -/
def execFaultActionExecuted (s : State) : Out := checked .faultActionExecuted (faultActionExecuted s)

/-- FAULT_RECORD_TIMEOUT (R248). A record stays queued, handling or retry for 64 ticks and a package fault is declared. -/
def execFaultRecordTimeout (s : State) : Out := checked .faultRecordTimeout (faultRecordTimeout s)

/-- REGION_RESET_CHECK (R246). 1 ms after a region reset the supply is checked and the region stays unpowered if still outside its window. -/
def execRegionResetCheck (region : Nat) (s : State) : Out :=
  checked (.regionResetCheck region) (regionResetCheck region s)

/-- INJ_RX_CFG_WRITE (R249). A write to INJ_RX_CFG arms receive-path injection if permitted, else INJ_DENIED. -/
def execInjRxCfgWrite (path : Nat) (value : Nat) (s : State) : Out :=
  checked (.injRxCfgWrite path value) (injRxCfgWrite path value s)

/-- INJ_VOTER_WRITE (R249). A write to INJ_VOTER arms voter-input corruption if permitted. -/
def execInjVoterWrite (value : Nat) (s : State) : Out := checked (.injVoterWrite value) (injVoterWrite value s)

/-- INJ_DRAM_WRITE (R249). A write to INJ_DRAM arms DRAM ECC injection if permitted. -/
def execInjDramWrite (value : Nat) (s : State) : Out := checked (.injDramWrite value) (injDramWrite value s)

/-- INJ_LANE_WRITE (R249). A write to INJ_LANE arms lane bit errors if permitted. -/
def execInjLaneWrite (value : Nat) (s : State) : Out := checked (.injLaneWrite value) (injLaneWrite value s)

/-- INJ_DONE (R255). An injection COUNT reaches 0 and the kind disarms. -/
def execInjDone (kind : Nat) (s : State) : Out := checked (.injDone kind) (injDone kind s)

/-- TEMP_SAMPLE (R257). A temperature sensor is sampled, possibly beginning a thermal emergency. -/
def execTempSample (sensor : Nat) (eighths : Int) (s : State) : Out :=
  checked (.tempSample sensor eighths) (tempSample sensor eighths s)

/-- THERM_CLEAR (R272). Every sensor reads 105 °C or less for 64 consecutive edges and the emergency ends. -/
def execThermClear (s : State) : Out := checked .thermClear (thermClear s)

/-- THERMTRIP (R273). A sensor comparator reaches 120 °C and THERMTRIP_N asserts, a package fault. -/
def execThermtrip (sensor : Nat) (s : State) : Out := checked (.thermtrip sensor) (thermTrip sensor s)

/-- EVQ_STAGING_UE (R248). An uncorrectable error occurs in the event queue or image staging memory and a package fault is declared. -/
def execEvqStagingUe (s : State) : Out := checked .evqStagingUe (evqStagingUe s)

end Sys2Proof.Machine
end

