-- ==== Sys2Proof/Machine/ImageCommands.lean ====
section
/-!
DEFINITION. The meanings of the commands of structure images and the fuses (chapter 03), one for each row of the table: the row's effect where the command
names hardware that the block has.
-/
namespace Sys2Proof.Machine

/-- IMG_GO (R77). A write of 1 to IMG_CTRL.GO starts a load from IMG_SRC, or is ignored while busy. -/
def execImgGo (s : State) : Out := checked .imgGo (imgGo s)

/-- IMG_CANCEL (R82). A write of 1 to IMG_CTRL.CANCEL refuses a waiting reload under CANCELLED. -/
def execImgCancel (s : State) : Out := checked .imgCancel (imgCancel s)

/-- IMG_READ_DONE (R552). A read part of the image completes and its checks are made. -/
def execImgReadDone (bytes : List Byte) (fail : Option Nat) (s : State) : Out :=
  checked (.imgReadDone bytes fail) (imgReadDone bytes fail s)

/-- IMG_VERIFY_DONE (R65). Hashing and signature verification complete and the key and SVN are checked. -/
def execImgVerifyDone (s : State) : Out := checked .imgVerifyDone (imgVerifyDone s)

/-- IMG_VALIDATE_DONE (R70). Section and cross-checks complete; a full image starts applying, a partial one waits. -/
def execImgValidateDone (s : State) : Out := checked .imgValidateDone (imgValidateDone s)

/-- IMG_APPLY_STEP_DONE (R73). An application step of a full image completes and the next begins, ending in IMG_LOADED or APPLY_FAIL. -/
def execImgApplyStepDone (ok : Bool) (failed : List Nat) (s : State) : Out :=
  checked (.imgApplyStepDone ok failed) (imgApplyStepDone regWriteTouched ok failed s)

/-- IMG_IDLE_TIMEOUT (R82). WAIT_TICKS edges pass without the reload conditions holding and the image is refused. -/
def execImgIdleTimeout (s : State) : Out := checked .imgIdleTimeout (imgIdleTimeout s)

/-- FUSE_PROGRAM_SLOT0 (R69). IMG_FUSE_PROG op 0x1 programs key slot 0 from IMG_FUSE_DATA. -/
def execFuseProgramSlot0 (s : State) : Out := checked .fuseProgramSlot0 (fuseProgramSlot0 s)

/-- FUSE_PROGRAM_SLOT1 (R69). IMG_FUSE_PROG op 0x2 programs key slot 1. -/
def execFuseProgramSlot1 (s : State) : Out := checked .fuseProgramSlot1 (fuseProgramSlot1 s)

/-- FUSE_REVOKE_SLOT0 (R69). IMG_FUSE_PROG op 0x3 revokes key slot 0. -/
def execFuseRevokeSlot0 (s : State) : Out := checked .fuseRevokeSlot0 (fuseRevokeSlot0 s)

/-- FUSE_REVOKE_SLOT1 (R69). IMG_FUSE_PROG op 0x4 revokes key slot 1. -/
def execFuseRevokeSlot1 (s : State) : Out := checked .fuseRevokeSlot1 (fuseRevokeSlot1 s)

/-- FUSE_ADVANCE_SVN (R69). IMG_FUSE_PROG op 0x5 advances the fuse SVN by one. -/
def execFuseAdvanceSvn (s : State) : Out := checked .fuseAdvanceSvn (fuseAdvanceSvn s)

/-- FUSE_BLOW_INJ_FORBID (R69). IMG_FUSE_PROG op 0x6 blows the INJ_FORBID fuse. -/
def execFuseBlowInjForbid (s : State) : Out := checked .fuseBlowInjForbid (fuseBlowInjForbid s)

end Sys2Proof.Machine
end

