-- ==== Sys2Proof/Machine/LaneCommands.lean ====
section
/-!
DEFINITION. The meanings of the commands of the serial lanes (chapter 16), one for each row of the table: the row's effect where the command
names hardware that the block has.
-/
namespace Sys2Proof.Machine

/-- TRAINING_BLOCK_RECEIVED (R378). A Crinus training block arrives at rate 0x0, advancing lock, READY or STEP. -/
def execTrainingBlockReceived (lane : Nat) (chars : List Byte) (s : State) : Out :=
  checked (.trainingBlockReceived lane chars) (trainingBlockReceived lane chars s)

/-- PLL_RELOCK_DONE (R371). A lane PLL relocks at a new rate and adaptation begins. -/
def execPllRelockDone (lane : Nat) (s : State) : Out := checked (.pllRelockDone lane) (pllRelockDone lane s)

/-- LANE_TRAINING_BLOCK (R379). A 64b/66b lane training block arrives carrying state and preset requests. -/
def execLaneTrainingBlock (lane : Nat) (bytes : List Byte) (s : State) : Out :=
  checked (.laneTrainingBlock lane bytes) (laneTrainingBlock lane bytes s)

/-- ADAPTATION_DONE (R376). Initial adaptation ends and the lane sends READY or FAIL. -/
def execAdaptationDone (lane : Nat) (adapt : Adapt) (s : State) : Out :=
  checked (.adaptationDone lane adapt) (adaptationDone lane adapt s)

/-- LANE_TRAIN_TIMEOUT (R380). Lanes are not trained within 6 ms and the port falls back. -/
def execLaneTrainTimeout (port : Nat) (s : State) : Out := checked (.laneTrainTimeout port) (laneTrainTimeout port s)

/-- LANE_RETRY_RESTART (R380). RETRY_S after a training failure the sequence restarts without a cap. -/
def execLaneRetryRestart (port : Nat) (s : State) : Out := checked (.laneRetryRestart port) (laneRetryRestart port s)

/-- ALIGNMENT_MARKER (R381). An alignment marker arrives, aligning the lane and reporting the peer id. -/
def execAlignmentMarker (lane : Nat) (bytes : List Byte) (position : Nat) (arrivalUi : Nat) (s : State) : Out :=
  checked (.alignmentMarker lane bytes position arrivalUi) (alignmentMarker lane bytes position arrivalUi s)

/-- LANE_DESKEW_FAIL (R381). A lane is not aligned within 3 marker periods and deskew fails. -/
def execLaneDeskewFail (port : Nat) (s : State) : Out := checked (.laneDeskewFail port) (laneDeskewFail port s)

/-- LANE_ALIGN_LOST (R382). No valid marker at 3 expected positions and the lane loses alignment. -/
def execLaneAlignLost (lane : Nat) (s : State) : Out := checked (.laneAlignLost lane) (laneAlignLost lane s)

/-- LANE_REALIGN_TIMEOUT (R382). A lane has not realigned in 4 marker periods and the port returns to BLIND. -/
def execLaneRealignTimeout (lane : Nat) (s : State) : Out :=
  checked (.laneRealignTimeout lane) (laneRealignTimeout lane s)

/-- LANE_DEEP_LP_ENTRY (R383). An unassigned or disabled lane enters the deep low-power state. -/
def execLaneDeepLpEntry (lane : Nat) (s : State) : Out := checked (.laneDeepLpEntry lane) (laneDeepLpEntry lane s)

/-- LANE_WAKE_DONE (R383). 40 µs after the cause ends a lane leaves deep low power and training begins. -/
def execLaneWakeDone (lane : Nat) (s : State) : Out := checked (.laneWakeDone lane) (laneWakeDone lane s)

/-- LANE_EYE_REFRESH (R375). Every 100 ms an UP lane's eye figure is refreshed. -/
def execLaneEyeRefresh (lane : Nat) (v : Nat) (h : Nat) (s : State) : Out :=
  checked (.laneEyeRefresh lane v h) (laneEyeRefresh lane v h s)

/-- LANE_SURVEY (R387). A write of 1 to LANE_CTRL.SURVEY requests a channel survey. -/
def execLaneSurvey (lane : Nat) (s : State) : Out := checked (.laneSurvey lane) (laneSurvey lane s)

/-- LANE_ERR_ONE (R386). A write of 1 to LANE_TEST.ERR_ONE inverts one transmitted bit. -/
def execLaneErrOne (lane : Nat) (s : State) : Out := checked (.laneErrOne lane) (laneErrOne lane s)

/-- PRBS_LOCK (R386). The PRBS checker predicts 64 consecutive received bits correctly and locks, starting its error and bit counts. -/
def execPrbsLock (lane : Nat) (s : State) : Out := checked (.prbsLock lane) (prbsLock lane s)

/-- PRBS_LOCK_LOST (R386). The PRBS checker sees 32 or more errors in 256 bits, loses lock and seeds itself again. -/
def execPrbsLockLost (lane : Nat) (s : State) : Out := checked (.prbsLockLost lane) (prbsLockLost lane s)

/-- PRBS_ERROR (R386). A locked PRBS checker finds an error, counts it and raises LANE_PRBS_ERR at the first error after a MODE write. -/
def execPrbsError (lane : Nat) (s : State) : Out := checked (.prbsError lane) (prbsError lane s)

/-- LANE_TEST_MODE_WRITE (R385). A write of LANE_TEST.MODE puts the lane into a test mode or returns it to deep low power, and clears the PRBS counters. -/
def execLaneTestModeWrite (lane : Nat) (value : Nat) (s : State) : Out :=
  checked (.laneTestModeWrite lane value) (laneTestModeWrite lane value s)

/-- STEP_TX_SWITCH (R379). A Crinus lane finishes sending its 16 STEP blocks and switches its transmitter to TARGET. -/
def execStepTxSwitch (lane : Nat) (s : State) : Out := checked (.stepTxSwitch lane) (stepTxSwitch lane s)

/-- STEP_RX_TIMEOUT (R379). 16 block times after its first STEP block a receiver that missed COUNT 0 switches to TARGET. -/
def execStepRxTimeout (lane : Nat) (s : State) : Out := checked (.stepRxTimeout lane) (stepRxTimeout lane s)

end Sys2Proof.Machine
end

