-- ==== Sys2Proof/Machine/MemoryCommands.lean ====
section
/-!
DEFINITION. The meanings of the commands of hearth memory, the matrix and its protection (chapters 14 and 15), one for each row of the table: the row's effect where the command
names hardware that the block has.
-/
namespace Sys2Proof.Machine

/-- DRAM_READ (R329). A line read is checked by ECC and colour, corrected or poisoned. -/
def execDramRead (src : Nat) (flips0 : Nat) (flips1 : Nat) (s : State) : Out :=
  checked (.dramRead src flips0 flips1) (dramRead respondPoison src flips0 flips1 s)

/-- DRAM_WRITE (R330). A line write is colour-checked and partial writes read-modify-write, possibly poisoned. -/
def execDramWrite (src : Nat) (flips0 : Nat) (flips1 : Nat) (s : State) : Out :=
  checked (.dramWrite src flips0 flips1) (dramWrite src flips0 flips1 s)

/-- SCRUB_READ (R333). The patrol scrubber reads the next line of its channel. -/
def execScrubRead (channel : Nat) (flips0 : Nat) (flips1 : Nat) (s : State) : Out :=
  checked (.scrubRead channel flips0 flips1) (scrubRead channel flips0 flips1 s)

/-- REFRESH_INTERVAL (R339). A tREFI interval elapses and each bank owes another refresh. -/
def execRefreshInterval (channel : Nat) (postponed : List Nat) (s : State) : Out :=
  checked (.refreshInterval channel postponed) (refreshInterval channel postponed s)

/-- FORCED_REFRESH (R340). A bank owes 8 intervals and an all-bank refresh is forced. -/
def execForcedRefresh (channel : Nat) (s : State) : Out := checked (.forcedRefresh channel) (forcedRefresh channel s)

/-- MR4_POLL (R341). Every 4 ms MR4 is read and derating or device-hot applied. -/
def execMr4Poll (channel : Nat) (code : Nat) (driftPs : Nat) (hot : Bool) (s : State) : Out :=
  checked (.mr4Poll channel code driftPs hot) (mr4Poll channel code driftPs hot s)

/-- ZQ_LATCH (R341). Every 32 ms a ZQ latch is issued. -/
def execZqLatch (channel : Nat) (s : State) : Out := checked (.zqLatch channel) (zqLatch channel s)

/-- HRT_PANIC (R338). A real-time port's buffer crosses its panic threshold, raising or clearing panic. -/
def execHrtPanic (port : Nat) (fill : Nat) (s : State) : Out := checked (.hrtPanic port fill) (hrtPanic port fill s)

/-- TRAIN_WINDOW_OPEN (R344). AT_US after an edge a retraining window opens for one channel if conditions hold. -/
def execTrainWindowOpen (s : State) : Out := checked .trainWindowOpen (trainWindowOpen s)

/-- RETRAIN_STEP_DONE (R344). A retraining step completes or fails. -/
def execRetrainStepDone (ok : Bool) (s : State) : Out := checked (.retrainStepDone ok) (retrainStepDone ok s)

/-- MTX_FENCE (R355). A read of MTX_FENCE fences the reading source. -/
def execMtxFence (src : Nat) (s : State) : Out := checked (.mtxFence src) (mtxFence src s)

/-- FENCE_COMPLETE (R337). A fence completes once earlier writes took effect and reads returned. -/
def execFenceComplete (src : Nat) (s : State) : Out := checked (.fenceComplete src) (fenceComplete src s)

/-- ACCESS_CHECK (R357). An access enters the matrix and is checked against its protection unit. -/
def execAccessCheck (access : Access) (s : State) : Out := checked (.accessCheck access) (accessChecked access s)

/-- MPU_UPD_GO (R363). A GO installs staged region contents and increments the epoch, or is refused. -/
def execMpuUpdGo (unit : Nat) (index : Nat) (s : State) : Out := checked (.mpuUpdGo unit index) (mpuUpdGo unit index s)

/-- MPU_DRAINED (R364). No older-epoch access remains in the affected range and the update is acknowledged. -/
def execMpuDrained (unit : Nat) (s : State) : Out := checked (.mpuDrained unit) (mpuDrainedThen unit s)

/-- MTX_LINK_ERR (R356). A die-to-die flit fails its CRC and is resent, or dropped after 15 resends. -/
def execMtxLinkErr (link : Nat) (failed : Nat) (src : Nat) (addr : Nat) (write : Bool) (s : State) : Out :=
  checked (.mtxLinkErr link failed src addr write) (mtxLinkErr link failed src addr write s)

end Sys2Proof.Machine
end

