-- ==== Sys2Proof/Machine/PortCommands.lean ====
section
/-!
DEFINITION. The meanings of the commands of the ports (chapter 17), one for each row of the table: the row's effect where the command
names hardware that the block has.
-/
namespace Sys2Proof.Machine

/-- RTCP_RR_TIMER (R408). Every 5 s a decode reel sends a receiver report. -/
def execRtcpRrTimer (reel : Nat) (s : State) : Out := checked (.rtcpRrTimer reel) (rtcpRrTimer reel s)

/-- AUX_REQUEST (R397). A sink receives an AUX transaction and serves DPCD or EDID. -/
def execAuxRequest (sink : Nat) (request : AuxRequest) (s : State) : Out :=
  checked (.auxRequest sink request) (auxRequest sink request s)

/-- SINK_LINK_LOSS (R399). A sink loses signal, lock or timing mid-frame and pulses IRQ_HPD. -/
def execSinkLinkLoss (sink : Nat) (kind : Nat) (s : State) : Out :=
  checked (.sinkLinkLoss sink kind) (sinkLinkLoss sink kind s)

/-- HPD_CONNECT (R400). HPD high for 2 ms at a source signals a connection and capabilities are read. -/
def execHpdConnect (port : Nat) (s : State) : Out := checked (.hpdConnect port) (hpdConnect port s)

/-- HPD_IRQ (R401). An IRQ_HPD pulse makes a source read link status and retrain if needed. -/
def execHpdIrq (port : Nat) (lost : Bool) (s : State) : Out := checked (.hpdIrq port lost) (hpdIrq port lost s)

/-- HPD_DISCONNECT (R400). HPD low for more than 2 ms signals a disconnection. -/
def execHpdDisconnect (port : Nat) (s : State) : Out := checked (.hpdDisconnect port) (hpdDisconnect port s)

/-- PORT_CAPS_READ (R400). A source finishes reading DPCD and EDID and checks the timing. -/
def execPortCapsRead (port : Nat) (caps : MonitorCaps) (s : State) : Out :=
  checked (.portCapsRead port caps) (portCapsRead port caps s)

/-- SOURCE_TRAINING_DONE (R401). A source's link training ends, UP or SHORT. -/
def execSourceTrainingDone (port : Nat) (ok : Bool) (levels : List Nat) (s : State) : Out :=
  checked (.sourceTrainingDone port ok levels) (sourceTrainingDone port ok levels s)

/-- ETH_FRAME_RECEIVED (R406). An Ethernet frame is received and accepted, answered or dropped. -/
def execEthFrameReceived (port : Nat) (frame : List Byte) (fcsOk : Bool) (s : State) : Out :=
  checked (.ethFrameReceived port frame fcsOk) (ethFrameReceived port frame fcsOk s)

/-- ETH_NEXT_HOP_TIMEOUT (R406). A packet's next hop is unresolved after 1 ms and the packet is dropped. -/
def execEthNextHopTimeout (port : Nat) (s : State) : Out := checked (.ethNextHopTimeout port) (ethNextHopTimeout port s)

/-- NEIGHBOUR_LAPSE (R406). A neighbour cache entry lapses after 300 s unused. -/
def execNeighbourLapse (port : Nat) (s : State) : Out := checked (.neighbourLapse port) (neighbourLapse port s)

/-- MEMBERSHIP_REPORT_REPEAT (R407). An IGMPv3 or MLDv2 report repeats at its 1 s interval. -/
def execMembershipReportRepeat (port : Nat) (s : State) : Out :=
  checked (.membershipReportRepeat port) (membershipReportRepeat port s)

/-- PORT_DOWN (R409). An Ethernet link goes down. -/
def execPortDown (port : Nat) (s : State) : Out := checked (.portDown port) (portDown port s)

/-- PORT_UP (R409). A link comes up and memberships are reported afresh. -/
def execPortUp (port : Nat) (rate : Nat) (lanes : Nat) (s : State) : Out :=
  checked (.portUp port rate lanes) (portUpEvent port rate lanes s)

/-- PORT_PCIE_RESET (R412). A function-level reset, hot reset or link-down resets the endpoint only. -/
def execPortPcieReset (kind : Nat) (s : State) : Out := checked (.portPcieReset kind) (portPcieReset kind s)

end Sys2Proof.Machine
end

