-- ==== Sys2Proof/Machine/SourceCommands.lean ====
section
/-!
DEFINITION. The meanings of the commands of captured sources, the decode reels and the encode reels (chapters 04, 12 and 13), one for each row of the table: the row's effect where the command
names hardware that the block has.
-/
namespace Sys2Proof.Machine

/-- CAPTURE_FRAME_COMPLETE (R91). A DisplayPort sink's last active line is written to its capture ring. -/
def execCaptureFrameComplete (sink : Nat) (pixels : List Byte) (s : State) : Out :=
  checked (.captureFrameComplete sink pixels) (captureFrameComplete sink pixels s)

/-- SINK_FRAME_START (R95). The first active pixel of a sink frame arrives and the frame is stamped. -/
def execSinkFrameStart (sink : Nat) (raster : Raster) (s : State) : Out :=
  checked (.sinkFrameStart sink raster) (sinkFrameStart sink raster s)

/-- RTP_PACKET_RECEIVED (R284). An RTP packet for a decode reel is accepted and ordered, possibly making an access unit ready. -/
def execRtpPacketReceived (reel : Nat) (packet : RtpPacket) (s : State) : Out :=
  checked (.rtpPacketReceived reel packet) (rtpPacketReceived reel packet s)

/-- ACCESS_UNIT_JB_EXPIRY (R286). JB_US passes since an access unit's first packet and it becomes ready with the data it has. -/
def execAccessUnitJbExpiry (reel : Nat) (s : State) : Out :=
  checked (.accessUnitJbExpiry reel) (accessUnitJbExpiry reel s)

/-- DECODE_PICTURE_DONE (R279). An engine completes a picture, marks maps and takes the next ready access unit. -/
def execDecodePictureDone (engine : Nat) (picture : Picture) (s : State) : Out :=
  checked (.decodePictureDone engine picture) (decodePictureDone engine picture s)

/-- FIR_TIMER (R298). FIR_MS elapses in a damage episode and an RTCP FIR is sent. -/
def execFirTimer (reel : Nat) (s : State) : Out := checked (.firTimer reel) (firTimer reel s)

/-- DEC_ENGINE_RESET (R283). An engine has not completed a picture in 50 ms and is reset. -/
def execDecEngineReset (engine : Nat) (s : State) : Out := checked (.decEngineReset engine) (decEngineReset engine s)

/-- DEC_SILENT (R287). No packet is accepted for LOSS_MS and the reel becomes silent. -/
def execDecSilent (reel : Nat) (s : State) : Out := checked (.decSilent reel) (decSilent reel s)

/-- RTCP_SR_RECEIVED (R288). An RTCP sender report arrives and the reel maps stamps from it. -/
def execRtcpSrReceived (reel : Nat) (ntp : Nat) (rtp : Nat) (addr : Nat) (udp : Nat) (s : State) : Out :=
  checked (.rtcpSrReceived reel ntp rtp addr udp) (rtcpSrReceived reel ntp rtp addr udp s)

/-- DEC_SR_LOST (R288). No sender report arrives within the timeout and the reel stamps by arrival. -/
def execDecSrLost (reel : Nat) (s : State) : Out := checked (.decSrLost reel) (decSrLost reel s)

/-- ENCODE_FRAME_DONE (R318). An engine finishes encoding a frame and writes its record to the ring or drops it when full. -/
def execEncodeFrameDone (engine : Nat) (coded : Coded) (s : State) : Out :=
  checked (.encodeFrameDone engine coded) (encodeFrameDone engine coded s)

/-- ENC_IDR_REQ (R317). A write of 1 to ENC_GOP.IDR_REQ requests an IDR picture. -/
def execEncIdrReq (reel : Nat) (s : State) : Out := checked (.encIdrReq reel) (encIdrReq reel s)

/-- RTCP_FEEDBACK_RECEIVED (R320). A PLI or FIR for an encode reel's SSRC arrives and requests an IDR picture. -/
def execRtcpFeedbackReceived (reel : Nat) (s : State) : Out :=
  checked (.rtcpFeedbackReceived reel) (rtcpFeedbackReceived reel s)

/-- ENC_SR_TIMER (R320). Once per second an encode reel sends an RTCP sender report. -/
def execEncSrTimer (reel : Nat) (s : State) : Out := checked (.encSrTimer reel) (encSrTimer reel s)

end Sys2Proof.Machine
end

