-- ==== Sys2Proof/Machine/SystemCommands.lean ====
section
/-!
DEFINITION. The meanings of the commands of touch panels, check units, power, reset, and the registers themselves (chapters 21 to 24), one for each row of the table: the row's effect where the command
names hardware that the block has.
-/
namespace Sys2Proof.Machine

/-- REGISTER_WRITE (R524). A write to a register without behaviour of its own applies to each field by its access type. -/
def execRegisterWrite (src : Nat) (offset : Nat) (value : Nat) (be : Nat) (s : State) : Out :=
  checked (.registerWrite src offset value be) (registerWrite src offset value be s)

/-- SENSOR_FAIL (R516). A sensor delivers no conversion for 300 µs and reads invalid. -/
def execSensorFail (sensor : Nat) (s : State) : Out := checked (.sensorFail sensor) (sensorFail sensor s)

/-- TCH_SCAN_DUE (R479). A panel scan falls due, abandoning an unfinished one. -/
def execTchScanDue (panel : Nat) (s : State) : Out := checked (.tchScanDue panel) (tchScanDue panel s)

/-- TCH_SCAN_DONE (R477). A scan completes; raw counts, baselines, contacts, gestures and reports follow. -/
def execTchScanDone (panel : Nat) (charges : List (List (List Int))) (s : State) : Out :=
  checked (.tchScanDone panel charges) (tchScanDone panel charges s)

/-- TCH_TEST (R486). A write of 1 to TCH_PNL_CTRL.TEST starts a self-test. -/
def execTchTest (panel : Nat) (s : State) : Out := checked (.tchTest panel) (tchTest panel s)

/-- TCH_TEST_DONE (R486). A self-test completes, setting open and short bits. -/
def execTchTestDone (panel : Nat) (charges : List (List (List Int))) (single : List (List (List Nat))) (s : State) : Out :=
  checked (.tchTestDone panel charges single) (tchTestDone panel charges single s)

/-- TCH_SURVEY (R487). A write of 1 to TCH_PNL_CTRL.SURVEY starts an electrode survey. -/
def execTchSurvey (panel : Nat) (s : State) : Out := checked (.tchSurvey panel) (tchSurvey panel s)

/-- TCH_SURVEY_DONE (R487). A survey completes and overlays match or mismatch profiles. -/
def execTchSurveyDone (panel : Nat) (drive : List Nat) (sense : List Nat) (s : State) : Out :=
  checked (.tchSurveyDone panel drive sense) (tchSurveyDone panel drive sense s)

/-- CHK_RESTART (R494). A write of 1 to CHK_CU_CFG.RESTART restarts a matrix-point message. -/
def execChkRestart (unit : Nat) (s : State) : Out := checked (.chkRestart unit) (chkRestartWrite unit s)

/-- PORST_ASSERT (R508). PORST_N is asserted for 10 µs or more and everything resets. -/
def execPorstAssert (s : State) : Out := checked .porstAssert (porstAssert s)

/-- PORST_RELEASE (R505). PORST_N is released, BOOTSEL is latched and PD0, PD1, PD2 come up. -/
def execPorstRelease (bootsel : Nat) (s : State) : Out := checked (.porstRelease bootsel) (porstRelease bootsel s)

/-- WARM_RST_N (R509). WARM_RST_N held low 10 µs starts a warm reset. -/
def execWarmRstN (s : State) : Out := checked .warmRstN (warmRstN s)

/-- PWR_RESET (R509). A keyed write to PWR_RESET.WARM starts a warm reset. -/
def execPwrReset (value : Nat) (s : State) : Out := checked (.pwrReset value) (pwrReset value s)

/-- DOMAIN_SWITCH_DONE (R506). A power domain's switch completes and its monitor reports it powered. -/
def execDomainSwitchDone (domain : Nat) (s : State) : Out :=
  checked (.domainSwitchDone domain) (domainSwitched domain s)

/-- DOMAIN_POWER_TIMEOUT (R506). A domain not powered 200 µs after its switch is switched off again. -/
def execDomainPowerTimeout (domain : Nat) (s : State) : Out :=
  checked (.domainPowerTimeout domain) (domainPowerTimeout domain s)

/-- SUPPLY_MONITOR_SAMPLE (R513). A supply monitor samples its rail and trips or clears. -/
def execSupplyMonitorSample (monitor : Nat) (mv : Nat) (s : State) : Out :=
  checked (.supplyMonitorSample monitor mv) (supplyMonitorSample monitor mv s)

/-- WAKE_PENDING_CLEAR (R518). Writing 1 to PWR_WAKE.PENDING clears it and releases WAKE_N. -/
def execWakePendingClear (s : State) : Out := checked .wakePendingClear (wakePendingClear s)

/-- GLB_EVQ_RD_WRITE (R531). Firmware advances GLB_EVQ_RD, freeing queue slots. -/
def execGlbEvqRdWrite (value : Nat) (s : State) : Out := checked (.glbEvqRdWrite value) (glbEvqRdWrite value s)

/-- INT_PEND_CLEAR (R535). A clearing write to GLB_INT_PEND clears a vector or sets it again. -/
def execIntPendClear (register : Nat) (value : Nat) (s : State) : Out :=
  checked (.intPendClear register value) (intPendClear register value s)

end Sys2Proof.Machine
end

