-- ==== Sys2Proof/Machine/TickCommands.lean ====
section
/-!
DEFINITION. The meanings of the commands of the tick and its commit: the edge, its sources, cue sheets, the Clapper (chapters 01 and 09), one for each row of the table: the row's effect where the command
names hardware that the block has.
-/
namespace Sys2Proof.Machine

/-- TICK_EDGE (R12). A tick edge is generated and the edge's actions run in the order of R220. -/
def execTickEdge (energyUj : Nat) (s : State) : Out := checked (.tickEdge energyUj) (tickEdge energyUj s)

/-- CUE_SHEET_COMPLETE (R26). The cue processors mark the sheet for the next tick complete and its pointers and checksum are checked. -/
def execCueSheetComplete (ok : Bool) (s : State) : Out := checked (.cueSheetComplete ok) (cueSheetComplete ok s)

/-- RESYNC (R16). A write of 1 to TICK_CTRL.RESYNC leaves holdover at the next edge if the source is locked. -/
def execResync (s : State) : Out := checked .resync (resync s)

/-- TICK_SOURCE_EDGE (R14). An edge of a non-timebase tick source arrives and is tested toward lock and slewing. -/
def execTickSourceEdge (s : State) : Out := checked .tickSourceEdge (tickSourceEdge s)

/-- TICK_SRC_LOST (R15). An expected edge is missing for a quarter period, or a new source fails to lock in 16 periods, and the tick enters holdover. -/
def execTickSrcLost (s : State) : Out := checked .tickSrcLost (tickSrcLost s)

/-- CUT_OFF (R219). At the cut-off 50 µs before an edge with an arm waiting, a seal of every shadow is taken. -/
def execCutOff (s : State) : Out := checked .cutOff (cutOff s)

/-- CLAP_ARM (R218). A write of 1 to CLAP_ARM.ARM arms a commit for the next or following edge. -/
def execClapArm (s : State) : Out := checked .clapArm (clapArm s)

/-- CLAP_DISCARD (R225). A write of 1 to CLAP_CTRL.DISCARD withdraws the waiting arm and returns shadows to live values. -/
def execClapDiscard (s : State) : Out := checked .clapDiscard (clapDiscard s)

/-- BAND_DEADLINE (R21). A band deadline arrives; an unfinished band is abandoned and its scan-out begins. -/
def execBandDeadline (flue : Nat) (band : Nat) (s : State) : Out :=
  checked (.bandDeadline flue band) (bandDeadline' flue band s)

/-- FRAME_START (R20). A flue's frame begins at the tick edge plus its phase offset and the sentinel advances a chip. -/
def execFrameStart (flue : Nat) (s : State) : Out := checked (.frameStart flue) (frameStart flue s)

end Sys2Proof.Machine
end

