-- ==== Sys2Proof/Machine/TimeCommands.lean ====
section
/-!
DEFINITION. The meanings of the commands of the timebase, its outputs and captures, and the audio block (chapters 19 and 20), one for each row of the table: the row's effect where the command
names hardware that the block has.
-/
namespace Sys2Proof.Machine

/-- TMB_INC_INT_WRITE (R440). A write of TMB_INC_INT installs the increment with the last fraction, clamped if needed. -/
def execTmbIncIntWrite (value : Nat) (s : State) : Out := checked (.tmbIncIntWrite value) (tmbIncWrite value s)

/-- TMB_STEP (R442). A write of 1 to TMB_CTRL.STEP adds the signed offset to the timebase. -/
def execTmbStep (s : State) : Out := checked .tmbStep (tmbStep s)

/-- TMB_SNAP (R439). A write of 1 to TMB_CTRL.SNAP copies the timebase into the snapshot registers. -/
def execTmbSnap (s : State) : Out := checked .tmbSnap (tmbSnap s)

/-- PTP_TX_WR_WRITE (R447). Advancing TX_WR makes the device send PTP transmit records with timestamps. -/
def execPtpTxWrWrite (value : Nat) (s : State) : Out := checked (.ptpTxWrWrite value) (ptpTxWrWrite value s)

/-- TMO_ENABLE (R449). A write of ENABLE = 1 to a timed output checks and starts it. -/
def execTmoEnable (output : Nat) (value : Nat) (s : State) : Out :=
  checked (.tmoEnable output value) (tmoEnable output value s)

/-- TMO_PULSE_START (R448). A timed output's pulse instant arrives and the pulse begins. -/
def execTmoPulseStart (output : Nat) (s : State) : Out := checked (.tmoPulseStart output) (tmoPulseStart output s)

/-- TMO_PULSE_END (R448). WIDTH_NS ends a pulse; a fired one-shot clears ENABLE. -/
def execTmoPulseEnd (output : Nat) (s : State) : Out := checked (.tmoPulseEnd output) (tmoPulseEnd output s)

/-- TMC_EDGE (R451). A capture input edge is timestamped into its queue or lost when full. -/
def execTmcEdge (capture : Nat) (falling : Bool) (s : State) : Out :=
  checked (.tmcEdge capture falling) (tmcEdge capture falling s)

/-- TMC_TS_READ (R451). A read of TMC_TS_NS removes the oldest capture entry. -/
def execTmcTsRead (capture : Nat) (s : State) : Out := checked (.tmcTsRead capture) (tmcTsRead capture s)

/-- APLL_LOCK (R453). An audio PLL locks or re-phases after a step. -/
def execApllLock (pll : Nat) (s : State) : Out := checked (.apllLock pll) (apllLock pll s)

/-- TMB_APLL_UNLOCK (R453). An audio PLL loses lock for another reason. -/
def execTmbApllUnlock (pll : Nat) (s : State) : Out := checked (.tmbApllUnlock pll) (tmbApllUnlock pll s)

/-- AUD_FRAME_DUE (R459). A destination frame falls due and is sent from a route or repeated under underrun. -/
def execAudFrameDue (route : Nat) (s : State) : Out := checked (.audFrameDue route) (audFrameDue route s)

/-- AUD_SOURCE_SAMPLE (R463). An audio source sample or packet arrives and is given its capture time. -/
def execAudSourceSample (input : AudioInput) (s : State) : Out :=
  checked (.audSourceSample input) (audSourceSample input s)

/-- AUD_NON_AUDIO_END (R468). 16,384 source frames pass after the last preamble and the route returns to data. -/
def execAudNonAudioEnd (kind : Nat) (index : Nat) (s : State) : Out :=
  checked (.audNonAudioEnd kind index) (audNonAudioEnd kind index s)

/-- AUD_REF_LOST (R461). A clock group's reference is lost and its outputs hold over. -/
def execAudRefLost (group : Nat) (s : State) : Out := checked (.audRefLost group) (audRefLost group s)

/-- AUD_REF_LOCKED (R461). A group's reference is in range for 100 ms and the group locks. -/
def execAudRefLocked (group : Nat) (hz : Nat) (s : State) : Out :=
  checked (.audRefLocked group hz) (audRefLocked group hz s)

/-- AUD_ASRC_UNLOCK (R462). An ASRC instance leaves lock. -/
def execAudAsrcUnlock (instance_ : Nat) (ratio : Nat) (s : State) : Out :=
  checked (.audAsrcUnlock instance_ ratio) (audAsrcUnlock instance_ ratio s)

/-- SLOT_MASK_WRITE (R467). A write to AUD_TDM_SLOTS takes effect at the port's next frame boundary. -/
def execSlotMaskWrite (port : Nat) (value : Nat) (s : State) : Out :=
  checked (.slotMaskWrite port value) (slotMaskWrite port value s)

/-- AUD_LOAD (R470). Every 100 ms an IEC output classifies its load. -/
def execAudLoad (port : Nat) (ohms : Nat) (s : State) : Out := checked (.audLoad port ohms) (audLoad port ohms s)

/-- AUD_ASRC_LOCK (R462). An ASRC instance's ratio estimate has stayed within 1 ppm for 200 ms and the instance becomes locked. -/
def execAudAsrcLock (instance_ : Nat) (ratio : Nat) (s : State) : Out :=
  checked (.audAsrcLock instance_ ratio) (audAsrcLock instance_ ratio s)

end Sys2Proof.Machine
end

