-- ==== Sys2Proof/Machine/Dispatch.lean ====
section
/-!
DEFINITION. The dispatch of a command to its meaning.
-/
namespace Sys2Proof.Machine

/-- The command's effect on everything but the queue. -/
def exec (i : Instr) (s : State) : Host.Outcome State Fault Refusal :=
  match i with
  | .tickEdge energyUj => Sys2Proof.Machine.execTickEdge energyUj s
  | .cueSheetComplete ok => Sys2Proof.Machine.execCueSheetComplete ok s
  | .damperRelax => Sys2Proof.Machine.execDamperRelax s
  | .resync => Sys2Proof.Machine.execResync s
  | .tickSourceEdge => Sys2Proof.Machine.execTickSourceEdge s
  | .tickSrcLost => Sys2Proof.Machine.execTickSrcLost s
  | .cutOff => Sys2Proof.Machine.execCutOff s
  | .clapArm => Sys2Proof.Machine.execClapArm s
  | .clapDiscard => Sys2Proof.Machine.execClapDiscard s
  | .registerWrite src offset value be => Sys2Proof.Machine.execRegisterWrite src offset value be s
  | .bandStart unit => Sys2Proof.Machine.execBandStart unit s
  | .bandComplete unit => Sys2Proof.Machine.execBandComplete unit s
  | .bandDeadline flue band => Sys2Proof.Machine.execBandDeadline flue band s
  | .frameStart flue => Sys2Proof.Machine.execFrameStart flue s
  | .canarySigned unit sig => Sys2Proof.Machine.execCanarySigned unit sig s
  | .canaryDeadline unit => Sys2Proof.Machine.execCanaryDeadline unit s
  | .directUnderrun flue => Sys2Proof.Machine.execDirectUnderrun flue s
  | .voteSignatureArrival flue tile unit sig => Sys2Proof.Machine.execVoteSignatureArrival flue tile unit sig s
  | .voteCutoff flue band => Sys2Proof.Machine.execVoteCutoff flue band s
  | .imgGo => Sys2Proof.Machine.execImgGo s
  | .imgCancel => Sys2Proof.Machine.execImgCancel s
  | .imgReadDone bytes fail => Sys2Proof.Machine.execImgReadDone bytes fail s
  | .imgVerifyDone => Sys2Proof.Machine.execImgVerifyDone s
  | .imgValidateDone => Sys2Proof.Machine.execImgValidateDone s
  | .imgApplyStepDone ok failed => Sys2Proof.Machine.execImgApplyStepDone ok failed s
  | .imgIdleTimeout => Sys2Proof.Machine.execImgIdleTimeout s
  | .fuseProgramSlot0 => Sys2Proof.Machine.execFuseProgramSlot0 s
  | .fuseProgramSlot1 => Sys2Proof.Machine.execFuseProgramSlot1 s
  | .fuseRevokeSlot0 => Sys2Proof.Machine.execFuseRevokeSlot0 s
  | .fuseRevokeSlot1 => Sys2Proof.Machine.execFuseRevokeSlot1 s
  | .fuseAdvanceSvn => Sys2Proof.Machine.execFuseAdvanceSvn s
  | .fuseBlowInjForbid => Sys2Proof.Machine.execFuseBlowInjForbid s
  | .captureFrameComplete sink pixels => Sys2Proof.Machine.execCaptureFrameComplete sink pixels s
  | .sinkFrameStart sink raster => Sys2Proof.Machine.execSinkFrameStart sink raster s
  | .sentinelEvaluation flue samples => Sys2Proof.Machine.execSentinelEvaluation flue samples s
  | .glassUnconfirmed flue => Sys2Proof.Machine.execGlassUnconfirmed flue s
  | .wardenProposal core index action object => Sys2Proof.Machine.execWardenProposal core index action object s
  | .voteWindowClose => Sys2Proof.Machine.execVoteWindowClose s
  | .handlerStageEnd overrun => Sys2Proof.Machine.execHandlerStageEnd overrun s
  | .unitStall unit => Sys2Proof.Machine.execUnitStall unit s
  | .cacheUe cluster => Sys2Proof.Machine.execCacheUe cluster s
  | .sigEngine cluster => Sys2Proof.Machine.execSigEngine cluster s
  | .unlocalised cluster => Sys2Proof.Machine.execUnlocalised cluster s
  | .dieClock die => Sys2Proof.Machine.execDieClock die s
  | .flueOut flue => Sys2Proof.Machine.execFlueOut flue s
  | .faultHandlingStart => Sys2Proof.Machine.execFaultHandlingStart s
  | .faultActionExecuted => Sys2Proof.Machine.execFaultActionExecuted s
  | .faultRecordTimeout => Sys2Proof.Machine.execFaultRecordTimeout s
  | .regionResetCheck region => Sys2Proof.Machine.execRegionResetCheck region s
  | .injRxCfgWrite path value => Sys2Proof.Machine.execInjRxCfgWrite path value s
  | .injVoterWrite value => Sys2Proof.Machine.execInjVoterWrite value s
  | .injDramWrite value => Sys2Proof.Machine.execInjDramWrite value s
  | .injLaneWrite value => Sys2Proof.Machine.execInjLaneWrite value s
  | .injDone kind => Sys2Proof.Machine.execInjDone kind s
  | .tempSample sensor eighths => Sys2Proof.Machine.execTempSample sensor eighths s
  | .thermClear => Sys2Proof.Machine.execThermClear s
  | .thermtrip sensor => Sys2Proof.Machine.execThermtrip sensor s
  | .sensorFail sensor => Sys2Proof.Machine.execSensorFail sensor s
  | .rtpPacketReceived reel packet => Sys2Proof.Machine.execRtpPacketReceived reel packet s
  | .accessUnitJbExpiry reel => Sys2Proof.Machine.execAccessUnitJbExpiry reel s
  | .decodePictureDone engine picture => Sys2Proof.Machine.execDecodePictureDone engine picture s
  | .firTimer reel => Sys2Proof.Machine.execFirTimer reel s
  | .decEngineReset engine => Sys2Proof.Machine.execDecEngineReset engine s
  | .decSilent reel => Sys2Proof.Machine.execDecSilent reel s
  | .rtcpSrReceived reel ntp rtp addr udp => Sys2Proof.Machine.execRtcpSrReceived reel ntp rtp addr udp s
  | .decSrLost reel => Sys2Proof.Machine.execDecSrLost reel s
  | .rtcpRrTimer reel => Sys2Proof.Machine.execRtcpRrTimer reel s
  | .encodeFrameDone engine coded => Sys2Proof.Machine.execEncodeFrameDone engine coded s
  | .encIdrReq reel => Sys2Proof.Machine.execEncIdrReq reel s
  | .rtcpFeedbackReceived reel => Sys2Proof.Machine.execRtcpFeedbackReceived reel s
  | .encSrTimer reel => Sys2Proof.Machine.execEncSrTimer reel s
  | .dramRead src flips0 flips1 => Sys2Proof.Machine.execDramRead src flips0 flips1 s
  | .dramWrite src flips0 flips1 => Sys2Proof.Machine.execDramWrite src flips0 flips1 s
  | .scrubRead channel flips0 flips1 => Sys2Proof.Machine.execScrubRead channel flips0 flips1 s
  | .refreshInterval channel postponed => Sys2Proof.Machine.execRefreshInterval channel postponed s
  | .forcedRefresh channel => Sys2Proof.Machine.execForcedRefresh channel s
  | .mr4Poll channel code driftPs hot => Sys2Proof.Machine.execMr4Poll channel code driftPs hot s
  | .zqLatch channel => Sys2Proof.Machine.execZqLatch channel s
  | .hrtPanic port fill => Sys2Proof.Machine.execHrtPanic port fill s
  | .trainWindowOpen => Sys2Proof.Machine.execTrainWindowOpen s
  | .retrainStepDone ok => Sys2Proof.Machine.execRetrainStepDone ok s
  | .mtxFence src => Sys2Proof.Machine.execMtxFence src s
  | .fenceComplete src => Sys2Proof.Machine.execFenceComplete src s
  | .accessCheck access => Sys2Proof.Machine.execAccessCheck access s
  | .mpuUpdGo unit index => Sys2Proof.Machine.execMpuUpdGo unit index s
  | .mpuDrained unit => Sys2Proof.Machine.execMpuDrained unit s
  | .mtxLinkErr link failed src addr write => Sys2Proof.Machine.execMtxLinkErr link failed src addr write s
  | .trainingBlockReceived lane chars => Sys2Proof.Machine.execTrainingBlockReceived lane chars s
  | .pllRelockDone lane => Sys2Proof.Machine.execPllRelockDone lane s
  | .laneTrainingBlock lane bytes => Sys2Proof.Machine.execLaneTrainingBlock lane bytes s
  | .adaptationDone lane adapt => Sys2Proof.Machine.execAdaptationDone lane adapt s
  | .laneTrainTimeout port => Sys2Proof.Machine.execLaneTrainTimeout port s
  | .laneRetryRestart port => Sys2Proof.Machine.execLaneRetryRestart port s
  | .alignmentMarker lane bytes position arrivalUi => Sys2Proof.Machine.execAlignmentMarker lane bytes position arrivalUi s
  | .laneDeskewFail port => Sys2Proof.Machine.execLaneDeskewFail port s
  | .laneAlignLost lane => Sys2Proof.Machine.execLaneAlignLost lane s
  | .laneRealignTimeout lane => Sys2Proof.Machine.execLaneRealignTimeout lane s
  | .laneDeepLpEntry lane => Sys2Proof.Machine.execLaneDeepLpEntry lane s
  | .laneWakeDone lane => Sys2Proof.Machine.execLaneWakeDone lane s
  | .laneEyeRefresh lane v h => Sys2Proof.Machine.execLaneEyeRefresh lane v h s
  | .laneSurvey lane => Sys2Proof.Machine.execLaneSurvey lane s
  | .laneErrOne lane => Sys2Proof.Machine.execLaneErrOne lane s
  | .auxRequest sink request => Sys2Proof.Machine.execAuxRequest sink request s
  | .sinkLinkLoss sink kind => Sys2Proof.Machine.execSinkLinkLoss sink kind s
  | .hpdConnect port => Sys2Proof.Machine.execHpdConnect port s
  | .hpdIrq port lost => Sys2Proof.Machine.execHpdIrq port lost s
  | .hpdDisconnect port => Sys2Proof.Machine.execHpdDisconnect port s
  | .portCapsRead port caps => Sys2Proof.Machine.execPortCapsRead port caps s
  | .sourceTrainingDone port ok levels => Sys2Proof.Machine.execSourceTrainingDone port ok levels s
  | .ethFrameReceived port frame fcsOk => Sys2Proof.Machine.execEthFrameReceived port frame fcsOk s
  | .ethNextHopTimeout port => Sys2Proof.Machine.execEthNextHopTimeout port s
  | .neighbourLapse port => Sys2Proof.Machine.execNeighbourLapse port s
  | .membershipReportRepeat port => Sys2Proof.Machine.execMembershipReportRepeat port s
  | .portDown port => Sys2Proof.Machine.execPortDown port s
  | .portUp port rate lanes => Sys2Proof.Machine.execPortUp port rate lanes s
  | .portPcieReset kind => Sys2Proof.Machine.execPortPcieReset kind s
  | .crlFrameBad link frame => Sys2Proof.Machine.execCrlFrameBad link frame s
  | .crlCreditReceived link frame => Sys2Proof.Machine.execCrlCreditReceived link frame s
  | .crlNakReceived link frame => Sys2Proof.Machine.execCrlNakReceived link frame s
  | .crlRetryTimeout link => Sys2Proof.Machine.execCrlRetryTimeout link s
  | .crlTileExpiry link => Sys2Proof.Machine.execCrlTileExpiry link s
  | .crlLayerReceived link frame => Sys2Proof.Machine.execCrlLayerReceived link frame s
  | .crlTileReceived link frame => Sys2Proof.Machine.execCrlTileReceived link frame s
  | .importCut => Sys2Proof.Machine.execImportCut s
  | .crlEdgeReceived link frame => Sys2Proof.Machine.execCrlEdgeReceived link frame s
  | .crlClaimReceived link frame => Sys2Proof.Machine.execCrlClaimReceived link frame s
  | .crlMasterChange => Sys2Proof.Machine.execCrlMasterChange s
  | .crlDelayReqReceived link frame => Sys2Proof.Machine.execCrlDelayReqReceived link frame s
  | .crlDelayRespReceived link frame => Sys2Proof.Machine.execCrlDelayRespReceived link frame s
  | .crlDelayTimer link => Sys2Proof.Machine.execCrlDelayTimer link s
  | .crlPeerFault link frame => Sys2Proof.Machine.execCrlPeerFault link frame s
  | .crlRegGo => Sys2Proof.Machine.execCrlRegGo s
  | .crlRegRequestReceived link frame => Sys2Proof.Machine.execCrlRegRequestReceived link frame s
  | .crlRegResponseReceived link frame => Sys2Proof.Machine.execCrlRegResponseReceived link frame s
  | .crlRegTimeout => Sys2Proof.Machine.execCrlRegTimeout s
  | .tmbIncIntWrite value => Sys2Proof.Machine.execTmbIncIntWrite value s
  | .tmbStep => Sys2Proof.Machine.execTmbStep s
  | .tmbSnap => Sys2Proof.Machine.execTmbSnap s
  | .ptpTxWrWrite value => Sys2Proof.Machine.execPtpTxWrWrite value s
  | .tmoEnable output value => Sys2Proof.Machine.execTmoEnable output value s
  | .tmoPulseStart output => Sys2Proof.Machine.execTmoPulseStart output s
  | .tmoPulseEnd output => Sys2Proof.Machine.execTmoPulseEnd output s
  | .tmcEdge capture falling => Sys2Proof.Machine.execTmcEdge capture falling s
  | .tmcTsRead capture => Sys2Proof.Machine.execTmcTsRead capture s
  | .apllLock pll => Sys2Proof.Machine.execApllLock pll s
  | .tmbApllUnlock pll => Sys2Proof.Machine.execTmbApllUnlock pll s
  | .audFrameDue route => Sys2Proof.Machine.execAudFrameDue route s
  | .audSourceSample input => Sys2Proof.Machine.execAudSourceSample input s
  | .audNonAudioEnd kind index => Sys2Proof.Machine.execAudNonAudioEnd kind index s
  | .audRefLost group => Sys2Proof.Machine.execAudRefLost group s
  | .audRefLocked group hz => Sys2Proof.Machine.execAudRefLocked group hz s
  | .audAsrcUnlock instance_ ratio => Sys2Proof.Machine.execAudAsrcUnlock instance_ ratio s
  | .slotMaskWrite port value => Sys2Proof.Machine.execSlotMaskWrite port value s
  | .audLoad port ohms => Sys2Proof.Machine.execAudLoad port ohms s
  | .tchScanDue panel => Sys2Proof.Machine.execTchScanDue panel s
  | .tchScanDone panel charges => Sys2Proof.Machine.execTchScanDone panel charges s
  | .tchTest panel => Sys2Proof.Machine.execTchTest panel s
  | .tchTestDone panel charges single => Sys2Proof.Machine.execTchTestDone panel charges single s
  | .tchSurvey panel => Sys2Proof.Machine.execTchSurvey panel s
  | .tchSurveyDone panel drive sense => Sys2Proof.Machine.execTchSurveyDone panel drive sense s
  | .chkRestart unit => Sys2Proof.Machine.execChkRestart unit s
  | .porstAssert => Sys2Proof.Machine.execPorstAssert s
  | .porstRelease bootsel => Sys2Proof.Machine.execPorstRelease bootsel s
  | .warmRstN => Sys2Proof.Machine.execWarmRstN s
  | .pwrReset value => Sys2Proof.Machine.execPwrReset value s
  | .domainSwitchDone domain => Sys2Proof.Machine.execDomainSwitchDone domain s
  | .domainPowerTimeout domain => Sys2Proof.Machine.execDomainPowerTimeout domain s
  | .supplyMonitorSample monitor mv => Sys2Proof.Machine.execSupplyMonitorSample monitor mv s
  | .wakePendingClear => Sys2Proof.Machine.execWakePendingClear s
  | .glbEvqRdWrite value => Sys2Proof.Machine.execGlbEvqRdWrite value s
  | .intPendClear register value => Sys2Proof.Machine.execIntPendClear register value s
  | .prbsLock lane => Sys2Proof.Machine.execPrbsLock lane s
  | .prbsLockLost lane => Sys2Proof.Machine.execPrbsLockLost lane s
  | .prbsError lane => Sys2Proof.Machine.execPrbsError lane s
  | .laneTestModeWrite lane value => Sys2Proof.Machine.execLaneTestModeWrite lane value s
  | .stepTxSwitch lane => Sys2Proof.Machine.execStepTxSwitch lane s
  | .stepRxTimeout lane => Sys2Proof.Machine.execStepRxTimeout lane s
  | .crlFrameBoundary link => Sys2Proof.Machine.execCrlFrameBoundary link s
  | .audAsrcLock instance_ ratio => Sys2Proof.Machine.execAudAsrcLock instance_ ratio s
  | .evqStagingUe => Sys2Proof.Machine.execEvqStagingUe s

end Sys2Proof.Machine
end

