-- ==== Sys2Proof/Machine/Step.lean ====
section
/-!
DEFINITION. One step of the block: the command at the front of the queue, or, on an empty queue, one cycle of the 500 MHz
clock.
-/
namespace Sys2Proof.Machine

/-- One cycle of the clock with nothing waiting: the timebase counts, by its rate (R439, R440), with the counters of time
and of bits, and nothing else happens (log 2). -/
def idle (s : State) : State := cycle s

/-- The step: exec of the front command on the state with the rest of the queue; with an empty queue, a cycle. -/
def step (s : State) : Host.Outcome State Fault Refusal :=
  match s.pending with
  | [] => .next (idle s)
  | c :: cs => exec c { s with pending := cs }

/-- The command that a word spells goes to the front of the queue; the table gives its rows no bits, so a word spells none. -/
def State.withFetchWord (s : State) (nbits w : Nat) : State :=
  match decodeTableWord nbits w with
  | none => s
  | some c => { s with pending := c :: s.pending }

end Sys2Proof.Machine
end

