-- ==== Sys2Proof/Machine/Pins.lean ====
section
/-!
DEFINITION. The states of the balls (R512, with R273, R383, R397, R448, R471, R475, R518): they follow from the state of the block.
Supplies that are absent are outside the state, so the column of unpowered groups does not appear.
-/
namespace Sys2Proof.Machine

/-- A ball of the groups of R512. -/
inductive Ball where
  | laneTx (lane : Nat) | laneRx (lane : Nat) | sinkHpd (sink : Nat) | aux (port : Nat) | dramReset (die : Nat) | dramBus (die : Nat)
  | iecOut (port : Nat) | tdmOut (port : Nat) | touchDrive (line : Nat) | senseIn (channel : Nat) | timedOut (output : Nat)
  | timingIn | qspiCs | thermtrip | wake
  deriving DecidableEq, Repr

/-- What a ball does: high impedance, the passive pull-down, driven to a level, driven by its unit, terminated, taken as an input, or
ignored. -/
inductive BallState where
  | highZ | pulledLow | low | high | driven | terminated | input | ignored
  deriving DecidableEq, Repr

/-- A ball while PORST_N is asserted (R512, column Reset); a warm reset passes through the same states within its command. -/
def ballAtReset (s : State) : Ball → BallState
  | .sinkHpd _ | .dramReset _ | .iecOut _ | .tdmOut _ | .timedOut _ => .low
  | .qspiCs => .high
  | .timingIn => .ignored
  | .thermtrip => if s.rdb R.PWR_STATUS_THERMTRIP then .low else .highZ
  | .laneTx _ | .laneRx _ | .aux _ | .dramBus _ | .touchDrive _ | .senseIn _ | .wake => .highZ

/-- The power domain of a lane. -/
def laneDomain (n : Nat) : Nat := 2 + n / 32

/-- The power domain of the memory subsystem of a die. -/
def memoryDomain (die : Nat) : Nat := 11 + 5 * die

/-- The channels of a die are in service or have been trained (R73, step 2). -/
def dieTrained (s : State) (die : Nat) : Bool :=
  (span (12 * die) 12).any fun c => s.rd (R.HRT_CH_STAT_STATE c) != 0

/-- An IEC or TDM output, which a package fault drives low (R471). -/
def audioBall (s : State) (out : Bool) : BallState :=
  if s.powered 6 = false then .pulledLow
  else if out = false then .input
  else if s.rdb R.WDN_STATUS_PKG_FAULT then .low else .driven

/-- A drive line that an enabled panel uses is driven; any other is at high impedance (R475). -/
def lineUsed (s : State) (n : Nat) : Bool :=
  s.powered 6 && (List.range 4).any fun p => s.rdb (R.TCH_PNL_CTRL_ENABLE p) && (panelLines s p).contains n

/-- The level of timed output `k`: its active level in a pulse (R448), its inactive one otherwise. -/
def timedLevel (s : State) (k : Nat) : BallState :=
  if (s.tmo k).inPulse != s.rdb (R.TMO_CTRL_POL k) then .high else .low

/-- What a ball does (R512). -/
def ballState (s : State) (b : Ball) : BallState :=
  if s.power.porst then ballAtReset s b
  else match b with
    | .laneTx n => if s.powered (laneDomain n) && decide (2 ≤ laneState s n) then .driven else .highZ
    | .laneRx n => if s.powered (laneDomain n) then .terminated else .highZ
    | .sinkHpd k => if (s.port k).hpd then .high else .low
    | .aux _ => .driven
    | .dramReset d => if s.powered (memoryDomain d) && dieTrained s d then .high else .low
    | .dramBus d => if s.powered (memoryDomain d) then .driven else .highZ
    | .iecOut p => audioBall s (s.rd (R.AUD_IEC_CFG_MODE p) == 2)
    | .tdmOut p => audioBall s (s.rdb (R.AUD_TDM_CFG_DIR p))
    | .touchDrive n => if lineUsed s n then .driven else .highZ
    | .senseIn _ => if s.powered 6 then .input else .highZ
    | .timedOut k => timedLevel s k
    | .timingIn => .input
    | .qspiCs => .driven
    | .thermtrip => if s.rdb R.PWR_STATUS_THERMTRIP then .low else .highZ
    | .wake => if s.rdb R.PWR_WAKE_PENDING then .low else .highZ

end Sys2Proof.Machine
end

