-- ==== Sys2Proof/Safety.lean ====
section
/-!
DEFINITION. What a run may rely on: the parts that a state is made of, which of them a command can change, and the invariant
that every step keeps.
-/
namespace Sys2Proof.Machine

/-- The parts of a state, for saying what a command leaves alone. `clock` is the timebase's seconds, nanoseconds and fraction,
`timers` the rest of the time block; `bytes` is the contents of hearth memory and the on-die SRAMs, `mem` the rest of the memory block. -/
inductive Part where
  | regs | shadow | sealed | clock | timers | evq | tick | clap | bytes | mem | permit | audio | touch | chk | power
  | comp | codec | faults | damper | inj | lanes | ports | links | crl | img | fuses | sent | free | pending
  deriving DecidableEq, Repr

/-- Two states agree in a part. -/
def Part.same (s t : State) : Part → Prop
  | .regs => t.regs = s.regs
  | .shadow => t.shadow = s.shadow
  | .sealed => t.sealed = s.sealed
  | .clock => t.time.sec = s.time.sec ∧ t.time.ns = s.time.ns ∧ t.time.frac = s.time.frac
  | .timers => { t.time with sec := 0, ns := 0, frac := 0 } = { s.time with sec := 0, ns := 0, frac := 0 }
  | .evq => t.evq = s.evq
  | .tick => t.tick = s.tick
  | .clap => t.clap = s.clap
  | .bytes => t.mem.bytes = s.mem.bytes
  | .mem => { t.mem with bytes := [] } = { s.mem with bytes := [] }
  | .permit => t.protectionApplied = s.protectionApplied
  | .audio => t.audio = s.audio
  | .touch => t.touch = s.touch
  | .chk => t.chk = s.chk
  | .power => t.power = s.power
  | .comp => t.comp = s.comp
  | .codec => t.codec = s.codec
  | .faults => t.faults = s.faults
  | .damper => t.damper = s.damper
  | .inj => t.inj = s.inj
  | .lanes => t.lanes = s.lanes
  | .ports => t.ports = s.ports
  | .links => t.links = s.links
  | .crl => t.crl = s.crl
  | .img => t.img = s.img
  | .fuses => t.fuses = s.fuses
  | .sent => t.sent = s.sent
  | .free => t.freeCount = s.freeCount
  | .pending => t.pending = s.pending

/-- The offsets that events write: GLB_EVQ_RD, GLB_EVQ_WR and GLB_EVQ_STAT, the pending vectors, the event window (R530 to R535). -/
def queueOffset (a : Nat) : Bool :=
  (decide (0x20 ≤ a) && decide (a ≤ 0x28)) || (decide (0x220 ≤ a) && decide (a ≤ 0x224)) || (decide (0x8000 ≤ a) && decide (a < 0xC000))

/-- The states agree in every part but those listed. -/
def ChangesOnly (K : List Part) (s t : State) : Prop := ∀ p, p ∉ K → p.same s t

/-- A field lies within a word. -/
abbrev FldOk (f : Fld) : Prop := f.lo ≤ f.hi ∧ f.hi < 32

/-- Two fields share no bit. -/
abbrev FldApart (f g : Fld) : Prop := f.addr ≠ g.addr ∨ f.hi < g.lo ∨ g.hi < f.lo

/-- Every field that shares no bit with those listed and is none of the event queue's reads as before. -/
def FieldsOnly (l : List Fld) (s t : State) : Prop :=
  ∀ g : Fld, (∀ f ∈ l, FldApart f g) → queueOffset g.addr = false → t.rd g = s.rd g

/-- No reel has an access unit or a frame that waits for an engine. -/
abbrev noJobReady (s : State) : Prop := ∀ r, r < 128 → (s.reel r).ready = [] ∧ (s.enc r).ready = none

/-- No critical rectangle is live, so that none can be lost. -/
abbrev noRectLive (s : State) : Prop := ∀ n, n < 64 → rectLive s n = false

/-- A good frame arrives on link `k`, which is active: no injection holds or changes it, no check unit watches the link, and it
carries no NAK and is a credit frame or the next in sequence (R419, R423, R424). -/
abbrev frameArrives (k : Nat) (f : List Byte) (s : State) : Prop :=
  linkActive s k = true ∧ crlInject k f s = ([(f, true)], s) ∧ unitsAt s 1 (49 + k) 0 none = [] ∧ unitsAt s 1 (49 + k) 2 none = []
    ∧ frameGood f = true ∧ (headOf f).nak = false
    ∧ ((headOf f).typ = 6 ∨ (headOf f).seq = ((s.link k).accepted + 1) % 4096)

/-- The canonical form of a table of register words. -/
def wordsWf (t : Tab Word) : Bool := Tab.wf resetWord t

/-- The canonical form of the contents of memory. -/
def Memory.wf (t : Tab Byte) : Bool := Tab.wf memDefault t

/-- The invariant of the machine: register words, shadows, the seal and memory are listed in canonical form, and the timebase
holds a time of R439. -/
structure State.Inv (s : State) : Prop where
  regs : wordsWf s.regs = true
  shadow : wordsWf s.shadow = true
  sealed : ∀ t, s.sealed = some t → wordsWf t = true
  bytes : Memory.wf s.mem.bytes = true
  sec : s.time.sec < 2 ^ 48
  ns : s.time.ns < 1000000000
  frac : s.time.frac < 2 ^ 32

end Sys2Proof.Machine
end

