-- ==== Sys2Proof/Certificates/Slice0/Obligations.lean ====
section
/-!
DEFINITION. The statements for the provers, from the spec's numbered rules: the machine as a whole, reset, registers, events and
memory, then the commands family by family. A statement about a command says that `exec` answers a next state under its
hypotheses on the state and the operands alone, what that state holds, and what it leaves as it was.
-/
open Sys2Proof Sys2Proof.Machine

/-- For every command c and state s, step of s with c at the front of its queue is exec c on s with the queue's rest. (Derived
from R522, 01_overview.md.) -/
def Obligations.StepRunsTheFront : Prop :=
    (∀ (c : Instr) (cs : List Instr) (s : State), step { s with pending := c :: cs } = exec c { s with pending := cs })

/-- On an empty queue, outside PORST_N, step answers the state in which the timebase has advanced by TMB_INC, in units of 2^-32
ns with the fraction, modulo 2^48 seconds. With no access outstanding, no lane test locked, no AES67 stream marked and no
event of the cycle waiting, nothing else has changed. While PORST_N is asserted nothing counts. That a step without a
command is a clock cycle is the model's choice (log 2). (Derived from R439, R440, R508.) -/
def Obligations.EmptyQueueCounts : Prop :=
    (∀ s : State, s.Inv → s.pending = [] → s.power.porst = false → ∃ t, step s = .next t ∧
      (((t.time.sec * 1000000000 + t.time.ns) * 2 ^ 32 + t.time.frac : Nat) : Int)
        = (((s.time.sec * 1000000000 + s.time.ns) * 2 ^ 32 + s.time.frac + s.rd R.TMB_INC_INT_INT * 2 ^ 32
            + s.rd R.TMB_INC_FRAC_FRAC : Nat) : Int) % (2 ^ 48 * 1000000000 * 2 ^ 32)) ∧
    (∀ s : State, s.pending = [] → s.power.porst = false → s.mem.outstanding = [] → s.audio.aesNs = [] →
      s.evq.cycle = [] → (∀ p ∈ s.lanes, p.2.lockNs = none) → ∃ t, step s = .next t ∧ ChangesOnly [.clock] s t) ∧
    (∀ s : State, s.pending = [] → s.power.porst = true → step s = .next s)

/-- For every command c and state s: if c is well formed, exec c s answers a next state; if it is not, exec c s is the fault
noSuchObject. No arm is refused. The events of the command have left the command's own list when it answers, and no command
touches the queue of waiting commands. (Derived from R8, R522.) -/
def Obligations.EveryCommandAnswers : Prop :=
    (∀ (c : Instr) (s : State), WellFormed c → ∃ t, exec c s = .next t) ∧
    (∀ (c : Instr) (s : State), ¬WellFormed c → exec c s = .fault .noSuchObject) ∧
    (∀ (c : Instr) (s t : State), exec c s = .next t → t.evq.cycle = [])

/-- For every command c and all states s and t with exec c s = next t, the pending commands of t are those of s. (Derived from
R522, R530.) -/
def Obligations.QueueIsUntouched : Prop :=
    (∀ (c : Instr) (s t : State), exec c s = .next t → t.pending = s.pending)

/-- State.reset lists its register words, its shadows and its memory in canonical form, holds no seal, and its timebase holds a
time. (Derived from R439, R507.) -/
def Obligations.ResetHoldsInv : Prop :=
    (State.reset.Inv)

/-- For every state s with Inv s, if step s answers next t then Inv t: register words, shadows, the seal and memory stay in
canonical form, seconds stay below 2^48, nanoseconds below 10^9 and the fraction below 2^32. (Derived from R439, R442, R217,
R219, R328.) -/
def Obligations.StepKeepsInv : Prop :=
    (∀ s t : State, s.Inv → step s = .next t → t.Inv)

/-- In State.reset a read of offset 0 answers 0x489600B1, with PART 0x4896 and STEPPING 0xB1, on every path. (Stated: R7.) -/
def Obligations.ResetIdentity : Prop :=
    (∀ bar0 : Bool, readReg bar0 0 State.reset = 0x489600B1) ∧
    (State.reset.rd R.GLB_ID_PART = 0x4896 ∧ State.reset.rd R.GLB_ID_STEPPING = 0xB1)

/-- In State.reset the timebase time is zero with its fraction, TMB_INC is 2.0 ns in 8.32 form, the event queue is empty and not
overflowed, no command waits, no seal is held, the tick does not run, no structure is loaded, and memory lists no byte.
(Derived from R439, R440, R531.) -/
def Obligations.ResetTimebase : Prop :=
    (State.reset.time.sec = 0 ∧ State.reset.time.ns = 0 ∧ State.reset.time.frac = 0
    ∧ State.reset.rd R.TMB_INC_INT_INT = 2 ∧ State.reset.rd R.TMB_INC_FRAC_FRAC = 0
    ∧ State.reset.unread = 0 ∧ State.reset.rd R.GLB_EVQ_STAT_OVERFLOW = 0 ∧ State.reset.pending = []
    ∧ State.reset.sealed = none ∧ State.reset.rdb R.TICK_STATUS_RUN = false ∧ State.reset.rd R.IMG_STATUS_LOAD_STATE = 0
    ∧ State.reset.mem.bytes = [])

/-- For every state, field within a word, and value: after the device sets the field it reads the value modulo 2^width, every
field apart from it reads as before, and register words in canonical form stay so. (Derived from R524, R525.) -/
def Obligations.FieldReadsBack : Prop :=
    (∀ (s : State) (f : Fld) (v : Nat), FldOk f →
    (s.wr f v).rd f = v % 2 ^ (f.hi + 1 - f.lo) ∧ (∀ g : Fld, FldApart f g → (s.wr f v).rd g = s.rd g)
      ∧ (wordsWf s.regs = true → wordsWf (s.wr f v).regs = true))

/-- Where the source may write the register (its check of R357 permits the access and no fence holds it back), while domain 1 is
powered and all four byte enables are set: a write of GLB_SCRATCH (RW) takes effect at once; a write of DMP_RELAX (RWS)
changes the shadow and not the live field and sets DIRTY; a write of GLB_EVQ_STAT (W1C) with bit 31 set clears OVERFLOW; a
write of GLB_ID or GLB_PKG (RO) or of a reserved offset changes no field. A write with a byte enable missing changes only
GLB_ACCESS, which counts it and records its offset. The event list of the state is empty as every command leaves it.
(Derived from R523, R524, R525, R217, R522.) -/
def Obligations.RegisterWrite : Prop :=
    (∀ (s : State) (src v : Nat),
      src < 161 → v < 2 ^ 32 → s.powered 1 = true → mayWrite s src 8 = true →
      ∃ t, exec (.registerWrite src 8 v 15) s = .next t ∧
        t.rd R.GLB_SCRATCH_VALUE = v ∧ FieldsOnly [R.GLB_SCRATCH_VALUE] s t ∧ ChangesOnly [.regs, .evq, .sent] s t) ∧
    (∀ (s : State) (src v : Nat),
      src < 161 → v < 2 ^ 32 → s.powered 1 = true → mayWrite s src 0xD0008 = true →
      ∃ t, exec (.registerWrite src 0xD0008 v 15) s = .next t ∧
        t.rdShadow R.DMP_RELAX_RELAX_TICKS = v % 65536 ∧ t.rd R.DMP_RELAX_RELAX_TICKS = s.rd R.DMP_RELAX_RELAX_TICKS ∧
        t.rd R.CLAP_STATUS_DIRTY = 1 ∧ FieldsOnly [R.CLAP_STATUS_DIRTY] s t ∧ ChangesOnly [.regs, .evq, .sent, .shadow] s t) ∧
    (∀ (s : State) (src v : Nat),
      src < 161 → v < 2 ^ 32 → bitOf v 31 = true → s.powered 1 = true → mayWrite s src 0x28 = true → s.evq.cycle = [] →
      ∃ t, exec (.registerWrite src 0x28 v 15) s = .next t ∧
        t.rd R.GLB_EVQ_STAT_OVERFLOW = 0 ∧ t.rd R.GLB_EVQ_STAT_LOST = s.rd R.GLB_EVQ_STAT_LOST ∧ FieldsOnly [] s t ∧
        ChangesOnly [.regs, .evq, .sent] s t) ∧
    (∀ (s : State) (src a v : Nat),
      src < 161 → v < 2 ^ 32 → a = 0 ∨ a = 0x104 ∨ a = 0x1D0000 ∨ a = 0xFFFFFC → s.powered 1 = true →
      mayWrite s src a = true → ∃ t, exec (.registerWrite src a v 15) s = .next t ∧
        FieldsOnly [] s t ∧ ChangesOnly [.regs, .evq, .sent] s t) ∧
    (∀ (s : State) (src a v be : Nat),
      src < 161 → a < 0x1000000 → a % 4 = 0 → v < 2 ^ 32 → be < 15 → ¬(src = 152 ∧ 0xFE0000 ≤ a ∧ a < 0xFE0808) →
      s.powered 1 = true → mayWrite s src a = true → ∃ t, exec (.registerWrite src a v be) s = .next t ∧
        t.rd R.GLB_ACCESS_PARTIAL = min (s.rd R.GLB_ACCESS_PARTIAL + 1) 255 ∧ t.rd R.GLB_ACCESS_OFFSET = a ∧
        FieldsOnly [R.GLB_ACCESS_PARTIAL, R.GLB_ACCESS_OFFSET] s t ∧ ChangesOnly [.regs, .evq, .sent] s t)

/-- In a state with domain 1 powered, no other event of the cycle entered or waiting, none dropped since the last EVQ_LOST, and
a queue that is not full, an event of a code below 2^16 and an object below 2^32 that arises now is written at GLB_EVQ_WR:
word 0 holds the present wall-µs value, word 1 the code and the block, word 2 the object, word 3 the count of records
written before and TICK_COUNT, each modulo 65,536. SEQ and INDEX advance by one, and LAP changes where INDEX wraps. Nothing
outside the queue, its vectors and what leaves the device changes. (Derived from R530, R531, R441.) -/
def Obligations.EventRecord : Prop :=
    (∀ (s : State) (code object : Nat), s.powered 1 = true → s.evq.cycle = [] → s.evq.entered = [] → s.evq.lostSince = 0 →
    s.unread < 1024 → code < 2 ^ 16 → object < 2 ^ 32 →
    let i := s.rd R.GLB_EVQ_WR_INDEX
    let t := (s.raise code object).flushEvents
    t.rd (R.GLB_EVENT_WORD i 0) = s.wus
      ∧ t.rd (R.GLB_EVENT_WORD i 1) = code * 2 ^ 16 + code / 256 * 256
      ∧ t.rd (R.GLB_EVENT_WORD i 2) = object
      ∧ t.rd (R.GLB_EVENT_WORD i 3) = s.evq.seq % 65536 * 2 ^ 16 + s.rd R.TICK_COUNT_COUNT % 65536
      ∧ t.rd R.GLB_EVQ_WR_INDEX = (i + 1) % 1024
      ∧ t.rd R.GLB_EVQ_WR_LAP = (if i = 1023 then 1 - s.rd R.GLB_EVQ_WR_LAP else s.rd R.GLB_EVQ_WR_LAP)
      ∧ t.evq.seq = s.evq.seq + 1
      ∧ FieldsOnly [] s t ∧ ChangesOnly [.regs, .evq, .sent] s t)

/-- In a state with domain 1 powered, no other event of the cycle entered or waiting and a full queue, an event that arises now
leaves the pointers and every record as they are, increments LOST up to its limit, sets OVERFLOW, and adds one to the count
of events dropped since the last EVQ_LOST. (Derived from R532.) -/
def Obligations.EventDropped : Prop :=
    (∀ (s : State) (code object : Nat), s.powered 1 = true → s.evq.cycle = [] → s.evq.entered = [] → 1024 ≤ s.unread →
    let t := (s.raise code object).flushEvents
    t.rd R.GLB_EVQ_STAT_OVERFLOW = 1 ∧ t.rd R.GLB_EVQ_STAT_LOST = min (s.rd R.GLB_EVQ_STAT_LOST + 1) 65535
      ∧ t.evq.lostSince = s.evq.lostSince + 1 ∧ t.evq.seq = s.evq.seq
      ∧ (∀ g : Fld, g.addr ≠ R.GLB_EVQ_STAT_LOST.addr → t.rd g = s.rd g))

/-- In a state with events dropped since the last EVQ_LOST and two slots free, an event that arises now finds the record of
EVQ_LOST written first: its code is 0x0001, its object is the number dropped, saturating at 0xFFFFFFFF, and the event's own
record follows in the next slot. The count of dropped events begins again at zero. (Derived from R532, R530.) -/
def Obligations.EventLostRecord : Prop :=
    (∀ (s : State) (code object : Nat), s.powered 1 = true → s.evq.cycle = [] → s.evq.entered = [] → s.evq.lostSince ≠ 0 →
    s.unread < 1023 → code < 2 ^ 16 → object < 2 ^ 32 →
    let i := s.rd R.GLB_EVQ_WR_INDEX
    let t := (s.raise code object).flushEvents
    t.rd (R.GLB_EVENT_WORD i 0) = s.wus
      ∧ t.rd (R.GLB_EVENT_WORD i 1) = 0x0001 * 2 ^ 16
      ∧ t.rd (R.GLB_EVENT_WORD i 2) = min s.evq.lostSince 0xFFFFFFFF
      ∧ t.rd (R.GLB_EVENT_WORD ((i + 1) % 1024) 1) = code * 2 ^ 16 + code / 256 * 256
      ∧ t.rd (R.GLB_EVENT_WORD ((i + 1) % 1024) 2) = object
      ∧ t.evq.lostSince = 0 ∧ t.evq.seq = s.evq.seq + 2)

/-- A write to GLB_EVQ_RD of a pointer not beyond GLB_EVQ_WR, with no dropped event to report, sets INDEX and LAP; a pointer
beyond GLB_EVQ_WR is ignored. A write of 1 to a pending bit whose vector nothing in the queue asks for clears it. Neither
changes a field outside the queue's. (Derived from R531, R535.) -/
def Obligations.QueueWrites : Prop :=
    (∀ (s : State) (v : Nat),
      v < 2 ^ 32 → s.evq.cycle = [] → s.evq.lostSince = 0 →
      (v % 2048 + 2048 - (s.rd R.GLB_EVQ_RD_INDEX + 1024 * s.rd R.GLB_EVQ_RD_LAP)) % 2048 ≤ s.unread →
      ∃ t, exec (.glbEvqRdWrite v) s = .next t ∧
        t.rd R.GLB_EVQ_RD_INDEX = v % 1024 ∧ t.rd R.GLB_EVQ_RD_LAP = v / 1024 % 2 ∧ t.evq = { s.evq with entered := [] } ∧
        t.sent = s.sent ∧ FieldsOnly [] s t ∧ ChangesOnly [.regs, .evq, .sent] s t) ∧
    (∀ (s : State) (v : Nat),
      v < 2 ^ 32 → s.evq.cycle = [] →
      s.unread < (v % 2048 + 2048 - (s.rd R.GLB_EVQ_RD_INDEX + 1024 * s.rd R.GLB_EVQ_RD_LAP)) % 2048 →
      ∃ t, exec (.glbEvqRdWrite v) s = .next t ∧
        t.regs = s.regs ∧ t.evq = s.evq ∧ t.sent = s.sent ∧ FieldsOnly [] s t ∧ ChangesOnly [.regs, .evq, .sent] s t) ∧
    (∀ (s : State) (k w v : Nat),
      k < 2 → w < 2 ^ 32 → v / 32 = k → bitOf w (v % 32) = true → s.evq.cycle = [] → vectorWanted s v = false →
      ∃ t, exec (.intPendClear k w) s = .next t ∧
        t.rdb (vectorBit v) = false ∧ FieldsOnly [] s t ∧ ChangesOnly [.regs, .evq, .sent] s t)

/-- For every state, address and list of bytes: after memWrite a byte of the stored range reads the byte stored there, every
other address reads as before, and memory in canonical form stays so; of the rest of the state only the record of lines in
error may change, by which a line written whole holds no error any more. (Derived from R328, R349.) -/
def Obligations.StoreReadsBack : Prop :=
    (∀ (s : State) (a i : Nat) (bs : List Byte),
    (s.memWrite a bs).mem.bytes.get memDefault i
        = (if h : a ≤ i ∧ i - a < bs.length then bs[i - a]'h.2 else s.mem.bytes.get memDefault i)
      ∧ (Memory.wf s.mem.bytes = true → Memory.wf (s.memWrite a bs).mem.bytes = true)
      ∧ ChangesOnly [.bytes, .mem] s (s.memWrite a bs))

/-- For every state that holds a seal, both in canonical form: after the commit of an edge every register word, but CLAP_STATUS,
CLAP_SEQ and CLAP_LAST, has the sealed value in its RWS bits and its own value in the rest; the seal is gone;
CLAP_STATUS.SEALED is 0 and CLAP_SEQ has advanced. (Derived from R219, R220.) -/
def Obligations.CommitTakesTheSeal : Prop :=
    (∀ (s : State) (u : Tab Word), wordsWf s.regs = true → wordsWf u = true → s.sealed = some u →
    (commitSeal s).1 = true ∧ (commitSeal s).2.sealed = none
      ∧ (commitSeal s).2.rd R.CLAP_STATUS_SEALED = 0
      ∧ (commitSeal s).2.rd R.CLAP_SEQ_COMMITS = (s.rd R.CLAP_SEQ_COMMITS + 1) % 2 ^ 32
      ∧ (∀ a : Nat, a ≠ R.CLAP_STATUS_SEALED.addr → a ≠ R.CLAP_SEQ_COMMITS.addr → a ≠ R.CLAP_LAST_TICK.addr →
          (commitSeal s).2.word a = (if accMask .rws a = 0 then s.word a else takeRws a (s.word a) (u.get resetWord a)))
      ∧ ChangesOnly [.regs, .sealed] s (commitSeal s).2)

/-- With the geometry applied and the present cycle at or past the exact time of the next edge, TICK_EDGE runs the edge to its
end: no late arm is left (it has become an arm for the next edge), and the record of CONTENT written since the seal is
empty. Before that time, or before the geometry is applied, it changes nothing but the queue that every command drains.
(Derived from R12, R18, R218, R220.) -/
def Obligations.TickEdge : Prop :=
    (∀ (s : State) (e : Nat),
      s.tick.geometryApplied = true → edgeDue s = true → ∃ t, exec (.tickEdge e) s = .next t ∧
        t.clap.armAfter = false ∧ t.clap.contentSince = [] ∧ (s.clap.armAfter = true → t.clap.armNext = true)) ∧
    (∀ (s : State) (e : Nat),
      (s.tick.geometryApplied && edgeDue s) = false → ∃ t, exec (.tickEdge e) s = .next t ∧
        FieldsOnly [] s t ∧ ChangesOnly [.regs, .evq, .sent] s t)

/-- CUE_SHEET_COMPLETE of a good sheet in time marks it complete and records the time its building took, in whole µs. RESYNC
waits for the next edge and changes nothing else. TICK_SOURCE_EDGE of a source other than the timebase records the arrival
as the newest. TICK_SRC_LOST of a source that is lost under R15 clears LOCKED, SLEWING and ACTIVE_SRC and enters holdover.
(Derived from R14, R15, R16, R26.) -/
def Obligations.TickCommands : Prop :=
    (∀ (s : State) (sh : Sheet),
      s.tick.building = some sh → s.tick.complete = false → s.tick.cueBad = false →
      s.nowNs + s.rd R.TICK_CFG_PUB_GUARD * 1000 ≤ s.tick.nextEdgeNs → ∃ t, exec (.cueSheetComplete true) s = .next t ∧
        t.tick.complete = true ∧ t.tick.buildUs = (s.nowNs - s.tick.lastEdgeNs) / 1000 ∧ t.rd R.TICK_BUILD_COMPLETE = 1 ∧
        FieldsOnly [R.TICK_BUILD_COMPLETE] s t ∧ ChangesOnly [.regs, .evq, .sent, .tick] s t) ∧
    (∀ (s : State),
      ∃ t, exec (.resync) s = .next t ∧
        t.tick = { s.tick with resyncPending := true } ∧ FieldsOnly [] s t ∧ ChangesOnly [.regs, .evq, .sent, .tick] s t) ∧
    (∀ (s : State),
      tickSrc s = 1 ∨ tickSrc s = 2 → ∃ t, exec (.tickSourceEdge) s = .next t ∧
        t.tick.sourceEdges.head? = some s.nowNs ∧ FieldsOnly [R.TICK_STATUS_LOCKED, R.TICK_STATUS_ACTIVE_SRC] s t ∧
        ChangesOnly [.regs, .evq, .sent, .tick] s t) ∧
    (∀ (s : State),
      sourceLost s = true → ∃ t, exec (.tickSrcLost) s = .next t ∧
        t.rd R.TICK_STATUS_LOCKED = 0 ∧ t.rd R.TICK_STATUS_HOLDOVER = 1 ∧ t.rd R.TICK_STATUS_ACTIVE_SRC = 0 ∧
        t.rd R.TICK_STATUS_SLEWING = 0 ∧ t.tick.goodRun = 0 ∧
        FieldsOnly [R.TICK_STATUS_LOCKED, R.TICK_STATUS_HOLDOVER, R.TICK_STATUS_ACTIVE_SRC, R.TICK_STATUS_SLEWING, R.TICK_PERIOD_NS_PERIOD] s t ∧
        ChangesOnly [.regs, .evq, .sent, .tick] s t)

/-- CUT_OFF with an arm waiting and no seal takes the seal, a copy of every shadow, uses the arm up and clears DIRTY. CLAP_ARM
records the present wall-µs value; before the cut-off it arms the coming edge, after it the edge that follows, with LATE.
CLAP_DISCARD with no seal clears both arms, ARMED, LATE and DIRTY and puts every shadow back to its live value; with a seal
it only sets DISCARD_MISS. (Derived from R217, R218, R219, R225.) -/
def Obligations.ClapperCommands : Prop :=
    (∀ (s : State),
      pastCutoff s = true → s.clap.armNext = true → s.sealed = none → ∃ t, exec (.cutOff) s = .next t ∧
        t.sealed = some s.shadow ∧ t.clap.armNext = false ∧ t.clap.armAfter = s.clap.armAfter ∧
        t.rd R.CLAP_STATUS_SEALED = 1 ∧ t.rd R.CLAP_STATUS_DIRTY = 0 ∧ t.rd R.CLAP_STATUS_ARMED = b2n s.clap.armAfter ∧
        FieldsOnly [R.CLAP_STATUS_SEALED, R.CLAP_STATUS_DIRTY, R.CLAP_STATUS_LATE, R.CLAP_STATUS_ARMED] s t ∧
        ChangesOnly [.regs, .evq, .sent, .sealed, .clap] s t) ∧
    (∀ (s : State),
      pastCutoff s = false → ∃ t, exec (.clapArm) s = .next t ∧
        t.clap = { s.clap with armNext := true } ∧ t.rd R.CLAP_STATUS_ARMED = 1 ∧ t.rd R.CLAP_ARM_WUS_WUS = s.wus ∧
        FieldsOnly [R.CLAP_STATUS_ARMED, R.CLAP_ARM_WUS_WUS] s t ∧ ChangesOnly [.regs, .evq, .sent, .clap] s t) ∧
    (∀ (s : State),
      pastCutoff s = true → ∃ t, exec (.clapArm) s = .next t ∧
        t.clap = { s.clap with armAfter := true } ∧ t.rd R.CLAP_STATUS_ARMED = 1 ∧ t.rd R.CLAP_STATUS_LATE = 1 ∧
        t.rd R.CLAP_ARM_WUS_WUS = s.wus ∧ FieldsOnly [R.CLAP_STATUS_ARMED, R.CLAP_STATUS_LATE, R.CLAP_ARM_WUS_WUS] s t ∧
        ChangesOnly [.regs, .evq, .sent, .clap] s t) ∧
    (∀ (s : State),
      s.sealed = none → ∃ t, exec (.clapDiscard) s = .next t ∧
        t.clap = { s.clap with armNext := false, armAfter := false } ∧ t.rd R.CLAP_STATUS_ARMED = 0 ∧
        t.rd R.CLAP_STATUS_LATE = 0 ∧ t.rd R.CLAP_STATUS_DIRTY = 0 ∧
        (∀ a : Nat, t.shadowWord a = (if accMask .rws a = 0 then s.shadowWord a else takeRws a (s.shadowWord a) (s.word a))) ∧
        FieldsOnly [R.CLAP_STATUS_ARMED, R.CLAP_STATUS_LATE, R.CLAP_STATUS_DIRTY] s t ∧
        ChangesOnly [.regs, .evq, .sent, .shadow, .clap] s t) ∧
    (∀ (s : State),
      s.sealed ≠ none → ∃ t, exec (.clapDiscard) s = .next t ∧
        t.rd R.CLAP_STATUS_DISCARD_MISS = 1 ∧ FieldsOnly [R.CLAP_STATUS_DISCARD_MISS] s t ∧
        ChangesOnly [.regs, .evq, .sent] s t)

/-- BAND_START at a unit that works, with a first item whose half of the band buffer is free, makes that item the unit's present
item. BAND_COMPLETE, before the item's deadline and of a frame that is not dark, frees the unit and marks the member item,
or the band, composed. BAND_DEADLINE of a band that is not ready, held by no fault, in a flue no frame of which completes
only now, holds the band and counts BAND_LATE. (Derived from R40, R120, R122, R195, R21.) -/
def Obligations.BandCommands : Prop :=
    (∀ (s : State) (u : Nat) (i : Item) (r : FrameRun),
      u < 32 → unitWorks s u = true → firstItem (unitItems s u) = some i → frameOf s i.work.flue i.work.serial = some r →
      halfFree s i.work.flue r i.work.band = true → ∃ t, exec (.bandStart u) s = .next t ∧
        (t.unit u).work = some i.work ∧ (∀ v, v ≠ u → t.unit v = s.unit v) ∧ FieldsOnly [] s t ∧
        ChangesOnly [.regs, .evq, .sent, .comp] s t) ∧
    (∀ (s : State) (u n m : Nat) (w : WorkItem) (r : FrameRun),
      u < 32 → (s.unit u).work = some w → frameOf s w.flue w.serial = some r → frameDark s w.flue r = false →
      w.rect = some n → memberOf r.sheet n u = some m → s.monoNs < r.deadline w.flue w.band - 5000 → noJobReady s →
      ∃ t, exec (.bandComplete u) s = .next t ∧
        t.unit u = { s.unit u with work := none } ∧
        frameOf t w.flue w.serial = some { r with bands := r.bands.zipIdx.map fun p => if p.2 = w.band then setItemPhase n m .composed p.1 else p.1 } ∧
        FieldsOnly [] s t ∧ ChangesOnly [.regs, .evq, .sent, .comp] s t) ∧
    (∀ (s : State) (u : Nat) (w : WorkItem) (r : FrameRun),
      u < 32 → (s.unit u).work = some w → frameOf s w.flue w.serial = some r → frameDark s w.flue r = false → w.rect = none →
      s.monoNs < r.deadline w.flue w.band → w.band < r.bands.length → ∃ t, exec (.bandComplete u) s = .next t ∧
        t.unit u = { s.unit u with work := none } ∧
        (∃ q, frameOf t w.flue w.serial = some q ∧ (q.band w.band).phase = .composed)) ∧
    (∀ (s : State) (f k : Nat) (r : FrameRun),
      f < 24 → k < 72 → settleFrames f s = s → frameAtDeadline s f k = some r → frameDark s f r = false →
      bandReady r f k = false → (r.band k).phase ≠ .faultHeld → (s.unit (r.band k).unit).stopped = false →
      ∃ t, exec (.bandDeadline f k) s = .next t ∧
        t.rd (R.CMP_FLUE_STAT_BAND_LATE f) = min (s.rd (R.CMP_FLUE_STAT_BAND_LATE f) + 1) 65535 ∧
        (∃ q, frameOf t f r.serial = some q ∧ (q.band k).phase = .held))

/-- FRAME_START on a flue whose frame falls due marks it started; one that is not dark takes the members that its rectangles
have then, those not vacant. DIRECT_UNDERRUN on a flue with a started frame that carries a direct layer marks the frame
underrun and counts the sink's starts of active video from zero again. (Derived from R20, R146, R120.) -/
def Obligations.FrameCommands : Prop :=
    (∀ (s : State) (f : Nat) (r : FrameRun),
      f < 24 → (s.flue f).frames = [r] → r.started = false → r.startNs ≤ s.monoNs → s.monoNs < r.endNs → r.dark = true →
      ∃ t, exec (.frameStart f) s = .next t ∧
        (∃ b, (t.flue f).frames = [{ r with started := true, complete := b }])) ∧
    (∀ (s : State) (f : Nat) (r : FrameRun),
      f < 24 → (s.flue f).frames = [r] → r.started = false → r.startNs ≤ s.monoNs → s.monoNs < r.endNs →
      frameDark s f r = false → ∃ t, exec (.frameStart f) s = .next t ∧
        (∃ q, frameOf t f r.serial = some q ∧ q.started = true ∧ q.members = (rectsOf r.sheet f).map fun n => (n, presentMembers r.sheet n))) ∧
    (∀ (s : State) (f l : Nat) (r : FrameRun),
      f < 24 → (s.flue f).frames = [r] → r.started = true → r.underrun = false → frameDark s f r = false →
      s.monoNs < r.endNs → directLayer r.sheet f = some l → ∃ t, exec (.directUnderrun f) s = .next t ∧
        (∃ q, (t.flue f).frames = [q] ∧ q.serial = r.serial ∧ q.underrun = true) ∧
        (t.source (r.sheet.layerKey l)).sinceUnder = 0)

/-- Of a unit that owes this tick's canary (one in service, or holding itself idle to rejoin, whose region has power):
CANARY_SIGNED with the signature of the ROM entry that TICK_COUNT selects, not later than 100 µs before the next edge, marks
the canary done. With any other signature, or later, it fails the canary, and CANARY_DEADLINE from 100 µs before the next
edge on does too. At a unit that already holds itself idle nothing else of any unit changes. The ROM's signatures are a free
value of the implementation (log 15), and the statement holds for every one. (Derived from R42, R43, R46, R57.) -/
def Obligations.CanaryCommands : Prop :=
    (∀ (s : State) (u : Nat),
      u < 32 → canaryOwed s u = true → s.rdb R.TICK_STATUS_RUN = false ∨ s.nowNs + 100000 ≤ s.tick.nextEdgeNs →
      ∃ t, exec (.canarySigned u (Config.canaryRom (s.rd R.TICK_COUNT_COUNT % 16)).toNat) s = .next t ∧
        t.unit u = { s.unit u with canaryDone := true } ∧ (∀ v, v ≠ u → t.unit v = s.unit v) ∧ FieldsOnly [] s t ∧
        ChangesOnly [.regs, .evq, .sent, .comp] s t) ∧
    (∀ (s : State) (u sig : Nat),
      u < 32 → sig < 2 ^ 32 → sig ≠ (Config.canaryRom (s.rd R.TICK_COUNT_COUNT % 16)).toNat → canaryOwed s u = true →
      ∃ t, exec (.canarySigned u sig) s = .next t ∧
        (t.unit u).canaryDone = true ∧ (t.unit u).canaryFailed = true) ∧
    (∀ (s : State) (u sig : Nat),
      u < 32 → sig < 2 ^ 32 → canaryOwed s u = true → s.rdb R.TICK_STATUS_RUN = true → s.tick.nextEdgeNs < s.nowNs + 100000 →
      ∃ t, exec (.canarySigned u sig) s = .next t ∧
        (t.unit u).canaryDone = true ∧ (t.unit u).canaryFailed = true) ∧
    (∀ (s : State) (u : Nat),
      u < 32 → s.rdb R.TICK_STATUS_RUN = true → canaryOwed s u = true → s.tick.nextEdgeNs ≤ s.nowNs + 100000 →
      ∃ t, exec (.canaryDeadline u) s = .next t ∧
        (t.unit u).canaryDone = true ∧ (t.unit u).canaryFailed = true)

/-- VOTE_SIGNATURE_ARRIVAL from a member of the rectangle of the tile, composing it in a frame that is not dark, before the cut-
off, with the vote undecided and still to be won, and no injection at the voter's inputs: the first signature is recorded as
the voter received it, with the slot of the vote store that holds the member's tile, and leaves the tile undecided; one
equal to another member's decides MAJORITY with it; one that differs from the only other of two members decides FAIL.
VOTE_CUTOFF, from 5 µs before the deadline of a band of a frame that is not dark, closes the band's vote, leaves no critical
tile of the band undecided, and counts each unit whose signature is missing late in this tick. (Derived from R199, R200,
R202.) -/
def Obligations.VoteCommands : Prop :=
    (∀ (s : State) (f tl u sig n m : Nat) (w : WorkItem) (r : FrameRun),
      f < 24 → u < 32 → sig < 2 ^ 32 → (s.unit u).work = some w → w.flue = f → frameOf s f w.serial = some r →
      frameDark s f r = false → w.rect = some n → criticalRect r.sheet f tl = some n → bandOf r.sheet f tl = w.band →
      memberOf r.sheet n u = some m → s.rdb R.INJ_VOTER_ENABLE = false → (r.membersOf n).contains m = true →
      s.monoNs < r.deadline f w.band - 5000 → voteHopeless s r n = false → r.vote tl = {} → 2 ≤ (r.membersOf n).length →
      noJobReady s → ∃ t, exec (.voteSignatureArrival f tl u sig) s = .next t ∧
        (frameOf t f w.serial).map (fun q => q.vote tl) = some { sigs := [{ member := m, unit := u, sig := sig, slot := some (freeVoteSlot s f m) }] } ∧
        FieldsOnly [] s t ∧ ChangesOnly [.regs, .evq, .sent, .comp, .bytes, .mem, .free] s t) ∧
    (∀ (s : State) (f tl u sig n m : Nat) (w : WorkItem) (r : FrameRun) (x : VoteSig),
      f < 24 → u < 32 → sig < 2 ^ 32 → (s.unit u).work = some w → w.flue = f → frameOf s f w.serial = some r →
      frameDark s f r = false → w.rect = some n → criticalRect r.sheet f tl = some n → bandOf r.sheet f tl = w.band →
      memberOf r.sheet n u = some m → s.rdb R.INJ_VOTER_ENABLE = false → (r.membersOf n).contains m = true →
      s.monoNs < r.deadline f w.band - 5000 → voteHopeless s r n = false → (r.vote tl).sigs = [x] →
      (r.vote tl).decision = none → x.member ≠ m → x.sig = sig → ∃ t, exec (.voteSignatureArrival f tl u sig) s = .next t ∧
        (frameOf t f w.serial).map (fun q => (q.vote tl).decision) = some (some (some sig))) ∧
    (∀ (s : State) (f tl u sig n m : Nat) (w : WorkItem) (r : FrameRun) (x : VoteSig),
      f < 24 → u < 32 → sig < 2 ^ 32 → (s.unit u).work = some w → w.flue = f → frameOf s f w.serial = some r →
      frameDark s f r = false → w.rect = some n → criticalRect r.sheet f tl = some n → bandOf r.sheet f tl = w.band →
      memberOf r.sheet n u = some m → s.rdb R.INJ_VOTER_ENABLE = false → (r.membersOf n).contains m = true →
      s.monoNs < r.deadline f w.band - 5000 → voteHopeless s r n = false → (r.vote tl).sigs = [x] →
      (r.vote tl).decision = none → x.member ≠ m → x.sig ≠ sig → r.started = true → (r.membersOf n).length = 2 →
      ∃ t, exec (.voteSignatureArrival f tl u sig) s = .next t ∧
        (frameOf t f w.serial).map (fun q => (q.vote tl).decision) = some (some none)) ∧
    (∀ (s : State) (f k : Nat) (r : FrameRun),
      f < 24 → k < 72 → (s.flue f).frames = [r] → k < r.bands.length → (r.band k).cut = false →
      r.deadline f k - 5000 ≤ s.monoNs → frameDark s f r = false → ∃ t, exec (.voteCutoff f k) s = .next t ∧
        (∃ q, frameOf t f r.serial = some q ∧ (q.band k).cut = true ∧ (∀ tl ∈ bandTiles r.sheet f k, (criticalRect r.sheet f tl).isSome = true → (q.vote tl).decision.isSome = true)) ∧
        (∀ tl ∈ bandTiles r.sheet f k, ∀ u ∈ lateUnits r f tl, (t.unit u).lateTick = some (s.rd R.TICK_COUNT_COUNT))) ∧
    (∀ (s : State) (f k : Nat) (r : FrameRun),
      f < 24 → k < 72 → (s.flue f).frames = [r] → k < r.bands.length → (r.band k).cut = false →
      r.deadline f k - 5000 ≤ s.monoNs → frameDark s f r = true → ∃ t, exec (.voteCutoff f k) s = .next t ∧
        (∃ q, (t.flue f).frames = [q] ∧ (q.band k).cut = true))

/-- SENTINEL_EVALUATION on an enabled flue that is not suspended, with a complete code period, writes RHO from the correlation
that no other of the eight lags exceeds (an earlier lag wins a tie). Below the threshold it changes only RHO. At the
threshold or above it the flue is CONFIRMED with the present TICK_COUNT. GLASS_UNCONFIRMED on an enabled flue whose last
confirmation is at least the limit of ticks ago, at least 32, makes STATE 3 and sets the flue's bit of the summary. (Derived
from R181, R184, R185, R186, R187.) -/
def Obligations.SentinelCommands : Prop :=
    (∀ (s : State) (f : Nat) (samples ts : List Nat) (c : Corr),
      f < 24 → sentinelOn s f = true → s.rdb (R.SNT_FLUE_STAT_SUSPENDED f) = false → periodTimes (s.flue f) = some ts →
      s.powered 6 = true →
      ((List.range 8).map (correlate ((s.tick.current.map fun sh => sh.rd (R.SNT_FLUE_CFG_CODE f)).getD (s.rd (R.SNT_FLUE_CFG_CODE f))) samples ts
        ((((ts.headD 0 : Nat) : Int) + s.time.offset + 9999) / 10000 * 10000 - s.time.offset).toNat
        (s.rd R.TICK_PERIOD_NS_PERIOD / (1 + s.rd (R.CMP_FLUE_CTRL_X2 f))))).foldl (fun (b : Option Corr) c =>
          match b with | none => some c | some x => if corrGreater c x then some c else b) none = some c →
      corrAtLeast c (s.rd (R.SNT_FLUE_CFG_THRESH f)) = false → ∃ t, exec (.sentinelEvaluation f samples) s = .next t ∧
        t.rd (R.SNT_FLUE_STAT_RHO f) = rhoByte c % 256 ∧ FieldsOnly [R.SNT_FLUE_STAT_RHO f] s t ∧
        ChangesOnly [.regs, .evq, .sent] s t) ∧
    (∀ (s : State) (f : Nat) (samples ts : List Nat) (c : Corr),
      f < 24 → sentinelOn s f = true → s.rdb (R.SNT_FLUE_STAT_SUSPENDED f) = false → periodTimes (s.flue f) = some ts →
      s.powered 6 = true →
      ((List.range 8).map (correlate ((s.tick.current.map fun sh => sh.rd (R.SNT_FLUE_CFG_CODE f)).getD (s.rd (R.SNT_FLUE_CFG_CODE f))) samples ts
        ((((ts.headD 0 : Nat) : Int) + s.time.offset + 9999) / 10000 * 10000 - s.time.offset).toNat
        (s.rd R.TICK_PERIOD_NS_PERIOD / (1 + s.rd (R.CMP_FLUE_CTRL_X2 f))))).foldl (fun (b : Option Corr) c =>
          match b with | none => some c | some x => if corrGreater c x then some c else b) none = some c →
      corrAtLeast c (s.rd (R.SNT_FLUE_CFG_THRESH f)) = true → ∃ t, exec (.sentinelEvaluation f samples) s = .next t ∧
        t.rd (R.SNT_FLUE_STAT_RHO f) = rhoByte c % 256 ∧ t.rd (R.SNT_FLUE_STAT_STATE f) = 2 ∧
        t.rd (R.SNT_FLUE_LAST_LAST_CONFIRM f) = s.rd R.TICK_COUNT_COUNT ∧ ChangesOnly [.regs, .evq, .sent, .comp] s t) ∧
    (∀ (s : State) (f : Nat),
      f < 24 → sentinelOn s f = true → s.rdb (R.SNT_FLUE_STAT_SUSPENDED f) = false →
      s.rd (R.SNT_FLUE_STAT_STATE f) = 1 ∨ s.rd (R.SNT_FLUE_STAT_STATE f) = 2 →
      max 32 (s.rd (R.SNT_FLUE_LIMIT_CONFIRM_TICKS f)) ≤ (s.rd R.TICK_COUNT_COUNT + 2 ^ 32 - (s.flue f).seekTick) % 2 ^ 32 →
      ∃ t, exec (.glassUnconfirmed f) s = .next t ∧
        t.rd (R.SNT_FLUE_STAT_STATE f) = 3 ∧ bitOf (t.rd R.SNT_GLASS_SUMMARY_UNCONFIRMED) f = true ∧
        FieldsOnly [R.SNT_FLUE_STAT_STATE f, R.SNT_GLASS_SUMMARY_UNCONFIRMED] s t ∧ ChangesOnly [.regs, .evq, .sent] s t)

/-- WARDEN_PROPOSAL from a core in the vote, for the record being handled that awaits a vote and has no window, opens a window
that holds the proposal and changes nothing else. A second core's equal proposal within the window's 2 µs joins it and the
record's action and object are voted. VOTE_WINDOW_CLOSE of the oldest window, 2 µs after it opened: with agreement and one
core that did not propose the agreed action, that core leaves the vote and is counted; without agreement, at its first
split, the window closes, SPLITS counts and the cores may propose once more. (Derived from R211, R212, R213, R214, R235.) -/
def Obligations.WardenProposals : Prop :=
    (∀ (s : State) (core i a o : Nat),
      i < 256 → coreIn s core = true → handlingRec s = some i → needsVote s i = true → (s.frec i).voted = none →
      s.faults.windows.find? (·.index == i) = none → ∃ t, exec (.wardenProposal core i a o) s = .next t ∧
        t.faults = { s.faults with windows := s.faults.windows ++ [{ index := i, openNs := s.monoNs, props := [{ core := core, action := a, object := o }] }] } ∧
        FieldsOnly [] s t ∧ ChangesOnly [.regs, .evq, .sent, .faults] s t) ∧
    (∀ (s : State) (core i a o : Nat) (w : VoteWindow) (p : Proposal),
      i < 256 → coreIn s core = true → s.faults.windows = [w] → w.index = i → s.monoNs < w.openNs + 2000 → w.agreed = none →
      w.props = [p] → p.core ≠ core → p.action = a → p.object = o → ∃ t, exec (.wardenProposal core i a o) s = .next t ∧
        (t.frec i).voted = some (a, o) ∧
        t.faults.windows = [{ w with props := [p, { core := core, action := a, object := o }], agreed := some (a, o) }] ∧
        FieldsOnly [] s t ∧ ChangesOnly [.regs, .evq, .sent, .faults] s t) ∧
    (∀ (s : State) (w : VoteWindow) (a o c : Nat),
      s.faults.windows = [w] → w.openNs + 2000 ≤ s.monoNs → w.agreed = some (a, o) → c < 3 →
      (List.range 3).filter (fun d => coreIn s d && !w.props.any fun p => p.core == d && p.action == a && p.object == o) = [c] →
      s.faults.openRecs = [] → noRectLive s → ∃ t, exec (.voteWindowClose) s = .next t ∧
        coreIn t c = false ∧ bitOf (t.rd R.CRT_WSTAT_IN_VOTE) c = false) ∧
    (∀ (s : State) (w : VoteWindow) (ws : List VoteWindow),
      s.faults.windows = w :: ws → w.openNs + 2000 ≤ s.monoNs → w.agreed = none → (s.frec w.index).splits = 0 →
      ∃ t, exec (.voteWindowClose) s = .next t ∧
        t.faults.windows = ws ∧ t.rd R.CRT_WVOTE_SPLITS = min (s.rd R.CRT_WVOTE_SPLITS + 1) 255 ∧
        t.frec w.index = { s.frec w.index with splits := 1 } ∧ FieldsOnly [R.CRT_WVOTE_SPLITS] s t ∧
        ChangesOnly [.regs, .evq, .sent, .faults] s t)

/-- FAULT_HANDLING_START while nothing is handled takes of the open records the one in state QUEUED with the lowest sequence
number (none raised ahead of the queue, none waiting for a RETRY): one that needs a vote becomes HANDLING and WDN_STATUS
names it, and one that needs none is LOGGED. HANDLER_STAGE_END, for a hooked record that awaits its vote: a core that
overran, with no window yet, opens one with the built-in action on the record's object; two that overran agree on it; one
that overruns after the others agreed joins their window and changes nothing else; with nobody past the stage and a window
open nothing changes; with no handler hooked and no window it is a split. FAULT_ACTION_EXECUTED of a voted WITHDRAW_UNIT
withdraws the unit; of NONE it withdraws nothing; each writes ACTION and ends the handling. (Derived from R213, R234, R235,
R236, R237.) -/
def Obligations.WardenHandling : Prop :=
    (∀ (s : State) (i : Nat),
      i < 256 → s.rdb R.WDN_STATUS_HANDLING = false → i ∈ s.faults.openRecs → s.rd (R.WDN_LOG_W1_STATE i) = 1 →
      (∀ j ∈ s.faults.openRecs, (s.frec j).urgent = false ∧ (j = i ∨ (s.rd (R.WDN_LOG_W1_STATE j) ≠ 1 ∧ s.rd (R.WDN_LOG_W1_STATE j) ≠ 3) ∨ (s.frec i).seqNo < (s.frec j).seqNo)) →
      needsVote s i = true → ∃ t, exec (.faultHandlingStart) s = .next t ∧
        t.rdb R.WDN_STATUS_HANDLING = true ∧ t.rd R.WDN_STATUS_HANDLING_IDX = i ∧ t.rd (R.WDN_LOG_W1_STATE i) = 2 ∧
        (t.frec i).voted = none ∧ (t.frec i).splits = 0 ∧ (∀ j, j ≠ i → t.frec j = s.frec j) ∧
        FieldsOnly [R.WDN_STATUS_HANDLING, R.WDN_STATUS_HANDLING_IDX, R.WDN_LOG_W1_STATE i, R.WDN_STATUS_OPEN, R.WDN_STATUS_QUEUED] s t ∧
        ChangesOnly [.regs, .evq, .sent, .faults] s t) ∧
    (∀ (s : State) (i : Nat),
      i < 256 → s.rdb R.WDN_STATUS_HANDLING = false → i ∈ s.faults.openRecs → s.rd (R.WDN_LOG_W1_STATE i) = 1 →
      (∀ j ∈ s.faults.openRecs, (s.frec j).urgent = false ∧ (j = i ∨ (s.rd (R.WDN_LOG_W1_STATE j) ≠ 1 ∧ s.rd (R.WDN_LOG_W1_STATE j) ≠ 3) ∨ (s.frec i).seqNo < (s.frec j).seqNo)) →
      needsVote s i = false → s.rd (R.WDN_LOG_W1_CODE i) ≠ 0x0B → ∃ t, exec (.faultHandlingStart) s = .next t ∧
        t.rdb R.WDN_STATUS_HANDLING = false ∧ t.rd (R.WDN_LOG_W1_STATE i) = 0xA ∧
        FieldsOnly [R.WDN_LOG_W1_STATE i, R.WDN_STATUS_OPEN, R.WDN_STATUS_QUEUED] s t ∧
        ChangesOnly [.regs, .evq, .sent, .faults, .comp] s t) ∧
    (∀ (s : State) (c i : Nat),
      handlingRec s = some i → (s.frec i).voted = none → needsVote s i = true → hooked s (s.rd (R.WDN_LOG_W1_CODE i)) = true →
      s.faults.windows = [] → coreIn s c = true → ∃ t, exec (.handlerStageEnd [c]) s = .next t ∧
        t.faults = { s.faults with windows := [{ index := i, openNs := s.monoNs, props := [{ core := c, action := (s.frec i).action, object := actionObject s i }] }] } ∧
        FieldsOnly [] s t ∧ ChangesOnly [.regs, .evq, .sent, .faults] s t) ∧
    (∀ (s : State) (c d i : Nat),
      handlingRec s = some i → (s.frec i).voted = none → needsVote s i = true → hooked s (s.rd (R.WDN_LOG_W1_CODE i)) = true →
      s.faults.windows = [] → coreIn s c = true → coreIn s d = true → c ≠ d →
      ∃ t, exec (.handlerStageEnd [c, d]) s = .next t ∧
        (t.frec i).voted = some ((s.frec i).action, actionObject s i) ∧
        (∃ w, t.faults.windows = [w] ∧ w.index = i ∧ w.agreed = some ((s.frec i).action, actionObject s i)) ∧
        FieldsOnly [] s t ∧ ChangesOnly [.regs, .evq, .sent, .faults] s t) ∧
    (∀ (s : State) (c i a o : Nat) (w : VoteWindow),
      handlingRec s = some i → (s.frec i).voted = some (a, o) → hooked s (s.rd (R.WDN_LOG_W1_CODE i)) = true →
      s.faults.windows = [w] → w.index = i → w.agreed = some (a, o) → s.monoNs < w.openNs + 2000 → coreIn s c = true →
      w.props.any (·.core == c) = false → ∃ t, exec (.handlerStageEnd [c]) s = .next t ∧
        t.faults = { s.faults with windows := [{ w with props := w.props ++ [{ core := c, action := (s.frec i).action, object := actionObject s i }] }] } ∧
        FieldsOnly [] s t ∧ ChangesOnly [.regs, .evq, .sent, .faults] s t) ∧
    (∀ (s : State) (i : Nat),
      handlingRec s = some i → needsVote s i = true → s.faults.windows.any (·.index == i) = true →
      ∃ t, exec (.handlerStageEnd []) s = .next t ∧
        t.faults = s.faults ∧ FieldsOnly [] s t ∧ ChangesOnly [.regs, .evq, .sent] s t) ∧
    (∀ (s : State) (overrun : List Nat) (i : Nat),
      handlingRec s = some i → (s.frec i).voted = none → needsVote s i = true →
      hooked s (s.rd (R.WDN_LOG_W1_CODE i)) = false → s.faults.windows = [] → (s.frec i).splits = 0 →
      ∃ t, exec (.handlerStageEnd overrun) s = .next t ∧
        t.rd R.CRT_WVOTE_SPLITS = min (s.rd R.CRT_WVOTE_SPLITS + 1) 255 ∧ t.frec i = { s.frec i with splits := 1 } ∧
        FieldsOnly [R.CRT_WVOTE_SPLITS] s t ∧ ChangesOnly [.regs, .evq, .sent, .faults] s t) ∧
    (∀ (s : State) (i u : Nat),
      handlingRec s = some i → i < 256 → (s.frec i).voted = some (1, u) → u < 32 → noRectLive s →
      ∃ t, exec (.faultActionExecuted) s = .next t ∧
        (t.unit u).withdrawn = true ∧ t.rd (R.WDN_LOG_W1_ACTION i) = 1 ∧ t.rdb R.WDN_STATUS_HANDLING = false) ∧
    (∀ (s : State) (i o : Nat),
      handlingRec s = some i → (s.frec i).voted = some (0, o) → (s.frec i).holding = false → (s.frec i).cues = [] →
      noRectLive s → ∃ t, exec (.faultActionExecuted) s = .next t ∧
        t.rd (R.WDN_LOG_W1_ACTION i) = 0 ∧ t.rdb R.WDN_STATUS_HANDLING = false ∧ t.rd R.WDN_STATUS_HANDLING_IDX = 0 ∧
        (∀ u, t.unit u = s.unit u))

/-- FAULT_RECORD_TIMEOUT with an open record that has timed out, and EVQ_STAGING_UE, set PKG_FAULT in both registers. THERMTRIP
sets its status and its reset cause and PKG_FAULT. REGION_RESET_CHECK 1 ms or more after the reset of a region whose monitor
is out of its window takes the region's power away and lists it as dead. (Derived from R248, R253, R273, R246.) -/
def Obligations.PackageFaults : Prop :=
    (∀ (s : State),
      s.faults.openRecs.any (timedOut s) = true → s.rdb R.WDN_STATUS_PKG_FAULT = false →
      ∃ t, exec (.faultRecordTimeout) s = .next t ∧
        t.rdb R.WDN_STATUS_PKG_FAULT = true ∧ t.rdb R.PWR_STATUS_PKG_FAULT = true) ∧
    (∀ (s : State) (k : Nat),
      k < 24 → ∃ t, exec (.thermtrip k) s = .next t ∧
        t.rdb R.PWR_STATUS_THERMTRIP = true ∧ t.rdb R.PWR_RST_CAUSE_THERMTRIP = true ∧ t.rdb R.WDN_STATUS_PKG_FAULT = true) ∧
    (∀ (s : State),
      ∃ t, exec (.evqStagingUe) s = .next t ∧
        t.rdb R.WDN_STATUS_PKG_FAULT = true ∧ (s.rdb R.WDN_STATUS_PKG_FAULT = false → t.rdb R.PWR_STATUS_PKG_FAULT = true)) ∧
    (∀ (s : State) (r : Nat) (x : RegionReset),
      r < 4 → s.faults.resets.find? (·.region == r) = some x → x.atNs + 1000000 ≤ s.monoNs → regionMonitorOut s r = true →
      ∃ t, exec (.regionResetCheck r) s = .next t ∧
        t.powered (regionDomain r) = false ∧ r ∈ t.faults.deadRegions ∧
        ChangesOnly [.regs, .evq, .sent, .faults, .power, .comp] s t)

/-- With no record open and no critical rectangle live, each detection writes a record at WDN_LOG_PTR.WR that holds the present
wall-µs value and its row's code, level and object: UNIT_STALL (0x03, unit) at a unit with work, CACHE_UE, SIG_ENGINE and
UNLOCALISED (0x04, 0x05, 0x07, cluster), FLUE_OUT (0x0A, flue). DIE_CLOCK writes the record 0x09 for the two regions of its
die; stated is the record of the first region. (Derived from R230, R231, R232.) -/
def Obligations.FaultDetections : Prop :=
    (∀ (s : State) (u i : Nat),
      u < 32 → (s.unit u).work.isSome = true → s.faults.openRecs = [] → noRectLive s → i = s.rd R.WDN_LOG_PTR_WR →
      ∃ t, exec (.unitStall u) s = .next t ∧
        t.rd (R.WDN_LOG_W1_CODE i) = 3 ∧ t.rd (R.WDN_LOG_W1_LEVEL i) = 0 ∧ t.rd (R.WDN_LOG_W1_OBJECT i) = u ∧
        t.rd (R.WDN_LOG_W0_STAMP i) = s.wus) ∧
    (∀ (s : State) (c i : Nat),
      c < 8 → s.faults.openRecs = [] → noRectLive s → i = s.rd R.WDN_LOG_PTR_WR → ∃ t, exec (.cacheUe c) s = .next t ∧
        t.rd (R.WDN_LOG_W1_CODE i) = 4 ∧ t.rd (R.WDN_LOG_W1_LEVEL i) = 1 ∧ t.rd (R.WDN_LOG_W1_OBJECT i) = c ∧
        t.rd (R.WDN_LOG_W0_STAMP i) = s.wus) ∧
    (∀ (s : State) (c i : Nat),
      c < 8 → s.faults.openRecs = [] → noRectLive s → i = s.rd R.WDN_LOG_PTR_WR → ∃ t, exec (.sigEngine c) s = .next t ∧
        t.rd (R.WDN_LOG_W1_CODE i) = 5 ∧ t.rd (R.WDN_LOG_W1_LEVEL i) = 1 ∧ t.rd (R.WDN_LOG_W1_OBJECT i) = c ∧
        t.rd (R.WDN_LOG_W0_STAMP i) = s.wus) ∧
    (∀ (s : State) (c i : Nat),
      c < 8 → s.faults.openRecs = [] → noRectLive s → i = s.rd R.WDN_LOG_PTR_WR → ∃ t, exec (.unlocalised c) s = .next t ∧
        t.rd (R.WDN_LOG_W1_CODE i) = 7 ∧ t.rd (R.WDN_LOG_W1_LEVEL i) = 1 ∧ t.rd (R.WDN_LOG_W1_OBJECT i) = c ∧
        t.rd (R.WDN_LOG_W0_STAMP i) = s.wus) ∧
    (∀ (s : State) (f i : Nat),
      f < 24 → s.faults.openRecs = [] → noRectLive s → i = s.rd R.WDN_LOG_PTR_WR → ∃ t, exec (.flueOut f) s = .next t ∧
        t.rd (R.WDN_LOG_W1_CODE i) = 10 ∧ t.rd (R.WDN_LOG_W1_LEVEL i) = 3 ∧ t.rd (R.WDN_LOG_W1_OBJECT i) = f ∧
        t.rd (R.WDN_LOG_W0_STAMP i) = s.wus) ∧
    (∀ (s : State) (d i : Nat),
      d < 2 → s.faults.openRecs = [] → noRectLive s → i = s.rd R.WDN_LOG_PTR_WR → ∃ t, exec (.dieClock d) s = .next t ∧
        t.rd (R.WDN_LOG_W1_CODE i) = 9 ∧ t.rd (R.WDN_LOG_W1_LEVEL i) = 2 ∧ t.rd (R.WDN_LOG_W1_OBJECT i) = (2 * d) ∧
        t.rd (R.WDN_LOG_W0_STAMP i) = s.wus)

/-- A write that would enable an injection without its INJ_PERMIT bit only sets DENIED. With the bit, INJ_RX_CFG takes MODE,
DIST and RATE, and a change of MODE seeds the path's LFSR from INJ_SEED; INJ_VOTER, INJ_DRAM (of one or two bits) and
INJ_LANE take their fields. INJ_DONE at an enabled injection whose count is zero clears ENABLE. (Derived from R249, R250,
R255.) -/
def Obligations.InjectionCommands : Prop :=
    (∀ (s : State) (n w : Nat),
      n < 12 → w < 2 ^ 32 → bits w 31 30 ≠ 0 → s.rdb (if n < 4 then R.INJ_PERMIT_CRL_RX else R.INJ_PERMIT_ETH_RX) = false →
      ∃ t, exec (.injRxCfgWrite n w) s = .next t ∧
        t.rdb R.INJ_PERMIT_DENIED = true ∧ FieldsOnly [R.INJ_PERMIT_DENIED] s t ∧ ChangesOnly [.regs, .evq, .sent] s t) ∧
    (∀ (s : State) (n w : Nat),
      n < 12 → w < 2 ^ 32 → bits w 31 30 ≠ s.rd (R.INJ_RX_CFG_MODE n) →
      s.rdb (if n < 4 then R.INJ_PERMIT_CRL_RX else R.INJ_PERMIT_ETH_RX) = true → ∃ t, exec (.injRxCfgWrite n w) s = .next t ∧
        t.rd (R.INJ_RX_CFG_MODE n) = bits w 31 30 ∧ t.rd (R.INJ_RX_CFG_DIST n) = bits w 26 24 ∧
        t.rd (R.INJ_RX_CFG_RATE n) = bits w 15 0 ∧ t.inj.lfsr.get (fun _ => 0) n = max 1 (s.rd R.INJ_SEED_SEED) ^^^ n ∧
        FieldsOnly [R.INJ_RX_CFG_MODE n, R.INJ_RX_CFG_DIST n, R.INJ_RX_CFG_RATE n] s t ∧
        ChangesOnly [.regs, .evq, .sent, .inj] s t) ∧
    (∀ (s : State) (w : Nat),
      w < 2 ^ 32 → bitOf w 31 = false ∨ s.rdb R.INJ_PERMIT_VOTER = true → ∃ t, exec (.injVoterWrite w) s = .next t ∧
        t.rd R.INJ_VOTER_ENABLE = bits w 31 31 ∧ t.rd R.INJ_VOTER_UNIT = bits w 20 16 ∧ t.rd R.INJ_VOTER_COUNT = bits w 15 0 ∧
        FieldsOnly [R.INJ_VOTER_ENABLE, R.INJ_VOTER_UNIT, R.INJ_VOTER_COUNT] s t ∧ ChangesOnly [.regs, .evq, .sent] s t) ∧
    (∀ (s : State) (w : Nat),
      w < 2 ^ 32 → bitOf w 31 = true → s.rdb R.INJ_PERMIT_DRAM = true → bits w 25 24 = 1 ∨ bits w 25 24 = 2 →
      ∃ t, exec (.injDramWrite w) s = .next t ∧
        t.rd R.INJ_DRAM_ENABLE = 1 ∧ t.rd R.INJ_DRAM_BITS = bits w 25 24 ∧ t.rd R.INJ_DRAM_CHANNEL = bits w 20 16 ∧
        t.rd R.INJ_DRAM_COUNT = bits w 15 0 ∧
        FieldsOnly [R.INJ_DRAM_ENABLE, R.INJ_DRAM_BITS, R.INJ_DRAM_CHANNEL, R.INJ_DRAM_COUNT] s t ∧
        ChangesOnly [.regs, .evq, .sent] s t) ∧
    (∀ (s : State) (w : Nat),
      w < 2 ^ 32 → bitOf w 31 = false ∨ s.rdb R.INJ_PERMIT_LANE = true → ∃ t, exec (.injLaneWrite w) s = .next t ∧
        t.rd R.INJ_LANE_ENABLE = bits w 31 31 ∧ t.rd R.INJ_LANE_LANE = bits w 22 16 ∧ t.rd R.INJ_LANE_EXP = bits w 5 0 ∧
        FieldsOnly [R.INJ_LANE_ENABLE, R.INJ_LANE_LANE, R.INJ_LANE_EXP] s t ∧ ChangesOnly [.regs, .evq, .sent, .inj] s t) ∧
    (∀ (s : State),
      s.rdb R.INJ_VOTER_ENABLE = true → s.rd R.INJ_VOTER_COUNT = 0 → ∃ t, exec (.injDone 0) s = .next t ∧
        t.rd R.INJ_VOTER_ENABLE = 0 ∧ FieldsOnly [R.INJ_VOTER_ENABLE] s t ∧ ChangesOnly [.regs, .evq, .sent] s t) ∧
    (∀ (s : State),
      s.rdb R.INJ_DRAM_ENABLE = true → s.rd R.INJ_DRAM_COUNT = 0 → ∃ t, exec (.injDone 1) s = .next t ∧
        t.rd R.INJ_DRAM_ENABLE = 0 ∧ FieldsOnly [R.INJ_DRAM_ENABLE] s t ∧ ChangesOnly [.regs, .evq, .sent] s t)

/-- TEMP_SAMPLE within the sensor's range writes the temperature in 1/8 °C, marks it valid, keeps the tick's highest sample of
the sensor, and from 110 °C begins an emergency; outside the range the sensor fails. SENSOR_FAIL of a valid sensor clears
VALID and forgets its sample of the tick. THERM_CLEAR after 64 cool edges ends an emergency. DAMPER_RELAX, after the run of
RELAX_TICKS edges, undoes the most recent action and begins a new run. (Derived from R257, R270, R272, R516.) -/
def Obligations.ThermalCommands : Prop :=
    (∀ (s : State) (i : Nat) (v : Int),
      i < 24 → -320 ≤ v → v ≤ 1200 → ∃ t, exec (.tempSample i v) s = .next t ∧
        t.rd (R.PWR_TEMP_TEMP i) = twos16 v ∧ t.rdb (R.PWR_TEMP_VALID i) = true ∧
        t.rdb R.DMP_STATUS_EMERGENCY = (s.rdb R.DMP_STATUS_EMERGENCY || decide (880 ≤ v)) ∧
        ((t.damper.tickMax.find? (·.1 == i)).map Prod.snd) = some (match (s.damper.tickMax.find? (·.1 == i)).map Prod.snd with | none => v | some o => max o v) ∧
        FieldsOnly [R.PWR_TEMP_TEMP i, R.PWR_TEMP_VALID i, R.DMP_STATUS_EMERGENCY] s t ∧
        ChangesOnly [.regs, .evq, .sent, .damper] s t) ∧
    (∀ (s : State) (i : Nat) (v : Int),
      i < 24 → v < -320 ∨ 1200 < v → s.rdb (R.PWR_TEMP_VALID i) = true → ∃ t, exec (.tempSample i v) s = .next t ∧
        t.rdb (R.PWR_TEMP_VALID i) = false ∧ FieldsOnly [R.PWR_TEMP_VALID i] s t ∧
        ChangesOnly [.regs, .evq, .sent, .damper] s t) ∧
    (∀ (s : State) (i : Nat),
      i < 24 → s.rdb (R.PWR_TEMP_VALID i) = true → ∃ t, exec (.sensorFail i) s = .next t ∧
        t.rdb (R.PWR_TEMP_VALID i) = false ∧ t.damper.tickMax = s.damper.tickMax.filter (·.1 != i) ∧
        FieldsOnly [R.PWR_TEMP_VALID i] s t ∧ ChangesOnly [.regs, .evq, .sent, .damper] s t) ∧
    (∀ (s : State),
      s.rdb R.DMP_STATUS_EMERGENCY = true → 64 ≤ s.damper.coolRun → ∃ t, exec (.thermClear) s = .next t ∧
        t.rdb R.DMP_STATUS_EMERGENCY = false ∧ ChangesOnly [.regs, .evq, .sent, .tick, .damper, .comp] s t) ∧
    (∀ (s : State) (a : DmpTaken) (as : List DmpTaken),
      s.rdb R.DMP_CTRL_ENABLE = true → s.rdb R.DMP_STATUS_EMERGENCY = false →
      max 1 (s.rd R.DMP_RELAX_RELAX_TICKS) ≤ s.damper.relaxRun → s.damper.actions = a :: as →
      ∃ t, exec (.damperRelax) s = .next t ∧
        t.damper.actions = as ∧ t.damper.relaxRun = 0 ∧ t.damper.wait = 0 ∧ t.rd R.DMP_STATUS_EXHAUSTED = 0)

/-- IMG_GO while no load runs, from memory at an aligned address, begins a load in state 1 with nothing staged; while a load
runs it only sets BUSY_HIT. IMG_READ_DONE of a header without a fault stages it; of the body, it stages the body and begins
verification; of a failed read, the load is refused with code 1 and the offset. IMG_VERIFY_DONE of an image whose key is not
in the fuses is refused with code 6, and one that verifies passes on to validation. IMG_VALIDATE_DONE of a partial image
without a fault waits for the next edge. IMG_APPLY_STEP_DONE takes the step from the list, or refuses with code 0x11 naming
the section where it failed. IMG_CANCEL and IMG_IDLE_TIMEOUT refuse a waiting image with codes 0x10 and 0x0F. These refusals
are stated for a load that is not the boot load. (Derived from R77, R82, R552, R65, R70, R73.) -/
def Obligations.ImageLoad : Prop :=
    (∀ (s : State),
      s.rd R.IMG_STATUS_LOAD_STATE = 0 ∨ 6 ≤ s.rd R.IMG_STATUS_LOAD_STATE → s.rd R.IMG_CTRL_SRC = 0 →
      s.rd R.IMG_SRC_LO_ADDR % 64 = 0 → ∃ t, exec (.imgGo) s = .next t ∧
        t.rd R.IMG_STATUS_LOAD_STATE = 1 ∧
        t.img = { s.img with staging := [], src := 0, addr := s.rd R.IMG_SRC_LO_ADDR, boot := false, secondary := false, headerRead := false, wait := s.rd R.IMG_CTRL_WAIT_TICKS, waited := 0, todo := [] } ∧
        FieldsOnly [R.IMG_STATUS_LOAD_STATE] s t ∧ ChangesOnly [.regs, .evq, .sent, .img] s t) ∧
    (∀ (s : State),
      1 ≤ s.rd R.IMG_STATUS_LOAD_STATE → s.rd R.IMG_STATUS_LOAD_STATE ≤ 5 → ∃ t, exec (.imgGo) s = .next t ∧
        t.rdb R.IMG_STATUS_BUSY_HIT = true ∧ t.img = s.img ∧ FieldsOnly [R.IMG_STATUS_BUSY_HIT] s t ∧
        ChangesOnly [.regs, .evq, .sent] s t) ∧
    (∀ (s : State) (bs : List Byte),
      s.rd R.IMG_STATUS_LOAD_STATE = 1 → s.img.headerRead = false → bs.length = 0x200 → headerFaults bs = [] →
      ∃ t, exec (.imgReadDone bs none) s = .next t ∧
        t.img = { s.img with staging := bs, headerRead := true } ∧ FieldsOnly [] s t ∧
        ChangesOnly [.regs, .evq, .sent, .img] s t) ∧
    (∀ (s : State) (bs : List Byte),
      s.rd R.IMG_STATUS_LOAD_STATE = 1 → s.img.headerRead = true → bs.length + 0x200 = imageSize s.img.staging →
      ∃ t, exec (.imgReadDone bs none) s = .next t ∧
        t.img = { s.img with staging := s.img.staging ++ bs } ∧ t.rd R.IMG_STATUS_LOAD_STATE = 2 ∧
        FieldsOnly [R.IMG_STATUS_LOAD_STATE] s t ∧ ChangesOnly [.regs, .evq, .sent, .img] s t) ∧
    (∀ (s : State) (bs : List Byte) (o : Nat),
      o < 2 ^ 22 → s.rd R.IMG_STATUS_LOAD_STATE = 1 → s.img.boot = false → ∃ t, exec (.imgReadDone bs (some o)) s = .next t ∧
        t.rd R.IMG_STATUS_LOAD_STATE = 7 ∧ t.rd R.IMG_STATUS_CODE = 1 ∧ t.rd R.IMG_DETAIL_OFFSET = o ∧ t.img.staging = [] ∧
        FieldsOnly [R.IMG_STATUS_LOAD_STATE, R.IMG_STATUS_CODE, R.IMG_STATUS_SECTION, R.IMG_DETAIL_OFFSET] s t ∧
        ChangesOnly [.regs, .evq, .sent, .img] s t) ∧
    (∀ (s : State) (h : List Byte),
      s.rd R.IMG_STATUS_LOAD_STATE = 2 → s.img.boot = false → s.fuses.hash0 = some h →
      keyKnown s.fuses (sha384 ((s.img.staging.drop 0x40).take 96)) = false → ∃ t, exec (.imgVerifyDone) s = .next t ∧
        t.rd R.IMG_STATUS_LOAD_STATE = 7 ∧ t.rd R.IMG_STATUS_CODE = 6 ∧ t.rd R.IMG_DETAIL_OFFSET = 0x40 ∧
        FieldsOnly [R.IMG_STATUS_LOAD_STATE, R.IMG_STATUS_CODE, R.IMG_STATUS_SECTION, R.IMG_DETAIL_OFFSET] s t ∧
        ChangesOnly [.regs, .evq, .sent, .img] s t) ∧
    (∀ (s : State) (n : Nat) (q sg : List Byte),
      s.rd R.IMG_STATUS_LOAD_STATE = 2 → n = s.img.staging.length - 96 → q = (s.img.staging.drop 0x40).take 96 →
      sg = s.img.staging.drop n → s.fuses.hash0 = none → s.fuses.hash1 = none →
      ecdsaVerify (ofBeBytes (q.take 48)) (ofBeBytes (q.drop 48)) (s.img.staging.take n) (ofBeBytes (sg.take 48)) (ofBeBytes (sg.drop 48)) = true →
      s.fuses.svn ≤ imageSvn s.img.staging → imagePartial s.img.staging = false → ∃ t, exec (.imgVerifyDone) s = .next t ∧
        t.rd R.IMG_STATUS_LOAD_STATE = 3 ∧ t.img = { s.img with unprov := true } ∧ FieldsOnly [R.IMG_STATUS_LOAD_STATE] s t ∧
        ChangesOnly [.regs, .evq, .sent, .img] s t) ∧
    (∀ (s : State),
      s.rd R.IMG_STATUS_LOAD_STATE = 3 → validateFault s s.img.staging = none → imagePartial s.img.staging = true →
      ∃ t, exec (.imgValidateDone) s = .next t ∧
        t.rd R.IMG_STATUS_LOAD_STATE = 4 ∧ t.img = { s.img with waited := 0 } ∧ FieldsOnly [R.IMG_STATUS_LOAD_STATE] s t ∧
        ChangesOnly [.regs, .evq, .sent, .img] s t) ∧
    (∀ (s : State) (fails ts : List Nat),
      s.rd R.IMG_STATUS_LOAD_STATE = 5 → s.img.todo = 9 :: ts → ts ≠ [] → stepReady s 9 = true →
      ∃ t, exec (.imgApplyStepDone true fails) s = .next t ∧
        t.img = { s.img with todo := ts } ∧ FieldsOnly [] s t ∧ ChangesOnly [.regs, .evq, .sent, .img] s t) ∧
    (∀ (s : State) (fails ts : List Nat) (k : Nat),
      s.rd R.IMG_STATUS_LOAD_STATE = 5 → s.img.todo = k :: ts → k < 16 → s.img.boot = false →
      ∃ t, exec (.imgApplyStepDone false fails) s = .next t ∧
        t.rd R.IMG_STATUS_LOAD_STATE = 7 ∧ t.rd R.IMG_STATUS_CODE = 0x11 ∧ t.rd R.IMG_STATUS_SECTION = k ∧
        t.img.failed = some (k, imageOffset s.img.staging k 0) ∧
        FieldsOnly [R.IMG_STATUS_LOAD_STATE, R.IMG_STATUS_CODE, R.IMG_STATUS_SECTION, R.IMG_DETAIL_OFFSET] s t ∧
        ChangesOnly [.regs, .evq, .sent, .img] s t) ∧
    (∀ (s : State),
      s.rd R.IMG_STATUS_LOAD_STATE = 4 → s.img.boot = false → ∃ t, exec (.imgCancel) s = .next t ∧
        t.rd R.IMG_STATUS_LOAD_STATE = 7 ∧ t.rd R.IMG_STATUS_CODE = 0x10 ∧ t.img.staging = [] ∧
        FieldsOnly [R.IMG_STATUS_LOAD_STATE, R.IMG_STATUS_CODE, R.IMG_STATUS_SECTION, R.IMG_DETAIL_OFFSET] s t ∧
        ChangesOnly [.regs, .evq, .sent, .img] s t) ∧
    (∀ (s : State),
      s.rd R.IMG_STATUS_LOAD_STATE = 4 → s.img.boot = false → max 1 s.img.wait ≤ s.img.waited →
      ∃ t, exec (.imgIdleTimeout) s = .next t ∧
        t.rd R.IMG_STATUS_LOAD_STATE = 7 ∧ t.rd R.IMG_STATUS_CODE = 0x0F ∧ t.img.staging = [] ∧
        FieldsOnly [R.IMG_STATUS_LOAD_STATE, R.IMG_STATUS_CODE, R.IMG_STATUS_SECTION, R.IMG_DETAIL_OFFSET] s t ∧
        ChangesOnly [.regs, .evq, .sent, .img] s t)

/-- FUSE_PROGRAM_SLOT0 and 1 before any image was applied since PORST_N put the data registers into an empty slot;
FUSE_REVOKE_SLOT0 and 1 revoke a programmed slot while the other stays usable; FUSE_ADVANCE_SVN with an image in force of a
higher version adds one; FUSE_BLOW_INJ_FORBID forbids injection for good. Each success reports result 0 and shows in the
status; a refused operation leaves every fuse and reports result 1. (Derived from R69.) -/
def Obligations.FuseCommands : Prop :=
    (∀ (s : State),
      s.img.applied = false → s.fuses.hash0 = none → ∃ t, exec (.fuseProgramSlot0) s = .next t ∧
        t.fuses = { s.fuses with hash0 := some (fuseData s) } ∧ t.rd R.IMG_FUSE_STAT_LAST_RESULT = 0 ∧
        t.rd R.IMG_FUSE_STAT_SLOT0_PROG = 1 ∧
        FieldsOnly [R.IMG_FUSE_STAT_LAST_RESULT, R.IMG_FUSE_STAT_SLOT0_PROG, R.IMG_FUSE_STAT_SLOT0_REVOKED, R.IMG_FUSE_STAT_SLOT1_PROG, R.IMG_FUSE_STAT_SLOT1_REVOKED, R.IMG_FUSE_STAT_INJ_FORBID, R.IMG_SVN_FUSE_SVN] s t ∧
        ChangesOnly [.regs, .evq, .sent, .fuses] s t) ∧
    (∀ (s : State),
      s.img.applied = false → s.fuses.hash1 = none → ∃ t, exec (.fuseProgramSlot1) s = .next t ∧
        t.fuses = { s.fuses with hash1 := some (fuseData s) } ∧ t.rd R.IMG_FUSE_STAT_LAST_RESULT = 0 ∧
        t.rd R.IMG_FUSE_STAT_SLOT1_PROG = 1 ∧
        FieldsOnly [R.IMG_FUSE_STAT_LAST_RESULT, R.IMG_FUSE_STAT_SLOT0_PROG, R.IMG_FUSE_STAT_SLOT0_REVOKED, R.IMG_FUSE_STAT_SLOT1_PROG, R.IMG_FUSE_STAT_SLOT1_REVOKED, R.IMG_FUSE_STAT_INJ_FORBID, R.IMG_SVN_FUSE_SVN] s t ∧
        ChangesOnly [.regs, .evq, .sent, .fuses] s t) ∧
    (∀ (s : State),
      s.img.applied = false → s.fuses.hash0.isSome = true → s.fuses.revoked0 = false → s.fuses.hash1.isSome = true →
      s.fuses.revoked1 = false → ∃ t, exec (.fuseRevokeSlot0) s = .next t ∧
        t.fuses = { s.fuses with revoked0 := true } ∧ t.rd R.IMG_FUSE_STAT_LAST_RESULT = 0 ∧
        t.rd R.IMG_FUSE_STAT_SLOT0_REVOKED = 1 ∧
        FieldsOnly [R.IMG_FUSE_STAT_LAST_RESULT, R.IMG_FUSE_STAT_SLOT0_PROG, R.IMG_FUSE_STAT_SLOT0_REVOKED, R.IMG_FUSE_STAT_SLOT1_PROG, R.IMG_FUSE_STAT_SLOT1_REVOKED, R.IMG_FUSE_STAT_INJ_FORBID, R.IMG_SVN_FUSE_SVN] s t ∧
        ChangesOnly [.regs, .evq, .sent, .fuses] s t) ∧
    (∀ (s : State),
      s.img.applied = false → s.fuses.hash0.isSome = true → s.fuses.revoked0 = false → s.fuses.hash1.isSome = true →
      s.fuses.revoked1 = false → ∃ t, exec (.fuseRevokeSlot1) s = .next t ∧
        t.fuses = { s.fuses with revoked1 := true } ∧ t.rd R.IMG_FUSE_STAT_LAST_RESULT = 0 ∧
        t.rd R.IMG_FUSE_STAT_SLOT1_REVOKED = 1 ∧
        FieldsOnly [R.IMG_FUSE_STAT_LAST_RESULT, R.IMG_FUSE_STAT_SLOT0_PROG, R.IMG_FUSE_STAT_SLOT0_REVOKED, R.IMG_FUSE_STAT_SLOT1_PROG, R.IMG_FUSE_STAT_SLOT1_REVOKED, R.IMG_FUSE_STAT_INJ_FORBID, R.IMG_SVN_FUSE_SVN] s t ∧
        ChangesOnly [.regs, .evq, .sent, .fuses] s t) ∧
    (∀ (s : State),
      s.rdb R.IMG_STATUS_CONFIGURED = true → s.fuses.svn < s.rd R.IMG_SVN_IMAGE_SVN →
      ∃ t, exec (.fuseAdvanceSvn) s = .next t ∧
        t.fuses = { s.fuses with svn := s.fuses.svn + 1 } ∧ t.rd R.IMG_FUSE_STAT_LAST_RESULT = 0 ∧
        t.rd R.IMG_SVN_FUSE_SVN = s.fuses.svn + 1 ∧
        FieldsOnly [R.IMG_FUSE_STAT_LAST_RESULT, R.IMG_FUSE_STAT_SLOT0_PROG, R.IMG_FUSE_STAT_SLOT0_REVOKED, R.IMG_FUSE_STAT_SLOT1_PROG, R.IMG_FUSE_STAT_SLOT1_REVOKED, R.IMG_FUSE_STAT_INJ_FORBID, R.IMG_SVN_FUSE_SVN] s t ∧
        ChangesOnly [.regs, .evq, .sent, .fuses] s t) ∧
    (∀ (s : State),
      ∃ t, exec (.fuseBlowInjForbid) s = .next t ∧
        t.fuses = { s.fuses with injForbid := true } ∧ t.rd R.IMG_FUSE_STAT_LAST_RESULT = 0 ∧
        t.rd R.IMG_FUSE_STAT_INJ_FORBID = 1 ∧
        FieldsOnly [R.IMG_FUSE_STAT_LAST_RESULT, R.IMG_FUSE_STAT_SLOT0_PROG, R.IMG_FUSE_STAT_SLOT0_REVOKED, R.IMG_FUSE_STAT_SLOT1_PROG, R.IMG_FUSE_STAT_SLOT1_REVOKED, R.IMG_FUSE_STAT_INJ_FORBID, R.IMG_SVN_FUSE_SVN] s t ∧
        ChangesOnly [.regs, .evq, .sent, .fuses] s t) ∧
    (∀ (s : State),
      s.img.applied = true ∨ s.fuses.hash0.isSome = true → ∃ t, exec (.fuseProgramSlot0) s = .next t ∧
        t.fuses = s.fuses ∧ t.rd R.IMG_FUSE_STAT_LAST_RESULT = 1 ∧ FieldsOnly [R.IMG_FUSE_STAT_LAST_RESULT] s t ∧
        ChangesOnly [.regs, .evq, .sent] s t) ∧
    (∀ (s : State),
      s.img.applied = true ∨ s.fuses.hash1.isSome = true → ∃ t, exec (.fuseProgramSlot1) s = .next t ∧
        t.fuses = s.fuses ∧ t.rd R.IMG_FUSE_STAT_LAST_RESULT = 1 ∧ FieldsOnly [R.IMG_FUSE_STAT_LAST_RESULT] s t ∧
        ChangesOnly [.regs, .evq, .sent] s t) ∧
    (∀ (s : State),
      s.fuses.hash1 = none ∨ s.fuses.revoked1 = true → ∃ t, exec (.fuseRevokeSlot0) s = .next t ∧
        t.fuses = s.fuses ∧ t.rd R.IMG_FUSE_STAT_LAST_RESULT = 1 ∧ FieldsOnly [R.IMG_FUSE_STAT_LAST_RESULT] s t ∧
        ChangesOnly [.regs, .evq, .sent] s t) ∧
    (∀ (s : State),
      s.fuses.hash0 = none ∨ s.fuses.revoked0 = true → ∃ t, exec (.fuseRevokeSlot1) s = .next t ∧
        t.fuses = s.fuses ∧ t.rd R.IMG_FUSE_STAT_LAST_RESULT = 1 ∧ FieldsOnly [R.IMG_FUSE_STAT_LAST_RESULT] s t ∧
        ChangesOnly [.regs, .evq, .sent] s t) ∧
    (∀ (s : State),
      s.rd R.IMG_SVN_IMAGE_SVN ≤ s.fuses.svn → ∃ t, exec (.fuseAdvanceSvn) s = .next t ∧
        t.fuses = s.fuses ∧ t.rd R.IMG_FUSE_STAT_LAST_RESULT = 1 ∧ FieldsOnly [R.IMG_FUSE_STAT_LAST_RESULT] s t ∧
        ChangesOnly [.regs, .evq, .sent] s t)

/-- SINK_FRAME_START on a sink that is up reports the raster's totals, active size and period and keeps the raster; SIGNAL says
whether the sink captures, and a raster outside R396 is not captured. CAPTURE_FRAME_COMPLETE of a sink that captures makes
the frame, with the stamp of its start and the raster's size and format, the newest of its source, in the ring's buffer that
it was written into. SINK_LINK_LOSS clears SIGNAL and GENLOCK; an unplugged source also clears PARTNER and takes the sink to
state 1. AUX_REQUEST with HPD high: a native read answers the DPCD bytes, and an I2C address other than the display's is not
acknowledged. (Derived from R91, R93, R95, R396, R397, R399.) -/
def Obligations.SinkCommands : Prop :=
    (∀ (s : State) (k : Nat) (x : Raster),
      k < 16 → portUp s k = true → ∃ t, exec (.sinkFrameStart k x) s = .next t ∧
        t.rd (R.PORT_SINK_TOTAL_V_TOTAL k) = x.vTotal % 65536 ∧ t.rd (R.PORT_SINK_TOTAL_H_TOTAL k) = x.hTotal % 65536 ∧
        t.rd (R.PORT_SINK_ACTIVE_V_ACTIVE k) = x.vActive % 65536 ∧ t.rd (R.PORT_SINK_ACTIVE_H_ACTIVE k) = x.hActive % 65536 ∧
        t.rd (R.PORT_SINK_PERIOD_PERIOD_NS k) = x.periodNs % 2 ^ 32 ∧ (t.port k).raster = some x ∧
        t.rdb (R.PORT_SINK_FMT_SIGNAL k) = (t.port k).capturing ∧
        (rasterSupported x = false → (t.port k).capturing = false ∧ (t.source (sourceKey 1 k)).filling = none) ∧
        (∀ p, p ≠ k → t.port p = s.port p) ∧
        FieldsOnly ([R.PORT_SINK_TOTAL_V_TOTAL k, R.PORT_SINK_TOTAL_H_TOTAL k, R.PORT_SINK_ACTIVE_V_ACTIVE k, R.PORT_SINK_ACTIVE_H_ACTIVE k, R.PORT_SINK_PERIOD_PERIOD_NS k, R.PORT_SINK_FMT_SIGNAL k, R.PORT_SINK_FMT_GENLOCK k, R.PORT_SINK_FMT_FORMAT k, R.PORT_SINK_FMT_COLORIMETRY k, R.PORT_SINK_FMT_LIMITED k, R.PORT_SINK_FMT_AUDIO_CH k] ++ (List.range 24).flatMap fun f => [R.CMP_FLUE_DSTAT_HONOURED f, R.CMP_FLUE_DSTAT_LAYER f, R.CMP_FLUE_DSTAT_ERR_NS f]) s t ∧
        ChangesOnly [.regs, .evq, .sent, .ports, .comp] s t) ∧
    (∀ (s : State) (k stamp : Nat) (px : List Byte) (x : Raster),
      k < 16 → portUp s k = true → (s.source (sourceKey 1 k)).filling = some stamp → (s.port k).raster = some x →
      ∃ t, exec (.captureFrameComplete k px) s = .next t ∧
        (t.source (sourceKey 1 k)).newest = some { serial := s.comp.serial, stamp := stamp, w := x.hActive, h := x.vActive, fmt := x.fmt, bytes := px } ∧
        (t.source (sourceKey 1 k)).filling = none ∧ (t.source (sourceKey 1 k)).doneNs = s.monoNs ∧
        (t.source (sourceKey 1 k)).ring = (s.source (sourceKey 1 k)).ring.set (s.source (sourceKey 1 k)).writing s.comp.serial ∧
        t.comp.serial = s.comp.serial + 1 ∧ ChangesOnly [.regs, .evq, .sent, .comp, .chk] s t) ∧
    (∀ (s : State) (k : Nat),
      k < 16 → portUp s k = true → ∃ t, exec (.sinkLinkLoss k 2) s = .next t ∧
        t.rdb (R.PORT_SINK_FMT_SIGNAL k) = false ∧ t.rdb (R.PORT_SINK_FMT_GENLOCK k) = false ∧ (t.port k).capturing = false ∧
        FieldsOnly [R.PORT_SINK_FMT_SIGNAL k, R.PORT_SINK_FMT_GENLOCK k] s t ∧
        ChangesOnly [.regs, .evq, .sent, .comp, .ports] s t) ∧
    (∀ (s : State) (k : Nat),
      k < 16 → portUp s k = true → ∃ t, exec (.sinkLinkLoss k 0) s = .next t ∧
        t.rdb (R.PORT_SINK_FMT_SIGNAL k) = false ∧ t.rdb (R.PORT_SINK_FMT_GENLOCK k) = false ∧
        t.rdb (R.PORT_STATUS_PARTNER k) = false ∧ t.rd (R.PORT_STATUS_STATE k) = 1 ∧
        ChangesOnly [.regs, .evq, .sent, .comp, .ports, .lanes] s t) ∧
    (∀ (s : State) (k : Nat) (q : AuxRequest),
      k < 16 → (s.port k).hpd = true → q.i2c = false → q.write = false → ∃ t, exec (.auxRequest k q) s = .next t ∧
        Sent.auxReply k true ((span q.addr q.len).map (dpcdByte s k)) ∈ t.sent ∧ FieldsOnly [] s t ∧
        ChangesOnly [.regs, .evq, .sent] s t) ∧
    (∀ (s : State) (k : Nat) (q : AuxRequest),
      k < 16 → (s.port k).hpd = true → q.i2c = true → q.addr ≠ 0x50 → q.addr ≠ 0x30 →
      ∃ t, exec (.auxRequest k q) s = .next t ∧
        Sent.auxReply k false [] ∈ t.sent ∧ FieldsOnly [] s t ∧ ChangesOnly [.regs, .evq, .sent] s t)

/-- RTP_PACKET_RECEIVED of a packet that belongs to the reel takes its SSRC where none was taken, extends its sequence number
and ends the silence. ACCESS_UNIT_JB_EXPIRY leaves no access unit collecting whose jitter time has passed. DEC_SILENT on a
reel that is up and has accepted no packet for LOSS_MS sets SILENT. RTCP_SR_RECEIVED keeps the report, its arrival and its
sender. DEC_SR_LOST on a reel that stamps from reports and has had none for the timeout, at least 100 ms, clears MAPPED.
(Derived from R284, R286, R287, R288.) -/
def Obligations.DecodeReceive : Prop :=
    (∀ (s : State) (r : Nat) (p : RtpPacket),
      r < 128 → packetBelongs s r p = true → ∃ t, exec (.rtpPacketReceived r p) s = .next t ∧
        (t.reel r).ssrc = some ((s.reel r).ssrc.getD p.ssrc) ∧
        (t.reel r).highSeq = some (max (extendSeq (s.reel r).highSeq p.seq) ((s.reel r).highSeq.getD (extendSeq (s.reel r).highSeq p.seq))) ∧
        (t.reel r).acceptedNs = s.monoNs ∧ t.rdb (R.REEL_STATUS_SILENT r) = false ∧
        ChangesOnly [.regs, .evq, .sent, .codec, .damper, .ports, .shadow] s t) ∧
    (∀ (s : State) (r : Nat),
      r < 128 → ∃ t, exec (.accessUnitJbExpiry r) s = .next t ∧
        (∀ a ∈ (t.reel r).open_, s.monoNs < a.firstNs + s.rd (R.REEL_JB_JB_US r) * 1000) ∧
        ChangesOnly [.regs, .evq, .sent, .codec, .damper, .ports] s t) ∧
    (∀ (s : State) (r : Nat),
      r < 128 → (s.reel r).up = true → s.rd (R.REEL_JB_LOSS_MS r) ≠ 0 → s.rdb (R.REEL_STATUS_SILENT r) = false →
      (s.reel r).acceptedNs + s.rd (R.REEL_JB_LOSS_MS r) * 1000000 ≤ s.monoNs → ∃ t, exec (.decSilent r) s = .next t ∧
        t.rdb (R.REEL_STATUS_SILENT r) = true ∧ FieldsOnly [R.REEL_STATUS_SILENT r] s t ∧ ChangesOnly [.regs, .evq, .sent] s t) ∧
    (∀ (s : State) (r ntp rtp addr udp : Nat),
      r < 128 → (s.reel r).up = true → ∃ t, exec (.rtcpSrReceived r ntp rtp addr udp) s = .next t ∧
        (t.reel r).sr = some (ntp, rtp, s.monoNs) ∧ (t.reel r).srFrom = (addr, udp) ∧ (t.reel r).srLost = false ∧
        (∀ q, q ≠ r → t.reel q = s.reel q) ∧ FieldsOnly [R.REEL_STATUS_MAPPED r] s t ∧
        ChangesOnly [.regs, .evq, .sent, .codec] s t) ∧
    (∀ (s : State) (r : Nat),
      r < 128 → (s.reel r).up = true → s.rdb (R.REEL_CFG_STAMP r) = true → (s.reel r).srLost = false →
      (match (s.reel r).sr with | none => (s.reel r).upNs | some x => x.2.2) + max 1 (s.rd (R.REEL_SR_TIMEOUT_100MS r)) * 100000000 ≤ s.monoNs →
      ∃ t, exec (.decSrLost r) s = .next t ∧
        t.reel r = { s.reel r with srLost := true } ∧ t.rdb (R.REEL_STATUS_MAPPED r) = false ∧
        FieldsOnly [R.REEL_STATUS_MAPPED r] s t ∧ ChangesOnly [.regs, .evq, .sent, .codec] s t)

/-- DECODE_PICTURE_DONE of an engine at work on an access unit of which a block decodes, with nothing else ready, counts the
picture and the NAL units that break the syntax, reports the unit's stamp, keeps the picture as the reel's last, and frees
the engine. DEC_ENGINE_RESET of an engine that has worked on one access unit for 50 ms, with nothing else ready, frees it
and counts the picture dropped. FIR_TIMER in a damage episode sends a FIR and takes the next sequence number. RTCP_RR_TIMER
five seconds after the last receiver report begins the next interval. (Derived from R279, R283, R298, R408.) -/
def Obligations.DecodeEngines : Prop :=
    (∀ (s : State) (v : Nat) (p : Picture) (a : AccessUnit) (i : AuInfo),
      v < 24 → (s.engine v).busy = true → (s.engine v).au = some a → a.info = some i → (s.engine v).reel < 128 →
      decodedBlocks (a.nals (s.rd (R.REEL_CFG_CODEC (s.engine v).reel))) p ≠ [] → noJobReady s →
      ∃ t, exec (.decodePictureDone v p) s = .next t ∧
        t.rd (R.REEL_PICS_DECODED (s.engine v).reel) = min (s.rd (R.REEL_PICS_DECODED (s.engine v).reel) + 1) 65535 ∧
        t.rd (R.REEL_LAST_STAMP_WUS (s.engine v).reel) = a.stamp % 2 ^ 32 ∧
        t.rd (R.REEL_ERR_SYNTAX (s.engine v).reel) = min (s.rd (R.REEL_ERR_SYNTAX (s.engine v).reel) + (p.bad.filter fun k => ((a.nals (s.rd (R.REEL_CFG_CODEC (s.engine v).reel)))[k]?).any (·.whole)).length) 65535 ∧
        ((t.reel (s.engine v).reel).last.map Frame.stamp) = some a.stamp ∧
        t.engine v = { s.engine v with busy := false, au := none } ∧
        ChangesOnly [.regs, .evq, .sent, .codec, .comp, .ports, .bytes, .mem] s t) ∧
    (∀ (s : State) (v : Nat),
      v < 24 → (s.engine v).busy = true → (s.engine v).au.isSome = true → (s.engine v).reel < 128 →
      (s.engine v).sinceNs + 50000000 ≤ s.monoNs → noJobReady s → ∃ t, exec (.decEngineReset v) s = .next t ∧
        t.engine v = { s.engine v with busy := false, au := none } ∧
        t.rd (R.REEL_PICS_DROPPED (s.engine v).reel) = min (s.rd (R.REEL_PICS_DROPPED (s.engine v).reel) + 1) 65535 ∧
        FieldsOnly [R.REEL_PICS_DROPPED (s.engine v).reel] s t ∧ ChangesOnly [.regs, .evq, .sent, .codec] s t) ∧
    (∀ (s : State) (r e : Nat),
      r < 128 → (s.reel r).episode = some e → s.rdb (R.REEL_KEYREQ_FIR_EN r) = true → s.rd (R.REEL_CFG_CODEC r) ≠ 2 →
      (s.reel r).sr.isSome = true → (s.reel r).firNs.getD e + max 1 (s.rd (R.REEL_KEYREQ_FIR_MS r)) * 1000000 ≤ s.monoNs →
      ∃ t, exec (.firTimer r) s = .next t ∧
        t.reel r = { s.reel r with firNs := some s.monoNs, firSeq := ((s.reel r).firSeq + 1) % 256 } ∧
        ChangesOnly [.regs, .evq, .sent, .codec, .ports] s t) ∧
    (∀ (s : State) (r : Nat),
      r < 128 → (s.reel r).up = true → (s.reel r).sr.isSome = true → (s.reel r).rrNs + 5000000000 ≤ s.monoNs →
      ∃ t, exec (.rtcpRrTimer r) s = .next t ∧
        t.reel r = { s.reel r with rrNs := s.monoNs } ∧ ChangesOnly [.regs, .evq, .sent, .codec, .ports] s t)

/-- ENC_IDR_REQ asks for an IDR picture and changes nothing else. RTCP_FEEDBACK_RECEIVED does so for a reel that is up and sends
RTP. ENC_SR_TIMER one second after the last sender report begins the next interval. ENCODE_FRAME_DONE of an engine at work
on a frame counts the frame of its reel. (Derived from R317, R318, R320.) -/
def Obligations.EncodeCommands : Prop :=
    (∀ (s : State) (e : Nat),
      e < 128 → ∃ t, exec (.encIdrReq e) s = .next t ∧
        t.enc e = { s.enc e with idrReq := true } ∧ (∀ q, q ≠ e → t.enc q = s.enc q) ∧ FieldsOnly [] s t ∧
        ChangesOnly [.regs, .evq, .sent, .codec] s t) ∧
    (∀ (s : State) (e : Nat),
      e < 128 → (s.enc e).up = true → s.rdb (R.ENC_NET_RTP_EN e) = true → ∃ t, exec (.rtcpFeedbackReceived e) s = .next t ∧
        t.enc e = { s.enc e with idrReq := true } ∧ (∀ q, q ≠ e → t.enc q = s.enc q) ∧ FieldsOnly [] s t ∧
        ChangesOnly [.regs, .evq, .sent, .codec] s t) ∧
    (∀ (s : State) (e : Nat),
      e < 128 → (s.enc e).up = true → s.rdb (R.ENC_NET_RTP_EN e) = true → (s.enc e).srNs + 1000000000 ≤ s.monoNs →
      ∃ t, exec (.encSrTimer e) s = .next t ∧
        t.enc e = { s.enc e with srNs := s.monoNs } ∧ (∀ q, q ≠ e → t.enc q = s.enc q) ∧
        ChangesOnly [.regs, .evq, .sent, .codec, .ports] s t) ∧
    (∀ (s : State) (v : Nat) (x : Coded) (fr : EncFrame),
      v < 24 → (s.engine v).busy = true → (s.engine v).enc = some fr → (s.engine v).reel < 128 →
      ∃ t, exec (.encodeFrameDone v x) s = .next t ∧
        t.rd (R.ENC_FRAMES_ENCODED (s.engine v).reel) = min (s.rd (R.ENC_FRAMES_ENCODED (s.engine v).reel) + 1) 65535 ∧
        ChangesOnly [.regs, .evq, .sent, .codec, .ports, .bytes, .mem, .free] s t)

/-- ACCESS_CHECK of an access to DRAM splits it into its lines, and where each is permitted makes every line outstanding with
the epoch of its check and changes nothing else; a permitted SRAM write of one line stores its bytes; a permitted read of
one word of the aperture answers the register, through BAR0 for the PCIe endpoint; a refused write of one line counts a
violation. Of a source whose oldest access the matrix and the channel's controller serve now: DRAM_WRITE to a line without
errors stores exactly its bytes, and DRAM_READ of one answers its 64 bytes, with the queued writes of the line over them,
and changes no byte of memory; either takes the access out of those outstanding. SCRUB_READ, enabled and not deferred, goes
on to the channel's next line and stores nothing. (Derived from R217, R329, R330, R333, R335, R353, R354, R357.) -/
def Obligations.HearthAccesses : Prop :=
    (∀ (s : State) (x : Access) (colour : Bool),
      x.src < 161 → x.addr < 2 ^ 39 → (if x.write then x.bytes ≠ [] else x.len ≠ 0) → isFenced s x.src = false →
      (∀ l ∈ accessLines x, l.addr < 2 ^ 38 ∧ checkAccess s l.src l.write l.addr = .permitted colour) →
      ∃ t, exec (.accessCheck x) s = .next t ∧
        t.mem = { s.mem with outstanding := s.mem.outstanding ++ (accessLines x).map fun l => { access := l, epoch := s.rd (R.MPU_EPOCH_EPOCH 0), colour := colour, sinceNs := s.monoNs } } ∧
        FieldsOnly [] s t ∧ ChangesOnly [.regs, .evq, .sent, .mem] s t) ∧
    (∀ (s : State) (x : Access) (colour : Bool),
      x.src < 161 → 2 ^ 38 ≤ x.addr → x.addr < 0x4010000000 → accessLines x = [x] → x.write = true → x.bytes ≠ [] →
      isFenced s x.src = false → checkAccess s x.src x.write x.addr = .permitted colour →
      ∃ t, exec (.accessCheck x) s = .next t ∧
        t.mem.bytes = storeCells s.mem.bytes x.addr x.bytes ∧ ChangesOnly [.regs, .evq, .sent, .bytes, .mem, .chk] s t) ∧
    (∀ (s : State) (src w : Nat) (colour : Bool),
      src < 161 → w < 0x400000 → isFenced s src = false → checkAccess s src false (0x4010000000 + 4 * w) = .permitted colour →
      ∃ t, exec (.accessCheck { src := src, addr := 0x4010000000 + 4 * w, write := false, bytes := [], len := 4 }) s = .next t ∧
        Sent.readData src (0x4010000000 + 4 * w) (leBytes 4 (readReg (src == 152) (4 * w) s)) false ∈ t.sent ∧
        FieldsOnly [] s t ∧ ChangesOnly [.regs, .evq, .sent] s t) ∧
    (∀ (s : State) (x : Access) (kind region : Nat),
      x.src < 161 → x.addr < 2 ^ 39 → accessLines x = [x] → x.write = true → x.bytes ≠ [] → isFenced s x.src = false →
      checkAccess s x.src x.write x.addr = .refused kind region → ∃ t, exec (.accessCheck x) s = .next t ∧
        t.rd (R.MPU_VIOL_COUNT_COUNT (unitOf x.addr).1) = min (s.rd (R.MPU_VIOL_COUNT_COUNT (unitOf x.addr).1) + 1) (2 ^ 32 - 1) ∧
        ChangesOnly [.regs, .evq, .sent] s t) ∧
    (∀ (s : State) (src : Nat) (o : Outstanding) (u : State),
      src < 161 → takeServed src true s = (some o, u) → o.colour = false → s.line (o.access.addr / 64) = {} →
      s.power.diesLost = [] → ∃ t, exec (.dramWrite src 0 0) s = .next t ∧
        t.mem.bytes = storeCells s.mem.bytes o.access.addr o.access.bytes ∧ t.mem.outstanding = u.mem.outstanding ∧
        ChangesOnly [.regs, .evq, .sent, .bytes, .mem, .chk] s t) ∧
    (∀ (s : State) (src : Nat) (o : Outstanding) (u : State),
      src < 161 → takeServed src false s = (some o, u) → o.colour = false → s.line (o.access.addr / 64) = {} →
      s.power.diesLost = [] → ∃ t, exec (.dramRead src 0 0) s = .next t ∧
        Sent.readData src o.access.addr (overQueued u o.access.addr (s.memRead (o.access.addr / 64 * 64) 64)).1 false ∈ t.sent ∧
        t.mem.outstanding = u.mem.outstanding ∧ ChangesOnly [.regs, .evq, .sent, .mem, .chk] s t) ∧
    (∀ (s : State) (c f0 f1 : Nat),
      c < 24 → s.rdb R.HRT_SCRUB_ENABLE = true → bitOf (s.rd R.HRT_CFG_FITTED) c = true →
      s.tick.current.any (·.deferScrub) = false → ∃ t, exec (.scrubRead c f0 f1) s = .next t ∧
        (t.chan c).scrubLine = (if dataLines s c ≤ (s.chan c).scrubLine + 1 then 0 else (s.chan c).scrubLine + 1) ∧
        ChangesOnly [.regs, .evq, .sent, .mem, .comp, .faults, .power] s t)

/-- MTX_FENCE of a source without one raises its fence; FENCE_COMPLETE with none of its accesses outstanding lowers it and
answers the source. MTX_LINK_ERR before the 16th failure counts a resend, and at it drops the access, counts it and answers
a read with poison. MPU_UPD_GO of an unlocked region while no update is pending puts the staged region in force in a new
epoch and waits for the older accesses; while one is pending it sets BUSY_HIT; a locked region sets REFUSED_LOCKED; an end
below the start sets BAD_RANGE. MPU_DRAINED of the last drain clears PENDING. (Derived from R337, R355, R356, R363, R364,
R365.) -/
def Obligations.FencesAndProtection : Prop :=
    (∀ (s : State) (src : Nat),
      src < 161 → isFenced s src = false → ∃ t, exec (.mtxFence src) s = .next t ∧
        t.mem = { s.mem with fences := s.mem.fences ++ [src] } ∧ FieldsOnly [] s t ∧
        ChangesOnly [.regs, .evq, .sent, .mem] s t) ∧
    (∀ (s : State) (src : Nat),
      src < 161 → isFenced s src = true → s.mem.outstanding.any (fun o => o.access.src == src) = false →
      ∃ t, exec (.fenceComplete src) s = .next t ∧
        t.mem = { s.mem with fences := s.mem.fences.filter (· ≠ src) } ∧ Sent.fenceDone src ∈ t.sent ∧ FieldsOnly [] s t ∧
        ChangesOnly [.regs, .evq, .sent, .mem] s t) ∧
    (∀ (s : State) (k n src a : Nat) (wr : Bool),
      k < 3 → src < 161 → n < 15 → ∃ t, exec (.mtxLinkErr k n src a wr) s = .next t ∧
        t.mem.resends.get (fun _ => 0) k = s.mem.resends.get (fun _ => 0) k + 1 ∧ t.mem.outstanding = s.mem.outstanding ∧
        FieldsOnly [] s t ∧ ChangesOnly [.regs, .evq, .sent, .mem] s t) ∧
    (∀ (s : State) (k n src a : Nat),
      k < 3 → src < 161 → 15 ≤ n → ∃ t, exec (.mtxLinkErr k n src a false) s = .next t ∧
        t.rd (R.MTX_LINK_STAT_DROPPED k) = min (s.rd (R.MTX_LINK_STAT_DROPPED k) + 1) 65535 ∧
        Sent.readData src a (List.replicate 64 0) true ∈ t.sent ∧ FieldsOnly [R.MTX_LINK_STAT_DROPPED k] s t ∧
        ChangesOnly [.regs, .evq, .sent, .mem] s t) ∧
    (∀ (s : State) (u i : Nat),
      u < 3 → i < 256 → s.rdb (R.MPU_UPD_STAT_PENDING u) = false → s.rdb (R.MPU_RGN_CTRL_LOCK u i) = false →
      s.rd (R.MPU_UPD_START_VALUE u) ≤ s.rd (R.MPU_UPD_END_VALUE u) → ∃ t, exec (.mpuUpdGo u i) s = .next t ∧
        t.rd (R.MPU_RGN_START_LINE u i) = s.rd (R.MPU_UPD_START_VALUE u) ∧
        t.rd (R.MPU_RGN_END_LINE u i) = s.rd (R.MPU_UPD_END_VALUE u) ∧
        t.rd (R.MPU_RGN_PERM_RIGHTS u i) = s.rd (R.MPU_UPD_PERM_VALUE u) % 2 ^ 18 ∧
        t.rd (R.MPU_RGN_CTRL_ENABLE u i) = bits (s.rd (R.MPU_UPD_CTRL_VALUE u)) 31 31 ∧
        t.rd (R.MPU_RGN_CTRL_LOCK u i) = bits (s.rd (R.MPU_UPD_CTRL_VALUE u)) 30 30 ∧
        t.rd (R.MPU_RGN_CTRL_COLOUR u i) = bits (s.rd (R.MPU_UPD_CTRL_VALUE u)) 8 0 ∧
        t.rd (R.MPU_EPOCH_EPOCH u) = (s.rd (R.MPU_EPOCH_EPOCH u) + 1) % 65536 ∧ t.rdb (R.MPU_UPD_STAT_PENDING u) = true ∧
        t.rd (R.MPU_UPD_GO_INDEX u) = i ∧
        FieldsOnly [R.MPU_RGN_START_LINE u i, R.MPU_RGN_END_LINE u i, R.MPU_RGN_PERM_RIGHTS u i, R.MPU_RGN_CTRL_ENABLE u i, R.MPU_RGN_CTRL_LOCK u i, R.MPU_RGN_CTRL_COLOUR u i, R.MPU_EPOCH_EPOCH u, R.MPU_UPD_STAT_PENDING u, R.MPU_UPD_GO_INDEX u] s t ∧
        ChangesOnly [.regs, .evq, .sent, .mem] s t) ∧
    (∀ (s : State) (u i : Nat),
      u < 3 → i < 256 → s.rdb (R.MPU_UPD_STAT_PENDING u) = true → ∃ t, exec (.mpuUpdGo u i) s = .next t ∧
        t.rdb (R.MPU_UPD_STAT_BUSY_HIT u) = true ∧ FieldsOnly [R.MPU_UPD_STAT_BUSY_HIT u, R.MPU_UPD_GO_INDEX u] s t ∧
        ChangesOnly [.regs, .evq, .sent] s t) ∧
    (∀ (s : State) (u i : Nat),
      u < 3 → i < 256 → s.rdb (R.MPU_UPD_STAT_PENDING u) = false → s.rdb (R.MPU_RGN_CTRL_LOCK u i) = true →
      ∃ t, exec (.mpuUpdGo u i) s = .next t ∧
        t.rdb (R.MPU_UPD_STAT_REFUSED_LOCKED u) = true ∧
        FieldsOnly [R.MPU_UPD_STAT_REFUSED_LOCKED u, R.MPU_UPD_GO_INDEX u] s t ∧ ChangesOnly [.regs, .evq, .sent] s t) ∧
    (∀ (s : State) (u i : Nat),
      u < 3 → i < 256 → s.rdb (R.MPU_UPD_STAT_PENDING u) = false → s.rdb (R.MPU_RGN_CTRL_LOCK u i) = false →
      s.rd (R.MPU_UPD_END_VALUE u) < s.rd (R.MPU_UPD_START_VALUE u) → ∃ t, exec (.mpuUpdGo u i) s = .next t ∧
        t.rdb (R.MPU_UPD_STAT_BAD_RANGE u) = true ∧ FieldsOnly [R.MPU_UPD_STAT_BAD_RANGE u, R.MPU_UPD_GO_INDEX u] s t ∧
        ChangesOnly [.regs, .evq, .sent] s t) ∧
    (∀ (s : State) (u : Nat) (d : Drain),
      u < 3 → s.mem.drains = [d] → d.unit = u → s.mem.outstanding.any (holdsDrain d) = false → s.img.reloaded = none →
      ∃ t, exec (.mpuDrained u) s = .next t ∧
        t.mem = { s.mem with drains := [] } ∧ t.rdb (R.MPU_UPD_STAT_PENDING u) = false ∧
        t.rd (R.MPU_UPD_STAT_DRAIN_US u) = min ((s.monoNs - d.goNs) / 1000) 65535 ∧
        FieldsOnly [R.MPU_UPD_STAT_PENDING u, R.MPU_UPD_STAT_DRAIN_US u] s t ∧ ChangesOnly [.regs, .evq, .sent, .mem] s t)

/-- REFRESH_INTERVAL on a trained channel, with no port in panic and no request queued to it, owes every bank nothing.
FORCED_REFRESH on a channel that owes a bank 8 refreshes counts itself and takes one from each bank's debt. MR4_POLL reports
the derating and keeps the drift. ZQ_LATCH goes out to the channel. HRT_PANIC at a fill at or past PANIC_FILL of a calm port
sets PANIC and counts it, and two sixteenths back clears it. TRAIN_WINDOW_OPEN opens the window of the due channel.
RETRAIN_STEP_DONE closes the window: a failed step counts, a good one goes on to the next. (Derived from R338, R339, R340,
R341, R344.) -/
def Obligations.ChannelCommands : Prop :=
    (∀ (s : State) (c : Nat) (l : List Nat),
      c < 24 → s.rd (R.HRT_CH_STAT_STATE c) = 2 → ((List.range 64).any fun p => s.rdb (R.HRT_RT_PORT_PANIC p)) = false →
      banksWanted s c false = [] → ∃ t, exec (.refreshInterval c l) s = .next t ∧
        owedOf t c = List.replicate 16 0 ∧ t.rd (R.HRT_CH_STAT_OWED c) = 0 ∧ FieldsOnly [R.HRT_CH_STAT_OWED c] s t ∧
        ChangesOnly [.regs, .evq, .sent, .mem] s t) ∧
    (∀ (s : State) (c : Nat),
      c < 24 → s.rd (R.HRT_CH_STAT_STATE c) = 2 → (owedOf s c).any (fun n => decide (8 ≤ n)) = true →
      ∃ t, exec (.forcedRefresh c) s = .next t ∧
        t.rd (R.HRT_CH_STAT_FORCED c) = min (s.rd (R.HRT_CH_STAT_FORCED c) + 1) 65535 ∧
        owedOf t c = (owedOf s c).map (· - 1) ∧ FieldsOnly [R.HRT_CH_STAT_FORCED c, R.HRT_CH_STAT_OWED c] s t ∧
        ChangesOnly [.regs, .evq, .sent, .mem] s t) ∧
    (∀ (s : State) (c code ps : Nat) (hot : Bool),
      c < 24 → code < 3 → s.rd (R.HRT_CH_STAT_STATE c) = 2 ∨ s.rd (R.HRT_CH_STAT_STATE c) = 4 →
      ∃ t, exec (.mr4Poll c code ps hot) s = .next t ∧
        t.rd (R.HRT_CH_STAT_DERATE c) = (if hot then 3 else code) ∧ t.chan c = { s.chan c with hot := hot, driftPs := ps } ∧
        FieldsOnly [R.HRT_CH_STAT_DERATE c] s t ∧ ChangesOnly [.regs, .evq, .sent, .mem] s t) ∧
    (∀ (s : State) (c : Nat),
      c < 24 → s.rd (R.HRT_CH_STAT_STATE c) = 2 ∨ s.rd (R.HRT_CH_STAT_STATE c) = 4 → ∃ t, exec (.zqLatch c) s = .next t ∧
        Sent.zqLatch c ∈ t.sent ∧ FieldsOnly [] s t ∧ ChangesOnly [.regs, .evq, .sent] s t) ∧
    (∀ (s : State) (p fill : Nat),
      p < 64 → fill ≤ (if p < 40 then 65536 else 16384) → s.rdb (R.HRT_RT_PORT_PANIC p) = false →
      (if rtReader p then decide (16 * fill ≤ panicFill s p * rtCapacity p) else decide (panicFill s p * rtCapacity p ≤ 16 * fill)) = true →
      ∃ t, exec (.hrtPanic p fill) s = .next t ∧
        t.rdb (R.HRT_RT_PORT_PANIC p) = true ∧ t.rd (R.HRT_RT_PORT_COUNT p) = min (s.rd (R.HRT_RT_PORT_COUNT p) + 1) 255 ∧
        t.mem.rtFill.get (fun _ => 0) p = fill ∧ FieldsOnly [R.HRT_RT_PORT_PANIC p, R.HRT_RT_PORT_COUNT p] s t ∧
        ChangesOnly [.regs, .evq, .sent, .mem] s t) ∧
    (∀ (s : State) (p fill : Nat),
      p < 64 → fill ≤ (if p < 40 then 65536 else 16384) → s.rdb (R.HRT_RT_PORT_PANIC p) = true →
      (if rtReader p then decide ((panicFill s p + 2) * rtCapacity p ≤ 16 * fill) else decide (16 * fill ≤ (panicFill s p - 2) * rtCapacity p)) = true →
      ∃ t, exec (.hrtPanic p fill) s = .next t ∧
        t.rdb (R.HRT_RT_PORT_PANIC p) = false ∧ t.mem.rtFill.get (fun _ => 0) p = fill ∧
        FieldsOnly [R.HRT_RT_PORT_PANIC p] s t ∧ ChangesOnly [.regs, .evq, .sent, .mem] s t) ∧
    (∀ (s : State) (c : Nat),
      s.rdb R.TICK_STATUS_RUN = true → s.rdb R.DMP_STATUS_EMERGENCY = false →
      ((List.range 64).all fun p => !s.rdb (R.HRT_RT_PORT_PANIC p)) = true → s.mem.rtFill = [] →
      ((List.range 24).any fun f => scanningHeld s f) = false → s.mem.windowThisTick = false → s.mem.window = none →
      s.tick.lastEdgeNs + 1000 * s.rd R.HRT_TRAIN_AT_US ≤ s.nowNs → windowChannel s = some c →
      ∃ t, exec (.trainWindowOpen) s = .next t ∧
        t.rd (R.HRT_CH_STAT_STATE c) = 4 ∧ t.mem = { s.mem with window := some c, windowThisTick := true } ∧
        FieldsOnly [R.HRT_CH_STAT_STATE c] s t ∧ ChangesOnly [.regs, .evq, .sent, .mem] s t) ∧
    (∀ (s : State) (c : Nat),
      s.mem.window = some c → c < 24 → (s.chan c).trainStep < 2 → ∃ t, exec (.retrainStepDone true) s = .next t ∧
        t.rd (R.HRT_CH_STAT_STATE c) = 2 ∧ t.mem.window = none ∧
        t.chan c = { s.chan c with trainStep := (s.chan c).trainStep + 1 } ∧ FieldsOnly [R.HRT_CH_STAT_STATE c] s t ∧
        ChangesOnly [.regs, .evq, .sent, .mem] s t) ∧
    (∀ (s : State) (c : Nat),
      s.mem.window = some c → c < 24 → (s.chan c).trainStep = 2 → ∃ t, exec (.retrainStepDone true) s = .next t ∧
        t.rd (R.HRT_CH_STAT_STATE c) = 2 ∧ t.mem.window = none ∧
        t.chan c = { s.chan c with trainStep := 0, driftPs := 0, trainedNs := s.monoNs } ∧
        FieldsOnly [R.HRT_CH_STAT_STATE c, R.HRT_CH_TRAIN_TEMP_C c] s t ∧ ChangesOnly [.regs, .evq, .sent, .mem] s t) ∧
    (∀ (s : State) (c : Nat),
      s.mem.window = some c → c < 24 → ∃ t, exec (.retrainStepDone false) s = .next t ∧
        t.rd (R.HRT_CH_STAT_STATE c) = 2 ∧ t.mem.window = none ∧
        t.rd (R.HRT_CH_TRAIN_FAILS c) = min (s.rd (R.HRT_CH_TRAIN_FAILS c) + 1) 255 ∧
        FieldsOnly [R.HRT_CH_STAT_STATE c, R.HRT_CH_TRAIN_FAILS c] s t ∧ ChangesOnly [.regs, .evq, .sent, .mem] s t)

/-- TRAINING_BLOCK_RECEIVED of a valid READY block in the blind rate counts it. PLL_RELOCK_DONE with both directions switched
takes the lane from state 4 to 5. LANE_TRAINING_BLOCK with a preset request sets the four taps. ADAPTATION_DONE of a lane of
a standard port reports the receiver's settings and keeps them. STEP_TX_SWITCH switches the transmitter to the target rate;
STEP_RX_TIMEOUT 2.048 µs after the first STEP block switches the receiver. LANE_TRAIN_TIMEOUT 6 ms after the switch begins
the next attempt on every lane of the port. LANE_RETRY_RESTART after RETRY_S sends SEEK again from every lane in the blind
rate. (Derived from R371, R376, R378, R379, R380.) -/
def Obligations.LaneTraining : Prop :=
    (∀ (s : State) (n p : Nat) (c : List Byte),
      n < 128 → lanePort s n = some p → 49 ≤ p → laneState s n = 3 → validBlock c = true → (c.getD 3 0).toNat = 2 →
      (s.port p).failNs = none → ∃ t, exec (.trainingBlockReceived n c) s = .next t ∧
        (t.lane n).valid = (s.lane n).valid + 1 ∧ (t.lane n).readyRun = (s.lane n).readyRun + 1 ∧
        (t.lane n).peerMax = (c.getD 4 0).toNat ∧ ChangesOnly [.regs, .evq, .sent, .lanes] s t) ∧
    (∀ (s : State) (n : Nat),
      n < 128 → laneState s n = 4 → (s.lane n).txAt = true → (s.lane n).rxAt = true →
      ∃ t, exec (.pllRelockDone n) s = .next t ∧
        t.rd (R.LANE_STATUS_STATE n) = 5 ∧ t.lane n = { s.lane n with sending := 5, readyIn := false, presetReq := 0 } ∧
        FieldsOnly [R.LANE_STATUS_STATE n] s t ∧ ChangesOnly [.regs, .evq, .sent, .lanes] s t) ∧
    (∀ (s : State) (n : Nat) (b : List Byte),
      n < 128 → laneState s n = 5 → b.length = 7 → b.getD 5 0 = 0 → b.getD 6 0 = xorAll (b.take 6) → (b.getD 1 0).toNat < 8 →
      b.getD 0 0 ≠ 4 → b.getD 0 0 ≠ 2 → ∃ t, exec (.laneTrainingBlock n b) s = .next t ∧
        t.rd (R.LANE_TXEQ_PRESET n) = (b.getD 1 0).toNat ∧ t.rd (R.LANE_TXEQ_PRE n) = (presetTaps (b.getD 1 0).toNat).1 ∧
        t.rd (R.LANE_TXEQ_POST n) = (presetTaps (b.getD 1 0).toNat).2 ∧
        t.rd (R.LANE_TXEQ_MAIN n) = 63 - (presetTaps (b.getD 1 0).toNat).1 - (presetTaps (b.getD 1 0).toNat).2 ∧
        FieldsOnly [R.LANE_TXEQ_PRESET n, R.LANE_TXEQ_PRE n, R.LANE_TXEQ_POST n, R.LANE_TXEQ_MAIN n] s t ∧
        ChangesOnly [.regs, .evq, .sent] s t) ∧
    (∀ (s : State) (n pk q e : Nat) (a : Adapt),
      n < 128 → a.peakEyes.length = 16 → a.sweepEyes.length = 4 → a.dfe.length = 5 → a.dcGain < 8 → laneState s n = 8 →
      adaptChoice (decide (s.rd (R.LANE_CFG_PORT n) < 16)) a = (pk, q, e) → ∃ t, exec (.adaptationDone n a) s = .next t ∧
        t.rd (R.LANE_RXEQ_PEAK n) = pk % 16 ∧ t.rd (R.LANE_RXEQ_DC_GAIN n) = a.dcGain ∧
        t.rd (R.LANE_STATUS_EYE n) = min e 255 ∧ (t.lane n).adapted = true ∧ (t.lane n).presetReq = q ∧
        FieldsOnly [R.LANE_RXEQ_PEAK n, R.LANE_RXEQ_DC_GAIN n, R.LANE_RXEQ_DFE1 n, R.LANE_DFE_DFE2 n, R.LANE_DFE_DFE3 n, R.LANE_DFE_DFE4 n, R.LANE_DFE_DFE5 n, R.LANE_STATUS_EYE n] s t ∧
        ChangesOnly [.regs, .evq, .sent, .lanes] s t) ∧
    (∀ (s : State) (n : Nat),
      n < 128 → laneState s n = 4 → (s.lane n).txAt = false → ∃ t, exec (.stepTxSwitch n) s = .next t ∧
        (t.lane n).txAt = true ∧ t.rd (R.LANE_STATUS_RATE n) = (s.lane n).target % 16 ∧
        FieldsOnly [R.LANE_STATUS_RATE n] s t ∧ ChangesOnly [.regs, .evq, .sent, .lanes, .ports] s t) ∧
    (∀ (s : State) (n a : Nat),
      n < 128 → laneState s n = 4 → (s.lane n).firstStepNs = some a → a + 2048 ≤ s.monoNs →
      ∃ t, exec (.stepRxTimeout n) s = .next t ∧
        t.lane n = { s.lane n with rxAt := true } ∧ (∀ m, m ≠ n → t.lane m = s.lane m) ∧ FieldsOnly [] s t ∧
        ChangesOnly [.regs, .evq, .sent, .lanes] s t) ∧
    (∀ (s : State) (p n : Nat),
      49 ≤ p → p < 53 → n ∈ lanesOf s p → laneState s n = 4 ∨ laneState s n = 5 → (s.lane n).txAt = true →
      (s.port p).switchNs + 6000000 ≤ s.monoNs → ∃ t, exec (.laneTrainTimeout p) s = .next t ∧
        (∀ m ∈ lanesOf s p, t.rd (R.LANE_STATUS_ATTEMPT m) = ((s.port p).attempt + 1) % 8)) ∧
    (∀ (s : State) (p a : Nat),
      49 ≤ p → p < 53 → (s.port p).failNs = some a → a + max 1 (s.rd R.LANE_TRAIN_CFG_RETRY_S) * 1000000000 ≤ s.monoNs →
      ∃ t, exec (.laneRetryRestart p) s = .next t ∧
        (t.port p).failNs = none ∧ (∀ m ∈ lanesOf s p, laneState s m = 3 → (t.lane m).sending = 1) ∧
        ChangesOnly [.regs, .evq, .sent, .lanes, .ports] s t)

/-- ALIGNMENT_MARKER, the first valid one with the peer's index, is kept with its place. LANE_DESKEW_FAIL three periods after
the lanes came up begins the next attempt. LANE_ALIGN_LOST three periods after the last marker clears ALIGNED and counts it.
LANE_REALIGN_TIMEOUT four periods after that takes the port back to state 1. LANE_DEEP_LP_ENTRY of a lane that nothing wants
rests it in state 1. LANE_WAKE_DONE 40 µs after the wake, of a lane in a test mode, takes it to state 7 and counts the exit.
(Derived from R381, R382, R383.) -/
def Obligations.LaneAlignment : Prop :=
    (∀ (s : State) (n pos ui : Nat) (b : List Byte),
      n < 128 → laneState s n = 6 → 49 ≤ s.rd (R.LANE_CFG_PORT n) → s.rd (R.LANE_CFG_PORT n) < 53 → validMarker b = true →
      (b.getD 1 0).toNat = s.rd (R.LANE_SKEW_PEER_INDEX n) → (s.lane n).marker = none →
      ∃ t, exec (.alignmentMarker n b pos ui) s = .next t ∧
        t.lane n = { s.lane n with marker := some (pos, ui), markNs := s.monoNs } ∧ FieldsOnly [] s t ∧
        ChangesOnly [.regs, .evq, .sent, .lanes] s t) ∧
    (∀ (s : State) (p n : Nat),
      49 ≤ p → p < 53 → (s.port p).deskewed = false → n ∈ lanesOf s p → laneState s n = 6 →
      s.rdb (R.LANE_STATUS_ALIGNED n) = false → periodsPassed s (s.rd (R.LANE_STATUS_RATE n)) 3 (s.lane n).upNs = true →
      ∃ t, exec (.laneDeskewFail p) s = .next t ∧
        (∀ m ∈ lanesOf s p, t.rd (R.LANE_STATUS_ATTEMPT m) = ((s.port p).attempt + 1) % 8)) ∧
    (∀ (s : State) (n : Nat),
      n < 128 → laneState s n = 6 → s.rdb (R.LANE_STATUS_ALIGNED n) = true →
      periodsPassed s (s.rd (R.LANE_STATUS_RATE n)) 3 (s.lane n).markNs = true → ∃ t, exec (.laneAlignLost n) s = .next t ∧
        t.rdb (R.LANE_STATUS_ALIGNED n) = false ∧
        t.rd (R.LANE_COUNTS_ALIGN_LOST n) = min (s.rd (R.LANE_COUNTS_ALIGN_LOST n) + 1) 255 ∧
        t.lane n = { s.lane n with marker := none, lostNs := some s.monoNs } ∧
        FieldsOnly [R.LANE_STATUS_ALIGNED n, R.LANE_COUNTS_ALIGN_LOST n] s t ∧ ChangesOnly [.regs, .evq, .sent, .lanes] s t) ∧
    (∀ (s : State) (n a p : Nat),
      n < 128 → (s.lane n).lostNs = some a → lanePort s n = some p → 49 ≤ p → laneState s n = 6 →
      periodsPassed s (s.rd (R.LANE_STATUS_RATE n)) 4 a = true → ∃ t, exec (.laneRealignTimeout n) s = .next t ∧
        t.rd (R.PORT_STATUS_STATE p) = 1 ∧ t.rd (R.PORT_STATUS_RATE p) = 0) ∧
    (∀ (s : State) (n : Nat),
      n < 128 → lanePowered s n = true → laneWanted s n = false → 2 ≤ laneState s n →
      ∃ t, exec (.laneDeepLpEntry n) s = .next t ∧
        t.rd (R.LANE_STATUS_STATE n) = 1 ∧ t.rd (R.LANE_STATUS_RATE n) = 0 ∧ t.rdb (R.LANE_STATUS_LOCK n) = false ∧
        t.rdb (R.LANE_STATUS_ALIGNED n) = false ∧ t.rdb (upBit n) = false ∧
        FieldsOnly [R.LANE_STATUS_STATE n, R.LANE_STATUS_RATE n, R.LANE_STATUS_LOCK n, R.LANE_STATUS_ALIGNED n, upBit n] s t ∧
        ChangesOnly [.regs, .evq, .sent, .lanes] s t) ∧
    (∀ (s : State) (n a : Nat),
      n < 128 → (s.lane n).wakeNs = some a → laneState s n = 2 → a + 40000 ≤ s.monoNs → testMode s n ≠ 0 →
      ∃ t, exec (.laneWakeDone n) s = .next t ∧
        t.rd (R.LANE_STATUS_STATE n) = 7 ∧ t.rd (R.LANE_STATUS_RATE n) = s.rd (R.LANE_TEST_TEST_RATE n) ∧
        t.rd (R.LANE_COUNTS_LP_EXITS n) = min (s.rd (R.LANE_COUNTS_LP_EXITS n) + 1) 255 ∧
        FieldsOnly [R.LANE_STATUS_STATE n, R.LANE_STATUS_RATE n, R.LANE_STATUS_LOCK n, R.LANE_STATUS_ALIGNED n, upBit n, R.LANE_COUNTS_LP_EXITS n] s t ∧
        ChangesOnly [.regs, .evq, .sent, .lanes] s t)

/-- LANE_EYE_REFRESH of a lane that is up reports both openings and their figure. LANE_SURVEY of a lane that is not up is
remembered; of one that is up it is done. LANE_ERR_ONE in test modes 1 to 4 flips one bit. PRBS_LOCK of a checker that runs
unlocked sets PRBS_LOCK and begins the count of bits; PRBS_LOCK_LOST keeps the bits checked; PRBS_ERROR while locked counts.
LANE_TEST_MODE_WRITE while the lane's port does not run clears the error count. (Derived from R375, R385, R386, R387.) -/
def Obligations.LaneTests : Prop :=
    (∀ (s : State) (n v h : Nat),
      n < 128 → v < 256 → h ≤ 64 → laneState s n = 6 → ∃ t, exec (.laneEyeRefresh n v h) s = .next t ∧
        t.rd (R.LANE_EYE_V n) = v ∧ t.rd (R.LANE_EYE_H n) = h ∧ t.rd (R.LANE_EYE_EYE n) = eyeFigure v h % 256 ∧
        t.rd (R.LANE_STATUS_EYE n) = eyeFigure v h % 256 ∧
        FieldsOnly [R.LANE_EYE_V n, R.LANE_EYE_H n, R.LANE_EYE_EYE n, R.LANE_STATUS_EYE n] s t ∧
        ChangesOnly [.regs, .evq, .sent, .lanes] s t) ∧
    (∀ (s : State) (n : Nat),
      n < 128 → laneState s n ≠ 6 → ∃ t, exec (.laneSurvey n) s = .next t ∧
        t.lane n = { s.lane n with survey := true } ∧ FieldsOnly [] s t ∧ ChangesOnly [.regs, .evq, .sent, .lanes] s t) ∧
    (∀ (s : State) (n : Nat),
      n < 128 → laneState s n = 6 → ∃ t, exec (.laneSurvey n) s = .next t ∧
        t.rdb (R.LANE_SURVEY_DONE n) = true ∧ t.lane n = { s.lane n with survey := false } ∧
        FieldsOnly [R.LANE_SURVEY_DONE n, R.LANE_SURVEY_VALID n, R.LANE_SURVEY_LEN_DM n, R.LANE_SURVEY_IL_QDB n] s t ∧
        ChangesOnly [.regs, .evq, .sent, .lanes, .free] s t) ∧
    (∀ (s : State) (n : Nat),
      n < 128 → laneState s n = 7 → 1 ≤ testMode s n → testMode s n ≤ 4 → ∃ t, exec (.laneErrOne n) s = .next t ∧
        Sent.bitFlip n ∈ t.sent ∧ FieldsOnly [] s t ∧ ChangesOnly [.regs, .evq, .sent] s t) ∧
    (∀ (s : State) (n : Nat),
      n < 128 → checkerRuns s n = true → s.rdb (R.LANE_TEST_PRBS_LOCK n) = false → ∃ t, exec (.prbsLock n) s = .next t ∧
        t.rdb (R.LANE_TEST_PRBS_LOCK n) = true ∧ t.lane n = { s.lane n with lockNs := some s.monoNs } ∧
        FieldsOnly [R.LANE_TEST_PRBS_LOCK n] s t ∧ ChangesOnly [.regs, .evq, .sent, .lanes] s t) ∧
    (∀ (s : State) (n : Nat),
      n < 128 → s.rdb (R.LANE_TEST_PRBS_LOCK n) = true → ∃ t, exec (.prbsLockLost n) s = .next t ∧
        t.rdb (R.LANE_TEST_PRBS_LOCK n) = false ∧ t.lane n = { s.lane n with prbsBits := prbsBits s n, lockNs := none } ∧
        FieldsOnly [R.LANE_TEST_PRBS_LOCK n] s t ∧ ChangesOnly [.regs, .evq, .sent, .lanes] s t) ∧
    (∀ (s : State) (n : Nat),
      n < 128 → s.rdb (R.LANE_TEST_PRBS_LOCK n) = true → ∃ t, exec (.prbsError n) s = .next t ∧
        t.rd (R.LANE_PRBS_ERR_ERRORS n) = min (s.rd (R.LANE_PRBS_ERR_ERRORS n) + 1) (2 ^ 32 - 1) ∧
        t.lane n = { s.lane n with prbsSeen := true } ∧ FieldsOnly [R.LANE_PRBS_ERR_ERRORS n] s t ∧
        ChangesOnly [.regs, .evq, .sent, .lanes] s t) ∧
    (∀ (s : State) (n w : Nat),
      n < 128 → w < 2 ^ 32 → blockRuns s (R.LANE_TEST_MODE n).addr = false → ∃ t, exec (.laneTestModeWrite n w) s = .next t ∧
        t.rd (R.LANE_PRBS_ERR_ERRORS n) = 0 ∧ t.rd (R.LANE_TEST_MODE n) = bits w 31 29 ∧
        t.rd (R.LANE_TEST_TEST_RATE n) = bits w 15 12 ∧ ChangesOnly [.regs, .evq, .sent, .lanes] s t)

/-- HPD_CONNECT on an enabled port makes it connected, with PARTNER and state 1. HPD_IRQ that reports a lost link takes a port
that is up back to training at its rate. HPD_DISCONNECT clears PARTNER and returns the port to state 1. PORT_CAPS_READ in
state 1 reports the monitor's revision, rate and lanes. SOURCE_TRAINING_DONE that failed goes on at the next lower rate; one
that succeeded for a port that drives no flue brings it up. (Derived from R400, R401.) -/
def Obligations.SourcePorts : Prop :=
    (∀ (s : State) (p : Nat),
      16 ≤ p → p < 40 → s.rdb (R.PORT_CFG_ENABLE p) = true → (s.port p).connected = false →
      ∃ t, exec (.hpdConnect p) s = .next t ∧
        t.rdb (R.PORT_STATUS_PARTNER p) = true ∧ t.rd (R.PORT_STATUS_STATE p) = 1 ∧
        t.port p = { s.port p with connected := true } ∧ (∀ q, q ≠ p → t.port q = s.port q) ∧
        FieldsOnly [R.PORT_STATUS_PARTNER p, R.PORT_STATUS_STATE p] s t ∧ ChangesOnly [.regs, .evq, .sent, .ports] s t) ∧
    (∀ (s : State) (p : Nat),
      16 ≤ p → p < 40 → portUp s p = true → (s.port p).connected = true → ∃ t, exec (.hpdIrq p true) s = .next t ∧
        t.rd (R.PORT_STATUS_STATE p) = 2 ∧ t.rd (R.PORT_STATUS_RATE p) = s.rd (R.PORT_STATUS_RATE p) ∧
        (t.port p).trying = s.rd (R.PORT_STATUS_RATE p) ∧ ChangesOnly [.regs, .evq, .sent, .ports, .lanes] s t) ∧
    (∀ (s : State) (p : Nat),
      16 ≤ p → p < 40 → (s.port p).connected = true → ∃ t, exec (.hpdDisconnect p) s = .next t ∧
        t.rdb (R.PORT_STATUS_PARTNER p) = false ∧ t.rd (R.PORT_STATUS_STATE p) = 1 ∧ (t.port p).connected = false ∧
        ChangesOnly [.regs, .evq, .sent, .ports, .lanes] s t) ∧
    (∀ (s : State) (p : Nat) (q : MonitorCaps),
      16 ≤ p → p < 40 → (s.port p).connected = true → s.rd (R.PORT_STATUS_STATE p) = 1 →
      ∃ t, exec (.portCapsRead p q) s = .next t ∧
        t.rd (R.PORT_SRC_CAP_DPCD_REV (p - 16)) = q.dpcdRev % 256 ∧ t.rd (R.PORT_SRC_CAP_MAX_RATE (p - 16)) = q.maxRate % 16 ∧
        t.rd (R.PORT_SRC_CAP_MAX_LANES (p - 16)) = q.maxLanes % 8 ∧
        t.rd (R.PORT_SRC_CAP_EDID_BLOCKS (p - 16)) = (q.blocks.take 4).length ∧ ChangesOnly [.regs, .evq, .sent, .ports] s t) ∧
    (∀ (s : State) (p q : Nat) (l : List Nat),
      16 ≤ p → p < 40 → s.rd (R.PORT_STATUS_STATE p) = 2 → (s.port p).connected = true →
      dpRates.find? (· < (s.port p).trying) = some q → ∃ t, exec (.sourceTrainingDone p false l) s = .next t ∧
        t.rd (R.PORT_STATUS_RATE p) = q % 16 ∧ (t.port p).trying = q ∧ FieldsOnly [R.PORT_STATUS_RATE p] s t ∧
        ChangesOnly [.regs, .evq, .sent, .ports] s t) ∧
    (∀ (s : State) (p : Nat) (l : List Nat),
      16 ≤ p → p < 40 → s.rd (R.PORT_STATUS_STATE p) = 2 → (s.port p).connected = true → flueOf s p = none →
      ∃ t, exec (.sourceTrainingDone p true l) s = .next t ∧
        t.rd (R.PORT_STATUS_STATE p) = 3 ∧ t.rd (R.PORT_STATUS_RATE p) = (s.port p).trying % 16 ∧
        t.rdb (R.PORT_STATUS_PARTNER p) = true ∧ ChangesOnly [.regs, .evq, .sent, .lanes, .free] s t)

/-- ETH_FRAME_RECEIVED on a port that is up: an ARP request for the port's address learns its sender and is answered; a frame
with a bad check sequence is dropped and counted. ETH_NEXT_HOP_TIMEOUT drops the packets held for 1 ms. NEIGHBOUR_LAPSE
keeps only the neighbours used within 300 s. MEMBERSHIP_REPORT_REPEAT counts a due report down. PORT_DOWN takes an Ethernet
port from up to state 1, without its held packets and reports. PORT_UP with its lanes ready brings a port up.
PORT_PCIE_RESET counts itself, forgets the host's accesses and closes MSI-X. (Derived from R406, R407, R409, R412.) -/
def Obligations.NetworkPorts : Prop :=
    (∀ (s : State) (p : Nat) (f g : List Byte),
      40 ≤ p → p < 48 → portUp s p = true → ethInject p (f, true) s = ([(f, true)], s) → untag s p f = some g →
      accepts s p g = true → g.length + 4 ≤ 9216 → beAt g 12 2 = 0x0806 → mapped (beAt g 38 4) = ethIp4 s p →
      beAt g 20 2 = 1 → ∃ t, exec (.ethFrameReceived p f true) s = .next t ∧
        (∃ b, Sent.ethFrame p (ethFrame t p (beAt g 22 6) 0x0806 b) ∈ t.sent) ∧
        (∃ x ∈ (t.port p).neighbours, x.addr = mapped (beAt g 28 4) ∧ x.mac = beAt g 22 6 ∧ x.usedNs = s.monoNs)) ∧
    (∀ (s : State) (p : Nat) (f : List Byte),
      40 ≤ p → p < 48 → portUp s p = true → s.rd (R.INJ_RX_CFG_MODE (4 + (p - 40))) = 0 → s.inj.heldBack = [] →
      ∃ t, exec (.ethFrameReceived p f false) s = .next t ∧
        t.rd (R.PORT_ETH_DROP_RX (p - 40)) = min (s.rd (R.PORT_ETH_DROP_RX (p - 40)) + 1) 65535 ∧
        FieldsOnly [R.PORT_ETH_DROP_RX (p - 40)] s t ∧ ChangesOnly [.regs, .evq, .sent] s t) ∧
    (∀ (s : State) (p : Nat),
      40 ≤ p → p < 48 → ∃ t, exec (.ethNextHopTimeout p) s = .next t ∧
        t.port p = { s.port p with held := (s.port p).held.filter fun h => !decide (h.sinceNs + 1000000 ≤ s.monoNs) } ∧
        t.rd (R.PORT_ETH_DROP_TX (p - 40)) = max (s.rd (R.PORT_ETH_DROP_TX (p - 40))) (min (s.rd (R.PORT_ETH_DROP_TX (p - 40)) + ((s.port p).held.filter fun h => decide (h.sinceNs + 1000000 ≤ s.monoNs)).length) 65535) ∧
        FieldsOnly [R.PORT_ETH_DROP_TX (p - 40)] s t ∧ ChangesOnly [.regs, .evq, .sent, .ports] s t) ∧
    (∀ (s : State) (p : Nat),
      40 ≤ p → p < 48 → ∃ t, exec (.neighbourLapse p) s = .next t ∧
        t.port p = { s.port p with neighbours := (s.port p).neighbours.filter (neighbourLive s) } ∧
        (∀ q, q ≠ p → t.port q = s.port q) ∧ FieldsOnly [] s t ∧ ChangesOnly [.regs, .evq, .sent, .ports] s t) ∧
    (∀ (s : State) (p g n a : Nat),
      40 ≤ p → p < 48 → portUp s p = true → (s.port p).reports = [(g, n + 2, a)] → a ≤ s.monoNs →
      ∃ t, exec (.membershipReportRepeat p) s = .next t ∧
        (t.port p).reports = [(g, n + 1, a + 1000000000)] ∧ FieldsOnly [] s t ∧ ChangesOnly [.regs, .evq, .sent, .ports] s t) ∧
    (∀ (s : State) (p : Nat),
      40 ≤ p → p < 48 → portUp s p = true → ∃ t, exec (.portDown p) s = .next t ∧
        t.rd (R.PORT_STATUS_STATE p) = 1 ∧ t.rdb (R.PORT_STATUS_PARTNER p) = false ∧ (t.port p).held = [] ∧
        (t.port p).reports = [] ∧ ChangesOnly [.regs, .evq, .sent, .ports, .lanes] s t) ∧
    (∀ (s : State) (p rate k : Nat),
      40 ≤ p → p < 48 → rate < 15 → k = 1 ∨ k = 2 ∨ k = 4 → portOn s p = true → s.rd (R.PORT_STATUS_STATE p) ≠ 3 →
      k ≤ ((lanesOf s p).filter fun n => laneState s n == 8 && decide (s.rd (R.LANE_CFG_INDEX n) < k)).length →
      ∃ t, exec (.portUp p rate k) s = .next t ∧
        t.rd (R.PORT_STATUS_STATE p) = 3 ∧ t.rd (R.PORT_STATUS_RATE p) = rate ∧ t.rd (R.PORT_STATUS_LANES p) = lanesCode k ∧
        t.rdb (R.PORT_STATUS_PARTNER p) = true ∧
        t.rd (R.PORT_STATUS_TRAINS p) = min (s.rd (R.PORT_STATUS_TRAINS p) + 1) 65535 ∧
        ChangesOnly [.regs, .evq, .sent, .lanes, .ports, .free] s t) ∧
    (∀ (s : State),
      s.rd R.IMG_STATUS_LOAD_STATE ≠ 1 → ∃ t, exec (.portPcieReset 0) s = .next t ∧
        t.rd R.PORT_PCIE_LINK_RESETS = min (s.rd R.PORT_PCIE_LINK_RESETS + 1) 255 ∧
        t.mem = { s.mem with outstanding := s.mem.outstanding.filter fun (o : Outstanding) => o.access.src != 152 } ∧
        t.evq.msixEnabled = false ∧ t.evq.msixMasked = List.range 64 ∧ FieldsOnly [R.PORT_PCIE_LINK_RESETS] s t ∧
        ChangesOnly [.regs, .evq, .sent, .mem] s t)

/-- A frame that fails its check counts a CRC error and asks for a NAK where none has gone. A frame that carries only credits
keeps them for its pool and takes no sequence number. A frame with NAK set sends again from the frame after the last one
acknowledged. CRL_RETRY_TIMEOUT with unacknowledged frames for RETRY_US does the same. CRL_TILE_EXPIRY drops the waiting
TILE frames whose time has passed and keeps the others. CRL_FRAME_BOUNDARY with nothing to resend, wait for or report sends
nothing. (Derived from R420, R422, R424, R425, R423.) -/
def Obligations.CrinusFrames : Prop :=
    (∀ (s : State) (k : Nat) (f : List Byte),
      k < 4 → linkActive s k = true → crlInject k f s = ([(f, true)], s) → unitsAt s 1 (49 + k) 0 none = [] →
      unitsAt s 1 (49 + k) 2 none = [] → frameGood f = false → ∃ t, exec (.crlFrameBad k f) s = .next t ∧
        t.rd (R.CRL_LINK_RETRY_CRC_ERRORS k) = min (s.rd (R.CRL_LINK_RETRY_CRC_ERRORS k) + 1) 65535 ∧
        t.link k = (if (s.link k).nakSent then s.link k else { s.link k with nakDue := true }) ∧
        FieldsOnly [R.CRL_LINK_RETRY_CRC_ERRORS k] s t ∧ ChangesOnly [.regs, .evq, .sent, .links] s t) ∧
    (∀ (s : State) (k : Nat) (f : List Byte),
      k < 4 → frameArrives k f s → (headOf f).typ = 6 → (s.link k).replay = [] →
      ∃ t, exec (.crlCreditReceived k f) s = .next t ∧
        t.link k = { s.link k with credits := (s.link k).credits.set (headOf f).pool (headOf f).credits } ∧
        FieldsOnly [R.CRL_LINK_CREDIT_BULK k, R.CRL_LINK_CREDIT_CONTROL k, R.CRL_LINK_STATUS_UNACKED k] s t ∧
        ChangesOnly [.regs, .evq, .sent, .links] s t) ∧
    (∀ (s : State) (k : Nat) (f : List Byte),
      k < 4 → linkActive s k = true → crlInject k f s = ([(f, true)], s) → unitsAt s 1 (49 + k) 0 none = [] →
      unitsAt s 1 (49 + k) 2 none = [] → frameGood f = true → (headOf f).nak = true → (headOf f).typ = 6 →
      (s.link k).replay = [] → (s.link k).rewinds < 8 → ∃ t, exec (.crlNakReceived k f) s = .next t ∧
        (t.link k).rewinds = (s.link k).rewinds + 1 ∧
        t.rd (R.CRL_LINK_RETRY_REWINDS k) = min (s.rd (R.CRL_LINK_RETRY_REWINDS k) + 1) 65535 ∧ (t.link k).ackNs = s.monoNs ∧
        FieldsOnly [R.CRL_LINK_CREDIT_BULK k, R.CRL_LINK_CREDIT_CONTROL k, R.CRL_LINK_STATUS_UNACKED k, R.CRL_LINK_RETRY_REWINDS k] s t ∧
        ChangesOnly [.regs, .evq, .sent, .links] s t) ∧
    (∀ (s : State) (k : Nat),
      k < 4 → linkActive s k = true → (s.link k).replay ≠ [] →
      (s.link k).ackNs + max 1 (s.rd R.CRL_CFG_RETRY_US) * 1000 ≤ s.monoNs → (s.link k).rewinds < 8 →
      ∃ t, exec (.crlRetryTimeout k) s = .next t ∧
        t.link k = { s.link k with resend := (s.link k).replay.map CrlFrame.seq, rewinds := (s.link k).rewinds + 1, ackNs := s.monoNs } ∧
        t.rd (R.CRL_LINK_RETRY_REWINDS k) = min (s.rd (R.CRL_LINK_RETRY_REWINDS k) + 1) 65535 ∧
        FieldsOnly [R.CRL_LINK_RETRY_REWINDS k] s t ∧ ChangesOnly [.regs, .evq, .sent, .links] s t) ∧
    (∀ (s : State) (k : Nat),
      k < 4 → ∃ t, exec (.crlTileExpiry k) s = .next t ∧
        ((t.link k).waiting = (s.link k).waiting.filter fun q => !(q.expiryNs.any fun e => decide (e ≤ s.monoNs))) ∧
        (t.link k).replay.length = (s.link k).replay.length ∧ (∀ j, j ≠ k → t.link j = s.link j) ∧ FieldsOnly [] s t ∧
        ChangesOnly [.regs, .evq, .sent, .links] s t) ∧
    (∀ (s : State) (k : Nat) (q : CrlFrame),
      k < 4 → linkActive s k = true → (s.link k).resend = [] → (s.link k).replay = [] → (s.link k).waiting = [q] →
      pickFrame (s.link k) = some q → q.expiryNs = none → ∃ t, exec (.crlFrameBoundary k) s = .next t ∧
        (t.link k).waiting = [] ∧ (t.link k).replay.map CrlFrame.seq = [(s.link k).txNext] ∧
        (t.link k).txNext = ((s.link k).txNext + 1) % 4096 ∧ (∃ m, Sent.crinusFrame k m ∈ t.sent) ∧
        ChangesOnly [.regs, .evq, .sent, .links, .chk, .free] s t)

/-- CRL_EDGE_RECEIVED from the master, with the tick following it, takes the edge at its arrival less the link's delay and the
residence. CRL_CLAIM_RECEIVED keeps the claim in place of the origin's older one. CRL_DELAY_REQ_RECEIVED queues the response
with the time of arrival. CRL_DELAY_RESP_RECEIVED of an open request closes it, keeps half the time it was under way, and
counts the exchange. CRL_DELAY_TIMER one second after the last request queues the next. CRL_PEER_FAULT passes the notice on
and remembers it; the peer's own package fault takes the link down. CRL_MASTER_CHANGE elects the highest priority heard, the
lower id on a tie. (Derived from R431, R432, R434, R435, R433.) -/
def Obligations.CrinusSystem : Prop :=
    (∀ (s : State) (k : Nat) (f : List Byte),
      k < 4 → frameArrives k f s → (headOf f).typ = 1 → leAt (f.drop 8) 0 1 = 0 →
      floodDrops 1 0 (leAt (f.drop 8) 1 1) (leAt (f.drop 8) 4 4) (leAt (f.drop 8) 3 1) s = false → tickSrc s = 3 →
      s.rdb R.CRL_SYS_MASTER_VALID = true → s.rd R.CRL_SYS_MASTER_ID = leAt (f.drop 8) 1 1 →
      ∃ t, exec (.crlEdgeReceived k f) s = .next t ∧
        t.tick.sourceEdges.head? = some (s.nowNs - linkDelay s k - leAt (f.drop 8) 16 4) ∧
        ChangesOnly [.regs, .evq, .sent, .links, .crl, .tick] s t) ∧
    (∀ (s : State) (k : Nat) (f : List Byte),
      k < 4 → frameArrives k f s → (headOf f).typ = 1 → leAt (f.drop 8) 0 1 = 1 →
      floodDrops 1 1 (leAt (f.drop 8) 1 1) (leAt (f.drop 8) 4 4) (leAt (f.drop 8) 3 1) s = false →
      ∃ t, exec (.crlClaimReceived k f) s = .next t ∧
        t.crl.claims = (leAt (f.drop 8) 1 1, leAt (f.drop 8) 2 1, bitOf (leAt (f.drop 8) 20 1) 0, s.rd R.TICK_COUNT_COUNT) :: s.crl.claims.filter (·.1 != leAt (f.drop 8) 1 1) ∧
        ChangesOnly [.regs, .evq, .sent, .links, .crl, .tick] s t) ∧
    (∀ (s : State) (k : Nat) (f : List Byte),
      k < 4 → frameArrives k f s → (headOf f).typ = 1 → leAt (f.drop 8) 0 1 = 2 →
      ∃ t, exec (.crlDelayReqReceived k f) s = .next t ∧
        (t.link k).waiting = (s.link k).waiting ++ [{ typ := 1, cls := 0, patch := 3, payload := [3, 0, 0, 0] ++ ((f.drop 8).drop 4).take 4 ++ timeField s.nowNs ++ List.replicate 16 0 }] ∧
        (t.link k).accepted = (headOf f).seq ∧ ChangesOnly [.regs, .evq, .sent, .links] s t) ∧
    (∀ (s : State) (k : Nat) (f : List Byte) (r : Nat × Nat),
      k < 4 → frameArrives k f s → (headOf f).typ = 1 → leAt (f.drop 8) 0 1 = 3 → linkState s k = 3 →
      (s.link k).openReqs = [r] → r.1 = leAt (f.drop 8) 4 4 → ∃ t, exec (.crlDelayRespReceived k f) s = .next t ∧
        (t.link k).openReqs = [] ∧ (t.link k).exchanges = (s.link k).exchanges + 1 ∧
        (t.link k).delays = ((((s.monoNs : Int) - r.2) - ((fieldTime (((f.drop 8).drop 16).take 8) : Int) - fieldTime (((f.drop 8).drop 8).take 8))) / 2 :: (s.link k).delays).take 16 ∧
        ChangesOnly [.regs, .evq, .sent, .links] s t) ∧
    (∀ (s : State) (k : Nat),
      k < 4 → linkState s k = 3 → (s.link k).delayNs + 1000000000 ≤ s.monoNs → ∃ t, exec (.crlDelayTimer k) s = .next t ∧
        (t.link k).reqNum = ((s.link k).reqNum + 1) % 2 ^ 32 ∧ (t.link k).delayNs = s.monoNs ∧
        (t.link k).waiting = (s.link k).waiting ++ [{ typ := 1, cls := 0, patch := 2, payload := [2, 0, 0, 0] ++ leBytes 4 (s.link k).reqNum ++ List.replicate 24 0 }] ∧
        FieldsOnly [] s t ∧ ChangesOnly [.regs, .evq, .sent, .links] s t) ∧
    (∀ (s : State) (k : Nat) (f : List Byte),
      k < 4 → frameArrives k f s → (headOf f).typ = 4 → leAt (f.drop 8) 0 1 ≠ 2 →
      leAt (f.drop 8) 0 1 ≠ 1 ∨ leAt (f.drop 8) 3 1 ≠ 0 →
      floodDrops 4 (leAt (f.drop 8) 0 1) (leAt (f.drop 8) 1 1) (leAt (f.drop 8) 8 4) (leAt (f.drop 8) 3 1) s = false →
      ∃ t, exec (.crlPeerFault k f) s = .next t ∧
        t.crl.forwarded.head? = some (4, leAt (f.drop 8) 0 1, leAt (f.drop 8) 1 1, leAt (f.drop 8) 8 4, s.rd R.TICK_COUNT_COUNT) ∧
        ChangesOnly [.regs, .evq, .sent, .links, .crl] s t) ∧
    (∀ (s : State) (k : Nat) (f : List Byte),
      k < 4 → frameArrives k f s → (headOf f).typ = 4 → leAt (f.drop 8) 0 1 = 1 → leAt (f.drop 8) 3 1 = 0 →
      floodDrops 4 1 (leAt (f.drop 8) 1 1) (leAt (f.drop 8) 8 4) 0 s = false → ∃ t, exec (.crlPeerFault k f) s = .next t ∧
        linkActive t k = false ∧ (t.link k).replay = []) ∧
    (∀ (s : State) (id prio : Nat),
      electMaster (heardPackages s) = some (id, prio) → id < 8 → prio < 256 → ∃ t, exec (.crlMasterChange) s = .next t ∧
        t.rdb R.CRL_SYS_MASTER_VALID = true ∧ t.rd R.CRL_SYS_MASTER_ID = id ∧ t.rd R.CRL_SYS_MASTER_PRIO = prio ∧
        ChangesOnly [.regs, .evq, .sent, .tick] s t)

/-- CRL_LAYER_RECEIVED notes the EXPORT_TICK at every enabled import slot of its origin and export slot whose buffers lie in
memory for imports. CRL_TILE_RECEIVED for an export being received, not the last part missing, keeps the part's data.
IMPORT_CUT completes the frames whose cut has passed. CRL_REG_GO while none is outstanding sets BUSY and queues the request
on a link that is up. CRL_REG_REQUEST_RECEIVED of a permitted one-word read of GLB_SCRATCH queues the response with the
word. CRL_REG_RESPONSE_RECEIVED from the link asked, or CRL_REG_TIMEOUT 100 µs after the request, ends the request with its
status; the timeout's status is 2. (Derived from R429, R436, R427.) -/
def Obligations.CrinusData : Prop :=
    (∀ (s : State) (k : Nat) (f : List Byte),
      k < 4 → frameArrives k f s → (headOf f).typ = 3 → bitOf (leAt (f.drop 8) 3 1) 0 = false → leAt (f.drop 8) 2 1 < 12 →
      ∃ t, exec (.crlLayerReceived k f) s = .next t ∧
        (∀ i ∈ importSlots s (leAt (f.drop 8) 1 1) (leAt (f.drop 8) 0 1), importPlaced s i = true → (t.import_ i).begun = some (leAt (f.drop 8) 4 4)) ∧
        ChangesOnly [.regs, .evq, .sent, .links, .crl] s t) ∧
    (∀ (s : State) (k i : Nat) (f : List Byte) (x y : ImportFill),
      k < 4 → frameArrives k f s → (headOf f).typ = 2 → (headOf f).stale = false →
      importSlots s (s.rd (R.CRL_LINK_STATUS_PEER_ID k)) (leAt (f.drop 8) 0 1) = [i] → (s.import_ i).filling = [x] →
      x.link = k → x.tick = leAt (f.drop 8) 4 4 → leAt (f.drop 8) 2 2 < x.tiles →
      leAt (f.drop 8) 1 1 / 16 < leAt (f.drop 8) 1 1 % 16 →
      y = { x with parts := x.parts.set (fun _ => []) (16 * leAt (f.drop 8) 2 2 + leAt (f.drop 8) 1 1 / 16) ((f.drop 8).drop 16), marks := x.marks.set (fun _ => (0, 0, 0)) (leAt (f.drop 8) 2 2) (leAt (f.drop 8) 1 1 % 16, leAt (f.drop 8) 8 4, leAt (f.drop 8) 12 1 % 8) } →
      ((List.range y.tiles).all fun q => (tileData y q).isSome) = false → ∃ t, exec (.crlTileReceived k f) s = .next t ∧
        (t.import_ i).filling = [y] ∧ ChangesOnly [.regs, .evq, .sent, .links, .crl] s t) ∧
    (∀ (s : State) (i : Nat) (x : ImportFill),
      i < 64 → (∀ j, j < 64 → j ≠ i → (s.import_ j).filling = []) → (s.import_ i).filling = [x] → x.cutNs ≤ s.monoNs →
      ∃ t, exec (.importCut) s = .next t ∧
        (t.import_ i).filling = [] ∧ t.rd (R.CRL_IMP_STAT_FRAMES i) = min (s.rd (R.CRL_IMP_STAT_FRAMES i) + 1) 65535 ∧
        t.comp.serial = s.comp.serial + 1 ∧ ((t.source (sourceKey 4 i)).newest.map Frame.serial) = some s.comp.serial ∧
        FieldsOnly [R.CRL_IMP_STAT_HELD i, R.CRL_IMP_STAT_FRAMES i] s t ∧
        ChangesOnly [.regs, .evq, .sent, .crl, .comp, .bytes, .mem] s t) ∧
    (∀ (s : State) (k : Nat),
      s.rdb R.CRL_REG_CMD_BUSY = false → s.rd R.CRL_REG_CMD_LINK = k → linkState s k = 3 → s.rdb R.CRL_REG_CMD_WRITE = false →
      ∃ t, exec (.crlRegGo) s = .next t ∧
        t.rdb R.CRL_REG_CMD_BUSY = true ∧ t.crl.request = some (k, s.monoNs) ∧
        (t.link k).waiting = (s.link k).waiting ++ [{ typ := 5, cls := 2, payload := leBytes 1 1 ++ leBytes 1 (s.rd R.CRL_REG_CMD_COUNT) ++ [0, 0] ++ leBytes 4 (s.rd R.CRL_REG_ADDR_OFFSET) }] ∧
        FieldsOnly [R.CRL_REG_CMD_BUSY] s t ∧ ChangesOnly [.regs, .evq, .sent, .crl, .links] s t) ∧
    (∀ (s : State) (k : Nat) (f : List Byte) (colour : Bool),
      k < 4 → frameArrives k f s → (headOf f).typ = 5 → leAt (f.drop 8) 0 1 = 1 → leAt (f.drop 8) 1 1 = 1 →
      leAt (f.drop 8) 4 4 = 8 → checkAccess s (153 + k) false 0x4010000008 = .permitted colour →
      ∃ t, exec (.crlRegRequestReceived k f) s = .next t ∧
        (t.link k).waiting = (s.link k).waiting ++ [{ typ := 5, cls := 2, payload := [0x81, 1, 0, 0] ++ leBytes 4 8 ++ leBytes 4 (s.rd R.GLB_SCRATCH_VALUE) }] ∧
        ChangesOnly [.regs, .evq, .sent, .links] s t) ∧
    (∀ (s : State) (k a : Nat) (f : List Byte),
      k < 4 → frameArrives k f s → (headOf f).typ = 5 → leAt (f.drop 8) 0 1 = 0x82 → s.crl.request = some (k, a) →
      leAt (f.drop 8) 2 1 < 4 → ∃ t, exec (.crlRegResponseReceived k f) s = .next t ∧
        t.crl.request = none ∧ t.rdb R.CRL_REG_CMD_BUSY = false ∧ t.rd R.CRL_REG_CMD_STATUS = leAt (f.drop 8) 2 1 ∧
        ChangesOnly [.regs, .evq, .sent, .links, .crl] s t) ∧
    (∀ (s : State) (k a : Nat),
      s.crl.request = some (k, a) → a + 100000 ≤ s.monoNs → ∃ t, exec (.crlRegTimeout) s = .next t ∧
        t.crl.request = none ∧ t.rdb R.CRL_REG_CMD_BUSY = false ∧ t.rd R.CRL_REG_CMD_STATUS = 2 ∧
        FieldsOnly [R.CRL_REG_CMD_BUSY, R.CRL_REG_CMD_STATUS] s t ∧ ChangesOnly [.regs, .evq, .sent, .crl] s t)

/-- For every state whose timebase holds a time of s seconds and ns nanoseconds with a fraction: the wall-µs value is floor((s ×
10^9 + ns) / 1,000) modulo 2^32, whatever the fraction; TMB_WUS reads it; TMB_SNAP, and a write of 1 to TMB_CTRL.SNAP while
domain 1 is powered, by a source that may write it, copy the whole time, fraction included, into the TMB_SNAP registers and
change nothing else. (Stated: R441.) -/
def Obligations.WallMicroseconds : Prop :=
    (∀ s : State, s.wus = (s.time.sec * 10 ^ 9 + s.time.ns) / 1000 % 2 ^ 32) ∧
    (∀ (s : State) (bar0 : Bool), readReg bar0 R.TMB_WUS_WUS.addr s = (s.time.sec * 10 ^ 9 + s.time.ns) / 1000 % 2 ^ 32) ∧
    (∀ (s : State),
      s.time.sec < 2 ^ 48 → s.time.ns < 1000000000 → s.time.frac < 2 ^ 32 → ∃ t, exec (.tmbSnap) s = .next t ∧
        t.rd R.TMB_SNAP_S_HI_S_HI = s.time.sec / 2 ^ 32 ∧ t.rd R.TMB_SNAP_S_LO_S_LO = s.time.sec % 2 ^ 32 ∧
        t.rd R.TMB_SNAP_NS_NS = s.time.ns ∧ t.rd R.TMB_SNAP_FRAC_FRAC = s.time.frac ∧
        FieldsOnly [R.TMB_SNAP_S_HI_S_HI, R.TMB_SNAP_S_LO_S_LO, R.TMB_SNAP_NS_NS, R.TMB_SNAP_FRAC_FRAC] s t ∧
        ChangesOnly [.regs, .evq, .sent] s t) ∧
    (∀ (s : State) (src v : Nat),
      src < 161 → v < 2 ^ 32 → bitOf v 0 = true → bitOf v 1 = false → s.powered 1 = true →
      mayWrite s src R.TMB_CTRL_SNAP.addr = true → s.time.sec < 2 ^ 48 → s.time.ns < 1000000000 → s.time.frac < 2 ^ 32 →
      ∃ t, exec (.registerWrite src R.TMB_CTRL_SNAP.addr v 15) s = .next t ∧
        t.rd R.TMB_SNAP_S_HI_S_HI = s.time.sec / 2 ^ 32 ∧ t.rd R.TMB_SNAP_S_LO_S_LO = s.time.sec % 2 ^ 32 ∧
        t.rd R.TMB_SNAP_NS_NS = s.time.ns ∧ t.rd R.TMB_SNAP_FRAC_FRAC = s.time.frac ∧
        FieldsOnly [R.TMB_SNAP_S_HI_S_HI, R.TMB_SNAP_S_LO_S_LO, R.TMB_SNAP_NS_NS, R.TMB_SNAP_FRAC_FRAC] s t ∧
        ChangesOnly [.regs, .evq, .sent] s t)

/-- TMB_INC_INT_WRITE of a value within 1.996 to 2.004 ns, with the fraction written last, is taken as it is; one outside is
clamped to the nearer limit, taken to the 8.32 value that lies within it, with INC_CLAMPED. TMB_STEP adds TMB_STEP_S seconds
and the clamped TMB_STEP_NS to the time modulo 2^48 seconds and counts the step; that it also unlocks both APLLs is how the
model reads R453. PTP_TX_WR_WRITE with one record that asks for a timestamp, for a port that is up, sends its frame with the
port's DSCP and tag, writes the corrected time of departure into the record and sets DONE; with one for a port whose link is
down it drops the record, counts it and sets DONE with a zero timestamp, and with no record sends nothing. APLL_LOCK sets
the lock of its APLL; TMB_APLL_UNLOCK clears it. (Derived from R440, R442, R443, R447, R453.) -/
def Obligations.TimebaseCommands : Prop :=
    (∀ (s : State) (w : Nat),
      w < 2 ^ 32 → s.time.heldFrac < 2 ^ 32 → 1996 * 2 ^ 32 ≤ 1000 * ((w % 256) * 2 ^ 32 + s.time.heldFrac) →
      1000 * ((w % 256) * 2 ^ 32 + s.time.heldFrac) ≤ 2004 * 2 ^ 32 → ∃ t, exec (.tmbIncIntWrite w) s = .next t ∧
        t.rd R.TMB_INC_INT_INT = w % 256 ∧ t.rd R.TMB_INC_FRAC_FRAC = s.time.heldFrac ∧
        FieldsOnly [R.TMB_INC_INT_INT, R.TMB_INC_FRAC_FRAC] s t ∧ ChangesOnly [.regs, .evq, .sent] s t) ∧
    (∀ (s : State) (w : Nat),
      w < 2 ^ 32 → s.time.heldFrac < 2 ^ 32 → 2004 * 2 ^ 32 < 1000 * ((w % 256) * 2 ^ 32 + s.time.heldFrac) →
      ∃ t, exec (.tmbIncIntWrite w) s = .next t ∧
        t.rd R.TMB_INC_INT_INT * 2 ^ 32 + t.rd R.TMB_INC_FRAC_FRAC = 2004 * 2 ^ 32 / 1000 ∧
        t.rdb R.TMB_STATUS_INC_CLAMPED = true ∧
        FieldsOnly [R.TMB_INC_INT_INT, R.TMB_INC_FRAC_FRAC, R.TMB_STATUS_INC_CLAMPED] s t ∧
        ChangesOnly [.regs, .evq, .sent] s t) ∧
    (∀ (s : State) (w : Nat),
      w < 2 ^ 32 → s.time.heldFrac < 2 ^ 32 → 1000 * ((w % 256) * 2 ^ 32 + s.time.heldFrac) < 1996 * 2 ^ 32 →
      ∃ t, exec (.tmbIncIntWrite w) s = .next t ∧
        t.rd R.TMB_INC_INT_INT * 2 ^ 32 + t.rd R.TMB_INC_FRAC_FRAC = (1996 * 2 ^ 32 + 999) / 1000 ∧
        t.rdb R.TMB_STATUS_INC_CLAMPED = true ∧
        FieldsOnly [R.TMB_INC_INT_INT, R.TMB_INC_FRAC_FRAC, R.TMB_STATUS_INC_CLAMPED] s t ∧
        ChangesOnly [.regs, .evq, .sent] s t) ∧
    (∀ (s : State),
      s.time.sec < 2 ^ 48 → s.time.ns < 1000000000 → ∃ t, exec (.tmbStep) s = .next t ∧
        ((t.time.sec * 1000000000 + t.time.ns : Nat) : Int) = ((s.time.sec * 1000000000 + s.time.ns : Nat) + signed 32 (s.rd R.TMB_STEP_S_VALUE) * 1000000000 + max (-999999999) (min 999999999 (signed 32 (s.rd R.TMB_STEP_NS_VALUE)))) % (2 ^ 48 * 1000000000) ∧
        t.time.frac = s.time.frac ∧ t.rd R.TMB_STATUS_STEPS = min (s.rd R.TMB_STATUS_STEPS + 1) 65535 ∧
        t.rdb R.TMB_STATUS_APLL0_LOCK = false ∧ t.rdb R.TMB_STATUS_APLL1_LOCK = false ∧
        ChangesOnly [.regs, .evq, .sent, .clock, .timers, .tick] s t) ∧
    (∀ (s : State) (w p o len : Nat),
      w < 2 ^ 32 → o = s.rd R.TMB_PTP_TX_RD_OFFSET → o < w → w < s.rd R.TMB_PTP_TX_SIZE_SIZE_4K * 4096 →
      len = leAt (s.memRead (s.rd R.TMB_PTP_TX_BASE_ADDR * 64 + o) 16) 12 2 → len < 65535 →
      w = o + (16 + len + 63) / 64 * 64 → p = leAt (s.memRead (s.rd R.TMB_PTP_TX_BASE_ADDR * 64 + o) 16) 10 1 → 40 ≤ p →
      p < 48 → portUp s p = false → ∃ t, exec (.ptpTxWrWrite w) s = .next t ∧
        t.rd R.TMB_PTP_TX_RD_OFFSET = w ∧ t.rd R.TMB_PTP_TX_WR_OFFSET = w ∧
        t.rd (R.PORT_ETH_DROP_TX (p - 40)) = min (s.rd (R.PORT_ETH_DROP_TX (p - 40)) + 1) 65535 ∧
        t.memRead (s.rd R.TMB_PTP_TX_BASE_ADDR * 64 + o) 10 = List.replicate 10 0 ∧
        bitOf (leAt (t.memRead (s.rd R.TMB_PTP_TX_BASE_ADDR * 64 + o) 16) 11 1) 7 = true ∧
        FieldsOnly [R.TMB_PTP_TX_RD_OFFSET, R.TMB_PTP_TX_WR_OFFSET, R.PORT_ETH_DROP_TX (p - 40)] s t ∧
        ChangesOnly [.regs, .evq, .sent, .bytes] s t) ∧
    (∀ (s : State) (w p o len : Nat) (g : List Byte) (u : State),
      w < 2 ^ 32 → o = s.rd R.TMB_PTP_TX_RD_OFFSET → o < w → w < s.rd R.TMB_PTP_TX_SIZE_SIZE_4K * 4096 →
      len = leAt (s.memRead (s.rd R.TMB_PTP_TX_BASE_ADDR * 64 + o) 16) 12 2 → len < 65535 →
      w = o + (16 + len + 63) / 64 * 64 → p = leAt (s.memRead (s.rd R.TMB_PTP_TX_BASE_ADDR * 64 + o) 16) 10 1 → 40 ≤ p →
      p < 48 → portUp s p = true → leAt (s.memRead (s.rd R.TMB_PTP_TX_BASE_ADDR * 64 + o) 16) 11 1 = 2 →
      ethEgress p (withDscp (s.rd (R.PORT_ETH_DSCP_PTP (p - 40))) (s.memRead (s.rd R.TMB_PTP_TX_BASE_ADDR * 64 + o + 16) len)) (s.wr R.TMB_PTP_TX_WR_OFFSET w) = (some g, u) →
      ∃ t, exec (.ptpTxWrWrite w) s = .next t ∧
        Sent.ethFrame p (withTag s p g) ∈ t.sent ∧ t.rd R.TMB_PTP_TX_RD_OFFSET = w ∧
        t.memRead (s.rd R.TMB_PTP_TX_BASE_ADDR * 64 + o) 10 = leBytes 6 (ptpStamp s (s.rd (R.TMB_PTP_PORT_TX_LAT (p - 40))) / 1000000000) ++ leBytes 4 (ptpStamp s (s.rd (R.TMB_PTP_PORT_TX_LAT (p - 40))) % 1000000000) ∧
        bitOf (leAt (t.memRead (s.rd R.TMB_PTP_TX_BASE_ADDR * 64 + o) 16) 11 1) 7 = true ∧
        ChangesOnly [.regs, .evq, .sent, .bytes, .mem, .chk] s t) ∧
    (∀ (s : State) (w : Nat),
      w < 2 ^ 32 → s.rd R.TMB_PTP_TX_RD_OFFSET = w → ∃ t, exec (.ptpTxWrWrite w) s = .next t ∧
        t.rd R.TMB_PTP_TX_WR_OFFSET = w ∧ t.rd R.TMB_PTP_TX_RD_OFFSET = w ∧ FieldsOnly [R.TMB_PTP_TX_WR_OFFSET] s t ∧
        ChangesOnly [.regs, .evq, .sent] s t) ∧
    (∀ (s : State),
      ∃ t, exec (.apllLock 0) s = .next t ∧
        t.rdb R.TMB_STATUS_APLL0_LOCK = true ∧ FieldsOnly [R.TMB_STATUS_APLL0_LOCK] s t ∧ ChangesOnly [.regs, .evq, .sent] s t) ∧
    (∀ (s : State),
      ∃ t, exec (.apllLock 1) s = .next t ∧
        t.rdb R.TMB_STATUS_APLL1_LOCK = true ∧ FieldsOnly [R.TMB_STATUS_APLL1_LOCK] s t ∧ ChangesOnly [.regs, .evq, .sent] s t) ∧
    (∀ (s : State),
      ∃ t, exec (.tmbApllUnlock 0) s = .next t ∧
        t.rdb R.TMB_STATUS_APLL0_LOCK = false ∧ FieldsOnly [R.TMB_STATUS_APLL0_LOCK] s t ∧
        ChangesOnly [.regs, .evq, .sent] s t) ∧
    (∀ (s : State),
      ∃ t, exec (.tmbApllUnlock 1) s = .next t ∧
        t.rdb R.TMB_STATUS_APLL1_LOCK = false ∧ FieldsOnly [R.TMB_STATUS_APLL1_LOCK] s t ∧
        ChangesOnly [.regs, .evq, .sent] s t)

/-- TMO_ENABLE of an idle one-shot whose START has not passed starts it; with WIDTH_NS below 4 it sets BAD and does not start;
with ENABLE 0 the output stops. TMO_PULSE_START at its instant begins the pulse, and a periodic output takes its next
instant one PERIOD_NS on. TMO_PULSE_END ends it, and clears ENABLE of a one-shot that has fired. TMC_EDGE of an edge that
EDGE selects appends its time less 6 ns to the queue; with the queue full the edge is lost and OVERFLOW set. TMC_TS_READ
removes the oldest entry and shows it; with the queue empty VALID reads 0. (Derived from R448, R449, R450, R451.) -/
def Obligations.TimedSignals : Prop :=
    (∀ (s : State) (k w : Nat),
      k < 16 → w < 2 ^ 32 → bitOf w 31 = true → s.rdb (R.TMO_CTRL_ENABLE k) = false → bits w 30 29 = 0 →
      s.rd (R.TMO_START_NS_VALUE k) < 10 ^ 9 → 4 ≤ s.rd (R.TMO_WIDTH_NS_VALUE k) →
      s.nowNs ≤ ((bits w 15 0 * 2 ^ 32 + s.rd (R.TMO_START_S_LO_VALUE k)) * 1000000000 + s.rd (R.TMO_START_NS_VALUE k)) →
      ∃ t, exec (.tmoEnable k w) s = .next t ∧
        t.rdb (R.TMO_CTRL_ENABLE k) = true ∧ t.rdb (R.TMO_CTRL_BAD k) = false ∧
        t.tmo k = { next := some ((bits w 15 0 * 2 ^ 32 + s.rd (R.TMO_START_S_LO_VALUE k)) * 1000000000 + s.rd (R.TMO_START_NS_VALUE k)) } ∧
        FieldsOnly [{ R.TMO_CTRL_ENABLE k with lo := 0 }] s t ∧ ChangesOnly [.regs, .evq, .sent, .timers] s t) ∧
    (∀ (s : State) (k w : Nat),
      k < 16 → w < 2 ^ 32 → bitOf w 31 = true → s.rdb (R.TMO_CTRL_ENABLE k) = false → s.rd (R.TMO_WIDTH_NS_VALUE k) < 4 →
      ∃ t, exec (.tmoEnable k w) s = .next t ∧
        t.rdb (R.TMO_CTRL_ENABLE k) = false ∧ t.rdb (R.TMO_CTRL_BAD k) = true ∧ t.tmo k = s.tmo k ∧
        FieldsOnly [{ R.TMO_CTRL_ENABLE k with lo := 0 }] s t ∧ ChangesOnly [.regs, .evq, .sent] s t) ∧
    (∀ (s : State) (k w : Nat),
      k < 16 → w < 2 ^ 32 → bitOf w 31 = false → ∃ t, exec (.tmoEnable k w) s = .next t ∧
        t.rdb (R.TMO_CTRL_ENABLE k) = false ∧ t.tmo k = {} ∧ (∀ j, j ≠ k → t.tmo j = s.tmo j) ∧
        ChangesOnly [.regs, .evq, .sent, .timers] s t) ∧
    (∀ (s : State) (k n : Nat),
      k < 16 → (s.tmo k).next = some n → s.rdb (R.TMO_CTRL_ENABLE k) = true → (s.tmo k).inPulse = false → n ≤ s.nowNs + 1 →
      s.rd (R.TMO_CTRL_MODE k) = 1 → ∃ t, exec (.tmoPulseStart k) s = .next t ∧
        t.tmo k = { next := some (n + s.rd (R.TMO_PERIOD_NS_VALUE k)), inPulse := true, fired := (s.tmo k).fired } ∧
        (∀ j, j ≠ k → t.tmo j = s.tmo j) ∧ FieldsOnly [] s t ∧ ChangesOnly [.regs, .evq, .sent, .timers] s t) ∧
    (∀ (s : State) (k n : Nat),
      k < 16 → (s.tmo k).next = some n → s.rdb (R.TMO_CTRL_ENABLE k) = true → (s.tmo k).inPulse = false → n ≤ s.nowNs + 1 →
      s.rd (R.TMO_CTRL_MODE k) = 0 → ∃ t, exec (.tmoPulseStart k) s = .next t ∧
        t.tmo k = { next := none, inPulse := true, fired := true } ∧ FieldsOnly [] s t ∧
        ChangesOnly [.regs, .evq, .sent, .timers] s t) ∧
    (∀ (s : State) (k : Nat),
      k < 16 → (s.tmo k).inPulse = true → (s.tmo k).fired = true → ∃ t, exec (.tmoPulseEnd k) s = .next t ∧
        t.rdb (R.TMO_CTRL_ENABLE k) = false ∧ t.tmo k = {} ∧ FieldsOnly [R.TMO_CTRL_ENABLE k] s t ∧
        ChangesOnly [.regs, .evq, .sent, .timers] s t) ∧
    (∀ (s : State) (k : Nat),
      k < 16 → (s.tmo k).inPulse = true → (s.tmo k).fired = false → ∃ t, exec (.tmoPulseEnd k) s = .next t ∧
        t.tmo k = { s.tmo k with inPulse := false } ∧ FieldsOnly [] s t ∧ ChangesOnly [.regs, .evq, .sent, .timers] s t) ∧
    (∀ (s : State) (c : Nat) (falling : Bool),
      c < 8 → s.rdb (R.TMC_CTRL_ENABLE c) = true →
      s.rd (R.TMC_CTRL_EDGE c) = (if falling then 2 else 1) ∨ s.rd (R.TMC_CTRL_EDGE c) = 3 → (s.tmc c).queue.length < 8 →
      6 ≤ s.nowNs → s.nowNs < 2 ^ 48 * 1000000000 → ∃ t, exec (.tmcEdge c falling) s = .next t ∧
        (t.tmc c).queue = (s.tmc c).queue ++ [{ sec := (s.nowNs - 6) / 1000000000, ns := (s.nowNs - 6) % 1000000000, falling := falling, stepped := (s.tmc c).lastSteps.any (· ≠ s.time.steps) }] ∧
        t.rd (R.TMC_CTRL_COUNT c) = (s.tmc c).queue.length + 1 ∧ FieldsOnly [R.TMC_CTRL_COUNT c] s t ∧
        ChangesOnly [.regs, .evq, .sent, .timers] s t) ∧
    (∀ (s : State) (c : Nat) (falling : Bool),
      c < 8 → s.rdb (R.TMC_CTRL_ENABLE c) = true →
      s.rd (R.TMC_CTRL_EDGE c) = (if falling then 2 else 1) ∨ s.rd (R.TMC_CTRL_EDGE c) = 3 → 8 ≤ (s.tmc c).queue.length →
      ∃ t, exec (.tmcEdge c falling) s = .next t ∧
        t.tmc c = s.tmc c ∧ t.rdb (R.TMC_CTRL_OVERFLOW c) = true ∧ FieldsOnly [R.TMC_CTRL_OVERFLOW c] s t ∧
        ChangesOnly [.regs, .evq, .sent] s t) ∧
    (∀ (s : State) (c : Nat) (e : TmcEntry) (q : List TmcEntry),
      c < 8 → (s.tmc c).queue = e :: q → q.length < 8 → e.sec < 2 ^ 48 → e.ns < 1000000000 →
      ∃ t, exec (.tmcTsRead c) s = .next t ∧
        (t.tmc c).queue = q ∧ t.rd (R.TMC_CTRL_COUNT c) = q.length ∧ t.rdb (R.TMC_TS_NS_VALID c) = true ∧
        t.rd (R.TMC_TS_NS_NS c) = e.ns ∧ t.rdb (R.TMC_TS_NS_FALLING c) = e.falling ∧
        t.rd (R.TMC_TS_S_HI_S_HI c) * 2 ^ 32 + t.rd (R.TMC_TS_S_LO_S_LO c) = e.sec ∧
        t.rdb (R.TMC_TS_S_HI_STEPPED c) = e.stepped ∧
        FieldsOnly [R.TMC_CTRL_COUNT c, R.TMC_TS_NS_VALID c, R.TMC_TS_NS_FALLING c, R.TMC_TS_NS_NS c, R.TMC_TS_S_LO_S_LO c, R.TMC_TS_S_HI_S_HI c, R.TMC_TS_S_HI_STEPPED c] s t ∧
        ChangesOnly [.regs, .evq, .sent, .timers] s t) ∧
    (∀ (s : State) (c : Nat),
      c < 8 → (s.tmc c).queue = [] → ∃ t, exec (.tmcTsRead c) s = .next t ∧
        t.rdb (R.TMC_TS_NS_VALID c) = false ∧ FieldsOnly [R.TMC_TS_NS_VALID c] s t ∧ ChangesOnly [.regs, .evq, .sent] s t)

/-- AUD_FRAME_DUE of an enabled route records its due time, and a frame of a non-audio source goes to an IEC output as zeros
with the route MUTED. AUD_SOURCE_SAMPLE of a source in use takes its non-audio conditions. AUD_NON_AUDIO_END 16,384 frames
after the last preamble ends the burst condition. AUD_REF_LOST and AUD_REF_LOCKED clear and set LOCKED with the measured
rate; AUD_ASRC_UNLOCK and AUD_ASRC_LOCK do so with a ratio in range. SLOT_MASK_WRITE takes TRISTATE and the mask, which
waits for the next frame boundary. AUD_LOAD classifies an output's load: above 200 Ω open, 50 Ω to 110 Ω present, below 20 Ω
short, else as before. (Derived from R457, R459, R465, R467, R468, R469, R470, R471.) -/
def Obligations.AudioCommands : Prop :=
    (∀ (s : State) (r : Nat),
      r < 32 → s.powered 6 = true → s.rdb (R.AUD_RT_CTRL_ENABLE r) = true → frameFallsDue s r = true →
      ∃ t, exec (.audFrameDue r) s = .next t ∧
        (t.route r).lastDueNs = some (dueNow s r) ∧ (t.route r).framesThisTick = (s.route r).framesThisTick + 1) ∧
    (∀ (s : State) (r : Nat),
      r < 32 → s.powered 6 = true → s.rdb (R.AUD_RT_CTRL_ENABLE r) = true → frameFallsDue s r = true →
      s.rd (R.AUD_RT_EP_DST_KIND r) = 4 → s.rd (R.AUD_IEC_CFG_MODE (s.rd (R.AUD_RT_EP_DST_INDEX r))) = 2 →
      isNonAudio (s.nonAudio (routeSrc s r)) = true → s.rdb R.WDN_STATUS_PKG_FAULT = false →
      ∃ t, exec (.audFrameDue r) s = .next t ∧
        t.rd (R.AUD_RT_STAT_STATE r) = 4 ∧ (t.route r).queue = [] ∧
        Sent.iecFrame (s.rd (R.AUD_RT_EP_DST_INDEX r)) (List.replicate (s.rd (R.AUD_RT_CTRL_CH_M1 r) + 1) 0) true (csBlock s (s.rd (R.AUD_RT_EP_DST_INDEX r))) ∈ t.sent ∧
        FieldsOnly [R.AUD_RT_STAT_STATE r] s t ∧ ChangesOnly [.regs, .evq, .sent, .audio] s t) ∧
    (∀ (s : State) (x : AudioInput),
      x.kind < 6 → x.index < 64 → s.powered 6 = true → sourceInUse s x = true → ∃ t, exec (.audSourceSample x) s = .next t ∧
        t.nonAudio (srcKey x.kind x.index) = nonAudioAfter (s.nonAudio (srcKey x.kind x.index)) x ∧
        (∀ j, j ≠ (srcKey x.kind x.index) → t.nonAudio j = s.nonAudio j) ∧ ChangesOnly [.regs, .evq, .sent, .audio] s t) ∧
    (∀ (s : State) (x : AudioInput),
      x.kind = 4 → x.index < 8 → s.powered 6 = true → s.rd (R.AUD_IEC_CFG_MODE x.index) = 1 → x.csBlock = none →
      x.nonAudio = true → x.rate < 16 → ∃ t, exec (.audSourceSample x) s = .next t ∧
        t.rdb (R.AUD_IEC_STAT_LOCK x.index) = true ∧ t.rd (R.AUD_IEC_STAT_RATE x.index) = x.rate ∧
        t.rd (R.AUD_IEC_STAT_ERRORS x.index) = min (s.rd (R.AUD_IEC_STAT_ERRORS x.index) + x.errors) 65535 ∧
        t.rdb (R.AUD_IEC_STAT_NON_AUDIO x.index) = true ∧
        (∀ r ∈ routesFrom s (srcKey 4 x.index), t.rd (R.AUD_RT_STAT_STATE r) = 4) ∧
        ChangesOnly [.regs, .evq, .sent, .audio] s t) ∧
    (∀ (s : State) (kind ix : Nat),
      kind < 6 → ix < 64 → (s.nonAudio (srcKey kind ix)).burst = true → 16384 ≤ (s.nonAudio (srcKey kind ix)).since →
      ∃ t, exec (.audNonAudioEnd kind ix) s = .next t ∧
        t.nonAudio (srcKey kind ix) = { s.nonAudio (srcKey kind ix) with burst := false } ∧
        ChangesOnly [.regs, .evq, .sent, .audio] s t) ∧
    (∀ (s : State) (g : Nat),
      g < 3 → s.rdb (R.AUD_GRP_LOCKED g) = true → ∃ t, exec (.audRefLost g) s = .next t ∧
        t.rdb (R.AUD_GRP_LOCKED g) = false ∧
        (s.rd (R.AUD_GRP_REF g) < 4 → t.rdb (if g = 2 then R.AUD_TDM_STAT_LOCK (s.rd (R.AUD_GRP_REF g)) else R.AUD_IEC_STAT_LOCK (4 * g + s.rd (R.AUD_GRP_REF g))) = false) ∧
        FieldsOnly [R.AUD_GRP_LOCKED g, R.AUD_TDM_STAT_LOCK (s.rd (R.AUD_GRP_REF g)), R.AUD_IEC_STAT_LOCK (4 * g + s.rd (R.AUD_GRP_REF g))] s t ∧
        ChangesOnly [.regs, .evq, .sent] s t) ∧
    (∀ (s : State) (g hz : Nat),
      g < 3 → hz < 2 ^ 18 → s.rdb (R.AUD_GRP_FOLLOW g) = true → s.rdb (R.AUD_GRP_LOCKED g) = false → rateInRange hz = true →
      ∃ t, exec (.audRefLocked g hz) s = .next t ∧
        t.rdb (R.AUD_GRP_LOCKED g) = true ∧ t.rd (R.AUD_GRP_RATE_HZ g) = hz ∧
        FieldsOnly [R.AUD_GRP_LOCKED g, R.AUD_GRP_RATE_HZ g] s t ∧ ChangesOnly [.regs, .evq, .sent] s t) ∧
    (∀ (s : State) (a q : Nat),
      a < 16 → q < 2 ^ 32 → s.rdb (R.AUD_ASRC_STAT_LOCKED a) = true → ∃ t, exec (.audAsrcUnlock a q) s = .next t ∧
        t.rdb (R.AUD_ASRC_STAT_LOCKED a) = false ∧
        t.rd (R.AUD_ASRC_RATIO_RATIO a) = (if ratioInRange q then q else s.rd (R.AUD_ASRC_RATIO_RATIO a)) ∧
        FieldsOnly [R.AUD_ASRC_STAT_LOCKED a, R.AUD_ASRC_RATIO_RATIO a] s t ∧ ChangesOnly [.regs, .evq, .sent] s t) ∧
    (∀ (s : State) (a q : Nat),
      a < 16 → q < 2 ^ 32 → ratioInRange q = true → ∃ t, exec (.audAsrcLock a q) s = .next t ∧
        t.rdb (R.AUD_ASRC_STAT_LOCKED a) = true ∧ t.rd (R.AUD_ASRC_RATIO_RATIO a) = q ∧
        FieldsOnly [R.AUD_ASRC_STAT_LOCKED a, R.AUD_ASRC_RATIO_RATIO a] s t ∧ ChangesOnly [.regs, .evq, .sent] s t) ∧
    (∀ (s : State) (p w : Nat),
      p < 4 → w < 2 ^ 32 → ∃ t, exec (.slotMaskWrite p w) s = .next t ∧
        t.rdb (R.AUD_TDM_SLOTS_TRISTATE p) = bitOf w 8 ∧ t.rd (R.AUD_TDM_SLOTS_SLOT_MASK p) = w % 256 ∧
        t.tdmPort p = { s.tdmPort p with pend := some (w % 256, s.nowNs) } ∧
        FieldsOnly [R.AUD_TDM_SLOTS_TRISTATE p, R.AUD_TDM_SLOTS_SLOT_MASK p] s t ∧
        ChangesOnly [.regs, .evq, .sent, .audio] s t) ∧
    (∀ (s : State) (i ohms : Nat),
      i < 8 → s.powered 6 = true → s.rd (R.AUD_IEC_CFG_MODE i) = 2 → ∃ t, exec (.audLoad i ohms) s = .next t ∧
        t.rd (R.AUD_IEC_STAT_LOAD i) = (if 200 < ohms then 1 else if 50 ≤ ohms ∧ ohms ≤ 110 then 2 else if ohms < 20 then 3 else s.rd (R.AUD_IEC_STAT_LOAD i)) ∧
        FieldsOnly [R.AUD_IEC_STAT_LOAD i] s t ∧ ChangesOnly [.regs, .evq, .sent] s t)

/-- TCH_SCAN_DUE of a panel without a scan under way begins one; with one under way that scan is abandoned and counted LATE.
TCH_SCAN_DONE once the quiet windows have let the scan make its pulses ends it and, among the first four, counts towards the
baseline; before that it changes nothing. TCH_TEST and TCH_SURVEY of an idle, disabled panel begin; TCH_TEST_DONE after
twice a scan's pulses ends the test with TEST_DONE; TCH_SURVEY_DONE goes on to the baseline where the panel is enabled, else
the panel is idle. A command that finds the panel otherwise changes nothing. (Derived from R33, R478, R479, R480, R485,
R487.) -/
def Obligations.TouchCommands : Prop :=
    (∀ (s : State) (p : Nat),
      p < 4 → scanFallsDue s p = true → bitOf (s.rd R.TCH_STATUS_SCANNING) p = false → ∃ t, exec (.tchScanDue p) s = .next t ∧
        bitOf (t.rd R.TCH_STATUS_SCANNING) p = true ∧
        (∀ q, q < 4 → q ≠ p → bitOf (t.rd R.TCH_STATUS_SCANNING) q = bitOf (s.rd R.TCH_STATUS_SCANNING) q) ∧
        t.panel p = { s.panel p with scanJ := (s.panel p).nextScan, nextScan := (s.panel p).nextScan + 1, lpSlot := lpSlot s p, thr := (s.word (R.TCH_PNL_THR_TOUCH_THR p).addr).toNat, scanLow := s.rdb (R.TCH_PNL_CTRL_MODE p), pulses := 0, scanNs := s.monoNs } ∧
        FieldsOnly [R.TCH_STATUS_SCANNING] s t ∧ ChangesOnly [.regs, .evq, .sent, .touch] s t) ∧
    (∀ (s : State) (p : Nat),
      p < 4 → scanFallsDue s p = true → bitOf (s.rd R.TCH_STATUS_SCANNING) p = true → ∃ t, exec (.tchScanDue p) s = .next t ∧
        t.rd (R.TCH_PNL_STAT_LATE p) = min (s.rd (R.TCH_PNL_STAT_LATE p) + 1) 65535 ∧
        (t.panel p).nextScan = (s.panel p).nextScan + 1 ∧ FieldsOnly [R.TCH_PNL_STAT_LATE p] s t ∧
        ChangesOnly [.regs, .evq, .sent, .touch] s t) ∧
    (∀ (s : State) (p : Nat),
      p < 4 → scanFallsDue s p = false → ∃ t, exec (.tchScanDue p) s = .next t ∧
        FieldsOnly [] s t ∧ ChangesOnly [.regs, .evq, .sent] s t) ∧
    (∀ (s : State) (p : Nat) (y : List (List (List Int))),
      p < 4 → bitOf (s.rd R.TCH_STATUS_SCANNING) p = true → scanNeeds s p ≤ scanPulses s p → (s.panel p).baseScans < 3 →
      ∃ t, exec (.tchScanDone p y) s = .next t ∧
        bitOf (t.rd R.TCH_STATUS_SCANNING) p = false ∧
        t.panel p = { s.panel p with baseScans := (s.panel p).baseScans + 1, provNs := s.monoNs } ∧
        ChangesOnly [.regs, .evq, .sent, .touch] s t) ∧
    (∀ (s : State) (p : Nat) (y : List (List (List Int))),
      p < 4 → bitOf (s.rd R.TCH_STATUS_SCANNING) p = true → scanNeeds s p ≤ scanPulses s p → (s.panel p).baseScans = 3 →
      ∃ t, exec (.tchScanDone p y) s = .next t ∧
        t.rd (R.TCH_PNL_STAT_STATE p) = (if s.rdb (R.TCH_PNL_CTRL_MODE p) then 4 else 3) ∧
        t.rdb (R.TCH_PNL_STAT_PROVISIONAL p) = true ∧ (t.panel p).baseScans = 4 ∧ ChangesOnly [.regs, .evq, .sent, .touch] s t) ∧
    (∀ (s : State) (p : Nat) (y : List (List (List Int))),
      p < 4 → scanPulses s p < scanNeeds s p → ∃ t, exec (.tchScanDone p y) s = .next t ∧
        t.touch = s.touch ∧ FieldsOnly [] s t ∧ ChangesOnly [.regs, .evq, .sent] s t) ∧
    (∀ (s : State) (p : Nat),
      p < 4 → s.powered 6 = true → (s.panel p).count ≠ 0 → s.rd (R.TCH_PNL_CTRL_ENABLE p) = 0 →
      s.rd (R.TCH_PNL_STAT_STATE p) = 0 → ∃ t, exec (.tchTest p) s = .next t ∧
        t.rd (R.TCH_PNL_STAT_STATE p) = 5 ∧ t.rdb (R.TCH_PNL_TEST_TEST_DONE p) = false ∧
        t.rdb (R.TCH_PNL_TEST_ABORTED p) = false ∧ t.panel p = { s.panel p with pulses := 0, scanNs := s.monoNs } ∧
        FieldsOnly [R.TCH_PNL_STAT_STATE p, R.TCH_PNL_TEST_TEST_DONE p, R.TCH_PNL_TEST_ABORTED p] s t ∧
        ChangesOnly [.regs, .evq, .sent, .touch] s t) ∧
    (∀ (s : State) (p : Nat) (y : List (List (List Int))) (single : List (List (List Nat))),
      p < 4 → s.rd (R.TCH_PNL_STAT_STATE p) = 5 → 2 * scanNeeds s p ≤ scanPulses s p →
      ∃ t, exec (.tchTestDone p y single) s = .next t ∧
        t.rd (R.TCH_PNL_STAT_STATE p) = 0 ∧ t.rdb (R.TCH_PNL_TEST_TEST_DONE p) = true ∧ ChangesOnly [.regs, .evq, .sent] s t) ∧
    (∀ (s : State) (p : Nat),
      p < 4 → s.powered 6 = true → (s.panel p).count ≠ 0 → s.rd (R.TCH_PNL_CTRL_ENABLE p) = 0 →
      s.rd (R.TCH_PNL_STAT_STATE p) = 0 → ∃ t, exec (.tchSurvey p) s = .next t ∧
        t.rd (R.TCH_PNL_STAT_STATE p) = 1 ∧ FieldsOnly [R.TCH_PNL_STAT_STATE p] s t ∧ ChangesOnly [.regs, .evq, .sent] s t) ∧
    (∀ (s : State) (p : Nat) (drive caps : List Nat),
      p < 4 → s.rd (R.TCH_PNL_STAT_STATE p) = 1 → s.rdb (R.TCH_PNL_CTRL_ENABLE p) = true →
      ∃ t, exec (.tchSurveyDone p drive caps) s = .next t ∧
        t.rd (R.TCH_PNL_STAT_STATE p) = 2 ∧ t.panel p = { s.panel p with baseScans := 0 } ∧
        ChangesOnly [.regs, .evq, .sent, .touch] s t) ∧
    (∀ (s : State) (p : Nat) (drive caps : List Nat),
      p < 4 → s.rd (R.TCH_PNL_STAT_STATE p) = 1 → s.rdb (R.TCH_PNL_CTRL_ENABLE p) = false →
      ∃ t, exec (.tchSurveyDone p drive caps) s = .next t ∧
        t.rd (R.TCH_PNL_STAT_STATE p) = 0 ∧ ChangesOnly [.regs, .evq, .sent] s t)

/-- PORST_ASSERT puts every register but the fuses' mirrors at its reset value, the timebase and every other part of the block
at its state after reset, and keeps the fuses. PORST_RELEASE latches BOOTSEL and begins to power PD1, with PD2 to follow.
WARM_RST_N, and PWR_RESET with its key, outside PORST_N and without THERMTRIP, count the reset and its cause, keep the
timebase, TMB_INC, the fuses and BOOTSEL, clear the seal and the composition but for the withdrawn units, which hold
themselves idle until they pass a canary, and power PD0 to PD2. With THERMTRIP asserted, or without the key, they change
nothing. (Derived from R506, R508, R509, R510, R511.) -/
def Obligations.ResetCommands : Prop :=
    (∀ (s : State),
      ∃ t, exec (.porstAssert) s = .next t ∧
        t.fuses = s.fuses ∧ t.time = State.reset.time ∧ t.power = State.reset.power ∧ t.mem = State.reset.mem ∧
        t.comp = State.reset.comp ∧ t.img = State.reset.img ∧ t.faults = State.reset.faults ∧ t.sealed = none ∧
        t.shadow = [] ∧
        (∀ a : Nat, a ≠ R.IMG_FUSE_STAT_SLOT0_PROG.addr → a ≠ R.IMG_SVN_FUSE_SVN.addr → t.word a = resetWord a) ∧
        t.rd R.IMG_SVN_FUSE_SVN = s.fuses.svn % 256) ∧
    (∀ (s : State) (b : Nat),
      b < 4 → s.power.porst = true → s.power.switching = [] → s.power.toSwitch = [] →
      ∃ t, exec (.porstRelease b) s = .next t ∧
        t.rd R.PWR_BOOT_BOOTSEL = b ∧ t.power.porst = false ∧ t.rd R.PWR_STATUS_POWERED = 1 ∧ t.power.switching = [1] ∧
        t.power.toSwitch = [2] ∧ t.rdb R.PWR_STATUS_SEQ_BUSY = true ∧ ChangesOnly [.regs, .evq, .sent, .power] s t) ∧
    (∀ (s : State) (b : Nat),
      b < 4 → s.power.porst = false → ∃ t, exec (.porstRelease b) s = .next t ∧
        FieldsOnly [] s t ∧ ChangesOnly [.regs, .evq, .sent] s t) ∧
    (∀ (s : State),
      s.power.porst = false → s.rdb R.PWR_STATUS_THERMTRIP = false → ∃ t, exec (.warmRstN) s = .next t ∧
        t.rd R.PWR_RST_CAUSE_WARM_COUNT = min (s.rd R.PWR_RST_CAUSE_WARM_COUNT + 1) 65535 ∧ t.rd R.PWR_STATUS_POWERED = 7 ∧
        t.rdb R.PWR_STATUS_PKG_FAULT = false ∧ t.time = s.time ∧ t.fuses = s.fuses ∧ t.sealed = none ∧
        t.comp = { units := s.comp.units.filterMap fun (p : Nat × UnitState) => if p.2.withdrawn then some (p.1, { withdrawn := true, rejoining := true }) else none } ∧
        t.rdb R.TICK_STATUS_RUN = false ∧ t.rd R.PWR_BOOT_BOOTSEL = s.rd R.PWR_BOOT_BOOTSEL ∧
        t.rd R.TMB_INC_INT_INT = s.rd R.TMB_INC_INT_INT ∧ t.rdb R.PWR_RST_CAUSE_WARM_BALL = true ∧
        t.rdb R.PWR_RST_CAUSE_WARM_REG = false) ∧
    (∀ (s : State),
      s.rdb R.PWR_STATUS_THERMTRIP = true → ∃ t, exec (.warmRstN) s = .next t ∧
        FieldsOnly [] s t ∧ ChangesOnly [.regs, .evq, .sent] s t) ∧
    (∀ (s : State) (w : Nat),
      w < 2 ^ 32 → w / 2 ^ 16 = 0x3C5A → w % 2 = 1 → s.power.porst = false → s.rdb R.PWR_STATUS_THERMTRIP = false →
      ∃ t, exec (.pwrReset w) s = .next t ∧
        t.rd R.PWR_RST_CAUSE_WARM_COUNT = min (s.rd R.PWR_RST_CAUSE_WARM_COUNT + 1) 65535 ∧ t.rd R.PWR_STATUS_POWERED = 7 ∧
        t.rdb R.PWR_STATUS_PKG_FAULT = false ∧ t.time = s.time ∧ t.fuses = s.fuses ∧ t.sealed = none ∧
        t.comp = { units := s.comp.units.filterMap fun (p : Nat × UnitState) => if p.2.withdrawn then some (p.1, { withdrawn := true, rejoining := true }) else none } ∧
        t.rdb R.TICK_STATUS_RUN = false ∧ t.rd R.PWR_BOOT_BOOTSEL = s.rd R.PWR_BOOT_BOOTSEL ∧
        t.rd R.TMB_INC_INT_INT = s.rd R.TMB_INC_INT_INT ∧ t.rdb R.PWR_RST_CAUSE_WARM_BALL = false ∧
        t.rdb R.PWR_RST_CAUSE_WARM_REG = true) ∧
    (∀ (s : State) (w : Nat),
      w < 2 ^ 32 → w / 2 ^ 16 ≠ 0x3C5A ∨ w % 2 = 0 ∨ s.rdb R.PWR_STATUS_THERMTRIP = true →
      ∃ t, exec (.pwrReset w) s = .next t ∧
        FieldsOnly [] s t ∧ ChangesOnly [.regs, .evq, .sent] s t)

/-- DOMAIN_SWITCH_DONE of a domain without a region makes it powered, and with nothing else to switch SEQ_BUSY is 0.
DOMAIN_POWER_TIMEOUT of a domain 200 µs after its switch closed, outside an application, sets its fault bit and leaves it
unpowered. SUPPLY_MONITOR_SAMPLE within the window reports it; a first sample outside is counted; a second one of an event-
only monitor trips it. WAKE_PENDING_CLEAR clears the flag. CHK_RESTART at a matrix point begins the message again. (Derived
from R494, R503, R506, R513, R514, R517.) -/
def Obligations.PowerAndCheckCommands : Prop :=
    (∀ (s : State) (d : Nat),
      d < 17 → s.power.switching = [d] → s.power.toSwitch = [] → domainRegion d = none →
      ∃ t, exec (.domainSwitchDone d) s = .next t ∧
        bitOf (t.rd R.PWR_STATUS_POWERED) d = true ∧ t.power.switching = [] ∧ t.rdb R.PWR_STATUS_SEQ_BUSY = false) ∧
    (∀ (s : State) (d : Nat),
      d < 17 → s.power.switching.contains d = false → ∃ t, exec (.domainSwitchDone d) s = .next t ∧
        FieldsOnly [] s t ∧ ChangesOnly [.regs, .evq, .sent] s t) ∧
    (∀ (s : State) (d : Nat),
      d < 17 → s.power.switching.contains d = true → s.power.switchNs.get (fun _ => 0) d + 200000 ≤ s.monoNs →
      s.rd R.IMG_STATUS_LOAD_STATE ≠ 5 → ∃ t, exec (.domainPowerTimeout d) s = .next t ∧
        bitOf (t.rd R.PWR_DOMAIN_FAULT_TRIPPED) d = true ∧ t.powered d = false) ∧
    (∀ (s : State) (m mv : Nat),
      m < 32 → mv < 65536 → s.rd (R.PWR_MON_CFG_LOW_MV m) ≤ mv → mv ≤ s.rd (R.PWR_MON_CFG_HIGH_MV m) →
      ∃ t, exec (.supplyMonitorSample m mv) s = .next t ∧
        t.rdb (R.PWR_MON_STAT_IN_WINDOW m) = true ∧ t.rd (R.PWR_MON_STAT_MV m) = mv ∧
        (t.power.monitors.get (fun _ => {}) m).out = 0 ∧ FieldsOnly [R.PWR_MON_STAT_IN_WINDOW m, R.PWR_MON_STAT_MV m] s t ∧
        ChangesOnly [.regs, .evq, .sent, .power] s t) ∧
    (∀ (s : State) (m mv : Nat),
      m < 32 → mv < 65536 → mv < s.rd (R.PWR_MON_CFG_LOW_MV m) ∨ s.rd (R.PWR_MON_CFG_HIGH_MV m) < mv →
      (s.power.monitors.get (fun _ => {}) m).out = 0 → ∃ t, exec (.supplyMonitorSample m mv) s = .next t ∧
        t.rdb (R.PWR_MON_STAT_IN_WINDOW m) = false ∧ t.rd (R.PWR_MON_STAT_MV m) = mv ∧
        (t.power.monitors.get (fun _ => {}) m).out = (if 17 ≤ m ∨ s.powered m = true then 1 else 0) ∧
        FieldsOnly [R.PWR_MON_STAT_IN_WINDOW m, R.PWR_MON_STAT_MV m] s t ∧ ChangesOnly [.regs, .evq, .sent, .power] s t) ∧
    (∀ (s : State) (m mv : Nat),
      28 ≤ m → m < 31 → mv < s.rd (R.PWR_MON_CFG_LOW_MV m) → 1 ≤ (s.power.monitors.get (fun _ => {}) m).out →
      (s.power.monitors.get (fun _ => {}) m).tripped = false → ∃ t, exec (.supplyMonitorSample m mv) s = .next t ∧
        t.rdb (R.PWR_MON_STAT_IN_WINDOW m) = false ∧
        t.rd (R.PWR_MON_STAT_TRIPS m) = min (s.rd (R.PWR_MON_STAT_TRIPS m) + 1) 127 ∧
        (t.power.monitors.get (fun _ => {}) m).tripped = true ∧
        FieldsOnly [R.PWR_MON_STAT_IN_WINDOW m, R.PWR_MON_STAT_MV m, R.PWR_MON_STAT_TRIPS m] s t ∧
        ChangesOnly [.regs, .evq, .sent, .power] s t) ∧
    (∀ (s : State),
      ∃ t, exec (.wakePendingClear) s = .next t ∧
        t.rdb R.PWR_WAKE_PENDING = false ∧ FieldsOnly [R.PWR_WAKE_PENDING] s t ∧ ChangesOnly [.regs, .evq, .sent] s t) ∧
    (∀ (s : State) (u : Nat),
      u < 16 → s.rdb (R.CHK_CU_CFG_ENABLE u) = true → s.rd (R.CHK_CU_CFG_POINT u) = 7 ∨ s.rd (R.CHK_CU_CFG_POINT u) = 8 →
      ∃ t, exec (.chkRestart u) s = .next t ∧
        t.checkUnit u = { s.checkUnit u with run := crcStart (chkParams s u) } ∧
        t.rd (R.CHK_CU_RESULT_VALUE u) = crcFinish (chkParams s u) (crcStart (chkParams s u)) % 2 ^ 32 ∧
        (∀ j, j ≠ u → t.checkUnit j = s.checkUnit j) ∧ FieldsOnly [R.CHK_CU_RESULT_VALUE u] s t ∧
        ChangesOnly [.regs, .evq, .sent, .chk] s t)

/-- While PORST_N is asserted every ball is in the state of the column Reset of R512. Outside it: the balls of a group whose
domain is unpowered are in the state of the column Domain off; THERMTRIP leaves THERMTRIP_N driven low; and at a unit with
power a package fault drives the IEC and TDM outputs low. (Derived from R273, R471, R512.) -/
def Obligations.BallStates : Prop :=
    (∀ s : State, s.power.porst = true →
      (∀ n, ballState s (.laneTx n) = .highZ) ∧ (∀ n, ballState s (.laneRx n) = .highZ) ∧ (∀ k, ballState s (.sinkHpd k) = .low) ∧
      (∀ p, ballState s (.aux p) = .highZ) ∧ (∀ d, ballState s (.dramReset d) = .low) ∧ (∀ d, ballState s (.dramBus d) = .highZ) ∧
      (∀ p, ballState s (.iecOut p) = .low) ∧ (∀ p, ballState s (.tdmOut p) = .low) ∧ (∀ n, ballState s (.touchDrive n) = .highZ) ∧
      (∀ c, ballState s (.senseIn c) = .highZ) ∧ (∀ k, ballState s (.timedOut k) = .low) ∧ ballState s .timingIn = .ignored ∧
      ballState s .qspiCs = .high ∧ ballState s .wake = .highZ ∧
      ballState s .thermtrip = if s.rdb R.PWR_STATUS_THERMTRIP then .low else .highZ) ∧
    (∀ s : State, s.power.porst = false →
      (∀ n, s.powered (2 + n / 32) = false → ballState s (.laneTx n) = .highZ ∧ ballState s (.laneRx n) = .highZ) ∧
      (∀ d, s.powered (11 + 5 * d) = false → ballState s (.dramReset d) = .low ∧ ballState s (.dramBus d) = .highZ) ∧
      (s.powered 6 = false → (∀ p, ballState s (.iecOut p) = .pulledLow) ∧ (∀ p, ballState s (.tdmOut p) = .pulledLow) ∧
        (∀ n, ballState s (.touchDrive n) = .highZ) ∧ ∀ c, ballState s (.senseIn c) = .highZ)) ∧
    (∀ (s : State) (k : Nat), k < 24 → ∃ t, exec (.thermtrip k) s = .next t ∧ ballState t .thermtrip = .low) ∧
    (∀ s : State, s.power.porst = false → s.powered 6 = true → s.rdb R.WDN_STATUS_PKG_FAULT = true →
      (∀ p, s.rd (R.AUD_IEC_CFG_MODE p) = 2 → ballState s (.iecOut p) = .low) ∧
      (∀ p, s.rdb (R.AUD_TDM_CFG_DIR p) = true → ballState s (.tdmOut p) = .low))

/-- When the controller of a channel chooses a data command, it is one of those that are ready. If a ready request is of a port
in panic, so is the chosen one. With none in panic, if a ready request is older than AGE_LIMIT, so is the chosen one. With
neither, the chosen one belongs to the reads or to the writes as the turn has it, no ready request of them has a higher
matrix level, and none of its level hits an open row unless it does too. With a forced refresh due it chooses none. (Derived
from R335, R340, R344.) -/
def Obligations.CommandOrder : Prop :=
    (∀ (s : State) (c : Nat) (o : Outstanding), commandNext s c = some o → o ∈ readyAt s c ∧ (s.chan c).owed.any (fun n => decide (8 ≤ n)) = false) ∧
    (∀ (s : State) (c : Nat) (o p : Outstanding), commandNext s c = some o → p ∈ readyAt s c → inPanic s p.access.src = true →
      inPanic s o.access.src = true) ∧
    (∀ (s : State) (c : Nat) (o p : Outstanding), commandNext s c = some o → p ∈ readyAt s c → (∀ q ∈ readyAt s c, inPanic s q.access.src = false) → p.arrivedNs + 100 * max 1 (s.rd R.HRT_SCHED_AGE_LIMIT) < s.monoNs →
      o.arrivedNs + 100 * max 1 (s.rd R.HRT_SCHED_AGE_LIMIT) < s.monoNs) ∧
    (∀ (s : State) (c : Nat) (o p : Outstanding), commandNext s c = some o → p ∈ readyAt s c → (∀ q ∈ readyAt s c, inPanic s q.access.src = false) → (∀ q ∈ readyAt s c, s.monoNs ≤ q.arrivedNs + 100 * max 1 (s.rd R.HRT_SCHED_AGE_LIMIT)) →
      o.access.write = writesTurn s c ∧ (p.access.write = writesTurn s c → requestLevel s p ≤ requestLevel s o ∧
        (requestLevel s p = requestLevel s o → rowHit s c p.access.addr = true → rowHit s c o.access.addr = true)))

/-- The blocks of a frame of at least 7 bytes: the first is a start block that carries the first 7 bytes; each next 8 bytes make
a data block, lowest byte first; the last is the terminate block of the number of bytes left, which carries them; there are
no others. (Derived from R417.) -/
def Obligations.FrameBlocks : Prop :=
    (∀ m : List Byte, 7 ≤ m.length →
      (frameBlocks m).length = (m.length - 7) / 8 + 2 ∧ (frameBlocks m)[0]? = some (2, ofLeBytes (0x78 :: m.take 7)) ∧
      (∀ k, k < (m.length - 7) / 8 → (frameBlocks m)[k + 1]? = some (1, ofLeBytes ((m.drop (7 + 8 * k)).take 8))) ∧
      (frameBlocks m)[(m.length - 7) / 8 + 1]? =
        some (2, ofLeBytes (endType ((m.length - 7) % 8) :: m.drop (7 + 8 * ((m.length - 7) / 8)))))

/-- Every candidate of a block lies within ±2,048 pixels across and ±512 down, and the zero vector is among them. Of a list of
candidates the chosen one is of the list and costs no more than any. (Derived from R308, R309.) -/
def Obligations.SearchCandidates : Prop :=
    (∀ (m : MotionFrame) (done : List (Nat × Option Vec)) (b : Nat),
      (0, 0) ∈ candidateVectors m done b ∧ ∀ v ∈ candidateVectors m done b,
        -8192 ≤ v.1 ∧ v.1 ≤ 8192 ∧ -2048 ≤ v.2 ∧ v.2 ≤ 2048) ∧
    (∀ (cost : Vec → Nat) (l : List Vec) (v : Vec), leastBy cost l = some v → v ∈ l ∧ ∀ w ∈ l, cost v ≤ cost w)
end

