-- ==== Sys2Proof/Laws/Closed.lean ====
section
/-!
SUPPORT. One walk over the machine for all of its frames and invariants. `Closed K P` says that the property `P` of states
survives every elementary update of the parts in `K`; a law `Closed.f` of an operation `f` says that `P` then survives `f`. With
`P` a canonical form such laws give invariants, with `P` the agreement with an earlier state they give frames. The laws of the
shared operations stand in Laws/Ops.lean.
-/
namespace Sys2Proof.Machine

/-- The property `P` survives every elementary update of the parts in `K`. -/
structure Closed (K : List Part) (P : State → Prop) : Prop where
  word : .regs ∈ K → ∀ (s : State) a w, P s → P { s with regs := s.regs.set resetWord a w }
  dropWords : .regs ∈ K → ∀ (s : State) t, List.Sublist t s.regs → P s → P { s with regs := t }
  shadowWord : .shadow ∈ K → ∀ (s : State) a w, P s → P { s with shadow := s.shadow.set resetWord a w }
  dropShadow : .shadow ∈ K → ∀ (s : State) t, List.Sublist t s.shadow → P s → P { s with shadow := t }
  setSeal : .sealed ∈ K → ∀ s : State, P s → P { s with sealed := some s.shadow }
  clearSeal : .sealed ∈ K → ∀ s : State, P s → P { s with sealed := none }
  setSecNs : .clock ∈ K → ∀ (s : State) sec ns, sec < 2 ^ 48 → ns < 1000000000 → P s →
    P { s with time := { s.time with sec := sec, ns := ns } }
  setFrac : .clock ∈ K → ∀ (s : State) frac, frac < 2 ^ 32 → P s → P { s with time := { s.time with frac := frac } }
  timers : .timers ∈ K → ∀ (s : State) (o : TimeState), o.sec = s.time.sec → o.ns = s.time.ns → o.frac = s.time.frac →
    P s → P { s with time := o }
  store : .bytes ∈ K → ∀ (s : State) a bs, .mem ∈ K ∨ bs.length < 64 → P s → P (s.memWrite a bs)
  dropBytes : .bytes ∈ K → ∀ (s : State) t, List.Sublist t s.mem.bytes → P s → P { s with mem := { s.mem with bytes := t } }
  mem : .mem ∈ K → ∀ (s : State) (o : MemState), o.bytes = s.mem.bytes → P s → P { s with mem := o }
  evq : .evq ∈ K → ∀ (s : State) o, P s → P { s with evq := o }
  tick : .tick ∈ K → ∀ (s : State) o, P s → P { s with tick := o }
  clap : .clap ∈ K → ∀ (s : State) o, P s → P { s with clap := o }
  permit : .permit ∈ K → ∀ (s : State) o, P s → P { s with protectionApplied := o }
  audio : .audio ∈ K → ∀ (s : State) o, P s → P { s with audio := o }
  touch : .touch ∈ K → ∀ (s : State) o, P s → P { s with touch := o }
  chk : .chk ∈ K → ∀ (s : State) o, P s → P { s with chk := o }
  power : .power ∈ K → ∀ (s : State) o, P s → P { s with power := o }
  comp : .comp ∈ K → ∀ (s : State) o, P s → P { s with comp := o }
  codec : .codec ∈ K → ∀ (s : State) o, P s → P { s with codec := o }
  faults : .faults ∈ K → ∀ (s : State) o, P s → P { s with faults := o }
  damper : .damper ∈ K → ∀ (s : State) o, P s → P { s with damper := o }
  inj : .inj ∈ K → ∀ (s : State) o, P s → P { s with inj := o }
  lanes : .lanes ∈ K → ∀ (s : State) o, P s → P { s with lanes := o }
  ports : .ports ∈ K → ∀ (s : State) o, P s → P { s with ports := o }
  links : .links ∈ K → ∀ (s : State) o, P s → P { s with links := o }
  crl : .crl ∈ K → ∀ (s : State) o, P s → P { s with crl := o }
  img : .img ∈ K → ∀ (s : State) o, P s → P { s with img := o }
  fuses : .fuses ∈ K → ∀ (s : State) o, P s → P { s with fuses := o }
  send : .sent ∈ K → ∀ (s : State) m, P s → P { s with sent := s.sent ++ [m] }
  free : .free ∈ K → ∀ (s : State) o, P s → P { s with freeCount := o }

/-- What survives more updates survives fewer. -/
theorem Closed.mono {K K' : List Part} {P : State → Prop} (h : Closed K P) (hs : K' ⊆ K) : Closed K' P where
  word hk := h.word (hs hk)
  dropWords hk := h.dropWords (hs hk)
  shadowWord hk := h.shadowWord (hs hk)
  dropShadow hk := h.dropShadow (hs hk)
  setSeal hk := h.setSeal (hs hk)
  clearSeal hk := h.clearSeal (hs hk)
  setSecNs hk := h.setSecNs (hs hk)
  setFrac hk := h.setFrac (hs hk)
  timers hk := h.timers (hs hk)
  store hk s a bs hb := h.store (hs hk) s a bs (hb.imp_left fun x => hs x)
  dropBytes hk := h.dropBytes (hs hk)
  mem hk := h.mem (hs hk)
  evq hk := h.evq (hs hk)
  tick hk := h.tick (hs hk)
  clap hk := h.clap (hs hk)
  permit hk := h.permit (hs hk)
  audio hk := h.audio (hs hk)
  touch hk := h.touch (hs hk)
  chk hk := h.chk (hs hk)
  power hk := h.power (hs hk)
  comp hk := h.comp (hs hk)
  codec hk := h.codec (hs hk)
  faults hk := h.faults (hs hk)
  damper hk := h.damper (hs hk)
  inj hk := h.inj (hs hk)
  lanes hk := h.lanes (hs hk)
  ports hk := h.ports (hs hk)
  links hk := h.links (hs hk)
  crl hk := h.crl (hs hk)
  img hk := h.img (hs hk)
  fuses hk := h.fuses (hs hk)
  send hk := h.send (hs hk)
  free hk := h.free (hs hk)

/-! ### Control structure -/

theorem closed_ite {P : State → Prop} {c : Prop} [Decidable c] {a b : State} (ha : P a) (hb : P b) : P (if c then a else b) := by
  split <;> assumption

theorem closed_foldl {α : Type} {P : State → Prop} {f : State → α → State} {l : List α} {s : State}
    (hf : ∀ t x, P t → P (f t x)) (hs : P s) : P (l.foldl f s) := by
  induction l generalizing s with
  | nil => exact hs
  | cons x l ih => exact ih (hf s x hs)

theorem closed_foldl_snd {α β : Type} {P : State → Prop} {f : β × State → α → β × State} {l : List α} {a : β × State}
    (hf : ∀ b t x, P t → P (f (b, t) x).2) (hs : P a.2) : P (l.foldl f a).2 := by
  induction l generalizing a with
  | nil => exact hs
  | cons x l ih => exact ih (hf a.1 a.2 x hs)

theorem closed_foldl_fst {α β : Type} {P : State → Prop} {f : State × β → α → State × β} {l : List α} {a : State × β}
    (hf : ∀ t b x, P t → P (f (t, b) x).1) (hs : P a.1) : P (l.foldl f a).1 := by
  induction l generalizing a with
  | nil => exact hs
  | cons x l ih => exact ih (hf a.1 a.2 x hs)

theorem closed_foldl_trd {α β γ : Type} {P : State → Prop} {f : β × γ × State → α → β × γ × State} {l : List α}
    {a : β × γ × State} (hf : ∀ b c t x, P t → P (f (b, c, t) x).2.2) (hs : P a.2.2) : P (l.foldl f a).2.2 := by
  induction l generalizing a with
  | nil => exact hs
  | cons x l ih => exact ih (hf a.1 a.2.1 a.2.2 x hs)

theorem closed_when {P : State → Prop} {s : State} {c : Bool} {f : State → State} (hf : P s → P (f s)) (hs : P s) :
    P (s.when c f) := by
  unfold State.when; split
  · exact hf hs
  · exact hs

theorem closed_snd {α : Type} {P : State → Prop} {x : α × State} {a : α} {t : State} (e : x = (a, t)) (h : P x.2) : P t := by
  subst e; exact h

theorem closed_fst {α : Type} {P : State → Prop} {x : State × α} {a : α} {t : State} (e : x = (t, a)) (h : P x.1) : P t := by
  subst e; exact h

theorem closed_trd {α β : Type} {P : State → Prop} {x : α × β × State} {a : α} {b : β} {t : State} (e : x = (a, b, t))
    (h : P x.2.2) : P t := by
  subst e; exact h

theorem closed_fourth {α β γ : Type} {P : State → Prop} {x : α × β × γ × State} {a : α} {b : β} {c : γ} {t : State}
    (e : x = (a, b, c, t)) (h : P x.2.2.2) : P t := by
  subst e; exact h

theorem closed_some_snd {α : Type} {P : State → Prop} {x : Option (α × State)} {a : α} {t : State} (e : x = some (a, t))
    (h : ∀ p ∈ x, P p.2) : P t := h (a, t) e

/-! ### Updates of several parts at once -/

theorem Closed.tick_comp {K : List Part} {P : State → Prop} (h : Closed K P) (h1 : .tick ∈ K) (h2 : .comp ∈ K) (s : State) a b
    (hs : P s) : P { s with tick := a, comp := b } := h.comp h2 _ b (h.tick h1 _ a hs)

theorem Closed.power_faults {K : List Part} {P : State → Prop} (h : Closed K P) (h1 : .power ∈ K) (h2 : .faults ∈ K) (s : State)
    a b (hs : P s) : P { s with power := a, faults := b } := h.faults h2 _ b (h.power h1 _ a hs)

theorem Closed.regs_shadow {K : List Part} {P : State → Prop} (h : Closed K P) (h1 : .regs ∈ K) (h2 : .shadow ∈ K) (s : State)
    a v b w (hs : P s) : P { s with regs := s.regs.set resetWord a v, shadow := s.shadow.set resetWord b w } :=
  h.shadowWord h2 _ b w (h.word h1 _ a v hs)

end Sys2Proof.Machine
end

