-- ==== Sys2Proof/Laws/Tab.lean ====
section
/-!
SUPPORT. The sparse table: reading what was set, what setting leaves alone, and that setting and leaving out keep the canonical
form.
-/
namespace Sys2Proof

variable {α : Type} [DecidableEq α]

/-- Every key of the table lies above `lo`. -/
def Tab.above (lo : Option Nat) (j : Nat) : Bool := match lo with | none => true | some l => decide (l < j)

theorem Tab.wfAbove_cons (d : Nat → α) (lo : Option Nat) (j : Nat) (v : α) (t : Tab α) :
    Tab.wfAbove d lo ((j, v) :: t) = (Tab.above lo j && decide (v ≠ d j) && Tab.wfAbove d (some j) t) := by
  cases lo <;> rfl

theorem Tab.wfAbove_mono (d : Nat → α) {lo lo' : Option Nat} (h : ∀ j, Tab.above lo' j = true → Tab.above lo j = true) :
    ∀ t : Tab α, Tab.wfAbove d lo' t = true → Tab.wfAbove d lo t = true
  | [], _ => rfl
  | (j, v) :: t, ht => by
    rw [Tab.wfAbove_cons] at ht ⊢
    simp only [Bool.and_eq_true] at ht ⊢
    exact ⟨⟨h j ht.1.1, ht.1.2⟩, ht.2⟩

theorem Tab.get_drop {α : Type} (d : Nat → α) : ∀ (t : Tab α) (k i : Nat),
    Tab.get d (Tab.drop t k) i = if i = k then d k else Tab.get d t i
  | [], k, i => by by_cases h : i = k <;> simp [Tab.drop, Tab.get, h]
  | (j, w) :: t, k, i => by
    have ih := Tab.get_drop d t k i
    by_cases hj : j = k
    · by_cases hi : i = k
      · simp [Tab.drop, hj, hi] at ih ⊢; exact ih
      · simp [Tab.drop, hj, hi, Tab.get, Ne.symm hi] at ih ⊢; exact ih
    · by_cases hji : j = i
      · simp [Tab.drop, Tab.get, hji, show i ≠ k from hji ▸ hj]
      · simp [Tab.drop, hj, Tab.get, hji, ih]

theorem Tab.get_put {α : Type} (d : Nat → α) : ∀ (t : Tab α) (k i : Nat) (v : α),
    Tab.get d (Tab.put t k v) i = if i = k then v else Tab.get d t i
  | [], k, i, v => by
    by_cases h : i = k
    · simp [Tab.put, Tab.get, h]
    · simp [Tab.put, Tab.get, h, Ne.symm h]
  | (j, w) :: t, k, i, v => by
    have ih := Tab.get_put d t k i v
    by_cases hkj : k < j
    · by_cases hi : i = k
      · simp [Tab.put, hkj, Tab.get, hi]
      · simp [Tab.put, hkj, Tab.get, hi, Ne.symm hi]
    · by_cases hj : j = k
      · by_cases hi : i = k
        · simp [Tab.put, hj, Tab.get, hi]
        · simp [Tab.put, hj, Tab.get, hi, Ne.symm hi]
      · by_cases hji : j = i
        · subst hji; simp [Tab.put, hkj, hj, Tab.get]
        · simp [Tab.put, hkj, hj, Tab.get, hji, ih]

/-- Reading after setting key `k` gives the new value at `k` and the old values elsewhere, canonical or not. -/
theorem Tab.get_set (d : Nat → α) (t : Tab α) (k i : Nat) (v : α) :
    Tab.get d (Tab.set d t k v) i = if i = k then v else Tab.get d t i := by
  unfold Tab.set
  split
  · rename_i h; rw [Tab.get_drop, ← h]
  · rw [Tab.get_put]

@[simp] theorem Tab.get_set_same (d : Nat → α) (t : Tab α) (k : Nat) (v : α) : Tab.get d (Tab.set d t k v) k = v := by
  rw [Tab.get_set, if_pos rfl]

/-- Setting another key changes nothing at `i`. -/
theorem Tab.get_set_ne (d : Nat → α) (t : Tab α) (k i : Nat) (v : α) (hi : i ≠ k) :
    Tab.get d (Tab.set d t k v) i = Tab.get d t i := by rw [Tab.get_set, if_neg hi]

theorem Tab.sublist_drop {α : Type} : ∀ (t : Tab α) (k : Nat), List.Sublist (Tab.drop t k) t
  | [], _ => .slnil
  | (j, w) :: t, k => by
    unfold Tab.drop
    split
    · exact .cons _ (Tab.sublist_drop t k)
    · exact .cons_cons _ (Tab.sublist_drop t k)

theorem Tab.wfAbove_put (d : Nat → α) : ∀ (t : Tab α) (lo : Option Nat) (k : Nat) (v : α), Tab.wfAbove d lo t = true →
    Tab.above lo k = true → v ≠ d k → Tab.wfAbove d lo (Tab.put t k v) = true
  | [], lo, k, v, _, hk, hv => by simp [Tab.put, Tab.wfAbove_cons, hk, hv, Tab.wfAbove]
  | (j, w) :: t, lo, k, v, h, hk, hv => by
    rw [Tab.wfAbove_cons] at h
    simp only [Bool.and_eq_true] at h
    unfold Tab.put
    by_cases hkj : k < j
    · rw [if_pos hkj, Tab.wfAbove_cons, Tab.wfAbove_cons]
      simp only [Bool.and_eq_true]
      exact ⟨⟨hk, by simpa using hv⟩, ⟨by simpa [Tab.above] using hkj, h.1.2⟩, h.2⟩
    · by_cases hkj2 : j = k
      · subst hkj2
        rw [if_neg hkj, if_pos rfl, Tab.wfAbove_cons]
        simp only [Bool.and_eq_true]
        exact ⟨⟨hk, by simpa using hv⟩, h.2⟩
      · rw [if_neg hkj, if_neg hkj2, Tab.wfAbove_cons]
        simp only [Bool.and_eq_true]
        exact ⟨h.1, Tab.wfAbove_put d t (some j) k v h.2 (by simp only [Tab.above, decide_eq_true_eq]; omega) hv⟩

theorem Tab.wfAbove_sublist (d : Nat → α) : ∀ {t u : Tab α}, List.Sublist t u → ∀ lo, Tab.wfAbove d lo u = true →
    Tab.wfAbove d lo t = true := by
  intro t u h
  induction h with
  | slnil => intro lo _; rfl
  | cons a h ih =>
    intro lo hu
    obtain ⟨j, v⟩ := a
    rw [Tab.wfAbove_cons] at hu
    simp only [Bool.and_eq_true] at hu
    refine ih lo (Tab.wfAbove_mono d (lo' := some j) (fun i hi => ?_) _ hu.2)
    cases lo with
    | none => rfl
    | some l => have := hu.1.1; simp only [Tab.above, decide_eq_true_eq] at *; omega
  | cons_cons a h ih =>
    intro lo hu
    obtain ⟨j, v⟩ := a
    rw [Tab.wfAbove_cons] at hu ⊢
    simp only [Bool.and_eq_true] at hu ⊢
    exact ⟨hu.1, ih _ hu.2⟩

/-- Leaving entries out keeps the canonical form. -/
theorem Tab.wf_sublist (d : Nat → α) {t u : Tab α} (h : List.Sublist t u) (hu : Tab.wf d u = true) : Tab.wf d t = true :=
  Tab.wfAbove_sublist d h none hu

/-- Setting a key keeps the canonical form. -/
theorem Tab.wf_set (d : Nat → α) (t : Tab α) (k : Nat) (v : α) (h : Tab.wf d t = true) : Tab.wf d (Tab.set d t k v) = true := by
  unfold Tab.set
  split
  · exact Tab.wf_sublist d (Tab.sublist_drop t k) h
  · rename_i hv; exact Tab.wfAbove_put d t none k v h rfl hv

end Sys2Proof
end

