-- ==== Sys2Proof/Laws/State.lean ====
section
/-!
SUPPORT. Registers as fields: what a write of a field leaves in that field, in the other fields and in the other words, and
that it changes no other part of the state.
-/
namespace Sys2Proof

theorem putBits_lt (x hi lo v n : Nat) (hx : x < 2 ^ n) (hl : lo ≤ hi) (hh : hi < n) : putBits x hi lo v < 2 ^ n := by
  unfold putBits
  obtain ⟨k, rfl⟩ : ∃ k, n = hi + 1 + k := ⟨n - (hi + 1), by omega⟩
  obtain ⟨m, rfl⟩ : ∃ m, hi = lo + m := ⟨hi - lo, by omega⟩
  have e1 : lo + m + 1 - lo = m + 1 := by omega
  rw [e1]
  have hq : x / 2 ^ (lo + m + 1) < 2 ^ k := by
    rw [Nat.div_lt_iff_lt_mul (by positivity), ← pow_add, add_comm k]; exact hx
  have hv : v % 2 ^ (m + 1) < 2 ^ (m + 1) := Nat.mod_lt _ (by positivity)
  have hr : x % 2 ^ lo < 2 ^ lo := Nat.mod_lt _ (by positivity)
  have h1 : v % 2 ^ (m + 1) * 2 ^ lo + x % 2 ^ lo < 2 ^ (lo + m + 1) := by
    calc v % 2 ^ (m + 1) * 2 ^ lo + x % 2 ^ lo < (v % 2 ^ (m + 1) + 1) * 2 ^ lo := by rw [add_mul]; omega
      _ ≤ 2 ^ (m + 1) * 2 ^ lo := Nat.mul_le_mul_right _ hv
      _ = 2 ^ (lo + m + 1) := by rw [← pow_add]; congr 1; omega
  calc x / 2 ^ (lo + m + 1) * 2 ^ (lo + m + 1) + v % 2 ^ (m + 1) * 2 ^ lo + x % 2 ^ lo
      < (x / 2 ^ (lo + m + 1) + 1) * 2 ^ (lo + m + 1) := by rw [add_mul]; omega
    _ ≤ 2 ^ k * 2 ^ (lo + m + 1) := Nat.mul_le_mul_right _ hq
    _ = 2 ^ (lo + m + 1 + k) := by rw [← pow_add]; congr 1; omega

/-- The three pieces of a word after a field was put into it. -/
theorem putBits_low (x hi lo v : Nat) (hl : lo ≤ hi) : putBits x hi lo v % 2 ^ lo = x % 2 ^ lo := by
  unfold putBits
  obtain ⟨m, rfl⟩ : ∃ m, hi = lo + m := ⟨hi - lo, by omega⟩
  have : 2 ^ (lo + m + 1) = 2 ^ lo * 2 ^ (m + 1) := by rw [← pow_add]; congr 1
  rw [this, ← mul_assoc, mul_right_comm, ← add_mul, Nat.add_comm, Nat.add_mul_mod_self_right, Nat.mod_mod]

theorem putBits_div (x hi lo v : Nat) (hl : lo ≤ hi) :
    putBits x hi lo v / 2 ^ lo = x / 2 ^ (hi + 1) * 2 ^ (hi + 1 - lo) + v % 2 ^ (hi + 1 - lo) := by
  unfold putBits
  obtain ⟨m, rfl⟩ : ∃ m, hi = lo + m := ⟨hi - lo, by omega⟩
  have e1 : lo + m + 1 - lo = m + 1 := by omega
  rw [e1]
  have : 2 ^ (lo + m + 1) = 2 ^ (m + 1) * 2 ^ lo := by rw [← pow_add]; congr 1; omega
  rw [this, ← mul_assoc, ← add_mul]
  rw [Nat.add_comm, Nat.add_mul_div_right _ _ (by positivity)]
  rw [Nat.div_eq_of_lt (Nat.mod_lt _ (by positivity)), Nat.zero_add, ← this]

theorem bits_putBits_same (x hi lo v : Nat) (hl : lo ≤ hi) : bits (putBits x hi lo v) hi lo = v % 2 ^ (hi + 1 - lo) := by
  unfold bits
  rw [putBits_div x hi lo v hl, Nat.add_comm, Nat.add_mul_mod_self_right, Nat.mod_mod]

theorem bits_putBits_below (x hi lo v h l : Nat) (hl : lo ≤ hi) (hd : h < lo) : bits (putBits x hi lo v) h l = bits x h l := by
  unfold bits
  have key : ∀ y : Nat, y / 2 ^ l % 2 ^ (h + 1 - l) = y % 2 ^ lo / 2 ^ l % 2 ^ (h + 1 - l) := by
    intro y
    by_cases hlh : l ≤ h
    · obtain ⟨c, hc⟩ : ∃ c, lo = l + (h + 1 - l) + c := ⟨lo - (h + 1), by omega⟩
      rw [hc, pow_add, pow_add, mul_assoc, Nat.mod_mul_right_div_self, Nat.mod_mul_right_mod]
    · have : h + 1 - l = 0 := by omega
      rw [this]; simp [Nat.mod_one]
  rw [key (putBits x hi lo v), putBits_low x hi lo v hl, ← key]

theorem bits_putBits_above (x hi lo v h l : Nat) (hl : lo ≤ hi) (hd : hi < l) : bits (putBits x hi lo v) h l = bits x h l := by
  unfold bits
  have key : ∀ y : Nat, y / 2 ^ l = y / 2 ^ (hi + 1) / 2 ^ (l - (hi + 1)) := by
    intro y; rw [Nat.div_div_eq_div_mul, ← pow_add]; congr 2; omega
  have e : putBits x hi lo v / 2 ^ (hi + 1) = x / 2 ^ (hi + 1) := by
    have h2 : (2 : Nat) ^ (hi + 1) = 2 ^ lo * 2 ^ (hi + 1 - lo) := by rw [← pow_add]; congr 1; omega
    rw [h2, ← Nat.div_div_eq_div_mul, putBits_div x hi lo v hl, Nat.add_comm, Nat.add_mul_div_right _ _ (by positivity),
      Nat.div_eq_of_lt (Nat.mod_lt _ (by positivity)), Nat.zero_add, ← h2]
  rw [key, e, ← key]

namespace Machine

theorem State.word_wr (s : State) (f : Fld) (v a : Nat) :
    (s.wr f v).word a = if a = f.addr then BitVec.ofNat 32 (putBits (s.word f.addr).toNat f.hi f.lo v) else s.word a :=
  Tab.get_set resetWord s.regs f.addr a _

theorem State.word_wr_ne (s : State) (f : Fld) (v a : Nat) (h : a ≠ f.addr) : (s.wr f v).word a = s.word a :=
  Tab.get_set_ne resetWord s.regs f.addr a _ h

/-- What was written is read, cut to the width of the field. -/
theorem State.rd_wr (s : State) (f : Fld) (v : Nat) (hf : FldOk f) :
    (s.wr f v).rd f = v % 2 ^ (f.hi + 1 - f.lo) := by
  unfold State.rd
  rw [State.word_wr s f v _, if_pos rfl, BitVec.toNat_ofNat,
    Nat.mod_eq_of_lt (putBits_lt _ _ _ _ 32 (s.word f.addr).isLt hf.1 hf.2), bits_putBits_same _ _ _ _ hf.1]

/-- A field that shares no bit with the one written keeps its value. -/
theorem State.rd_wr_apart (s : State) (f g : Fld) (v : Nat) (hf : FldOk f) (hd : FldApart f g) :
    (s.wr f v).rd g = s.rd g := by
  unfold State.rd
  by_cases ha : g.addr = f.addr
  · rw [State.word_wr s f v _, if_pos ha, BitVec.toNat_ofNat,
      Nat.mod_eq_of_lt (putBits_lt _ _ _ _ 32 (s.word f.addr).isLt hf.1 hf.2), ha]
    rcases hd with hd | hd | hd
    · exact absurd ha.symm hd
    · exact bits_putBits_above _ _ _ _ _ _ hf.1 hd
    · exact bits_putBits_below _ _ _ _ _ _ hf.1 hd
  · rw [State.word_wr_ne s f v _ ha]

/-- Writing a field keeps the register words in canonical form. -/
theorem State.wordsWf_wr (s : State) (f : Fld) (v : Nat) (h : wordsWf s.regs = true) : wordsWf (s.wr f v).regs = true :=
  Tab.wf_set resetWord s.regs f.addr _ h

@[simp] theorem State.wr_shadow (s : State) (f : Fld) (v : Nat) : (s.wr f v).shadow = s.shadow := rfl
@[simp] theorem State.wr_sealed (s : State) (f : Fld) (v : Nat) : (s.wr f v).sealed = s.sealed := rfl
@[simp] theorem State.wr_time (s : State) (f : Fld) (v : Nat) : (s.wr f v).time = s.time := rfl
@[simp] theorem State.wr_evq (s : State) (f : Fld) (v : Nat) : (s.wr f v).evq = s.evq := rfl
@[simp] theorem State.wr_tick (s : State) (f : Fld) (v : Nat) : (s.wr f v).tick = s.tick := rfl
@[simp] theorem State.wr_clap (s : State) (f : Fld) (v : Nat) : (s.wr f v).clap = s.clap := rfl
@[simp] theorem State.wr_mem (s : State) (f : Fld) (v : Nat) : (s.wr f v).mem = s.mem := rfl
@[simp] theorem State.wr_protectionApplied (s : State) (f : Fld) (v : Nat) :
    (s.wr f v).protectionApplied = s.protectionApplied := rfl
@[simp] theorem State.wr_audio (s : State) (f : Fld) (v : Nat) : (s.wr f v).audio = s.audio := rfl
@[simp] theorem State.wr_touch (s : State) (f : Fld) (v : Nat) : (s.wr f v).touch = s.touch := rfl
@[simp] theorem State.wr_chk (s : State) (f : Fld) (v : Nat) : (s.wr f v).chk = s.chk := rfl
@[simp] theorem State.wr_power (s : State) (f : Fld) (v : Nat) : (s.wr f v).power = s.power := rfl
@[simp] theorem State.wr_comp (s : State) (f : Fld) (v : Nat) : (s.wr f v).comp = s.comp := rfl
@[simp] theorem State.wr_codec (s : State) (f : Fld) (v : Nat) : (s.wr f v).codec = s.codec := rfl
@[simp] theorem State.wr_faults (s : State) (f : Fld) (v : Nat) : (s.wr f v).faults = s.faults := rfl
@[simp] theorem State.wr_damper (s : State) (f : Fld) (v : Nat) : (s.wr f v).damper = s.damper := rfl
@[simp] theorem State.wr_inj (s : State) (f : Fld) (v : Nat) : (s.wr f v).inj = s.inj := rfl
@[simp] theorem State.wr_lanes (s : State) (f : Fld) (v : Nat) : (s.wr f v).lanes = s.lanes := rfl
@[simp] theorem State.wr_ports (s : State) (f : Fld) (v : Nat) : (s.wr f v).ports = s.ports := rfl
@[simp] theorem State.wr_links (s : State) (f : Fld) (v : Nat) : (s.wr f v).links = s.links := rfl
@[simp] theorem State.wr_crl (s : State) (f : Fld) (v : Nat) : (s.wr f v).crl = s.crl := rfl
@[simp] theorem State.wr_img (s : State) (f : Fld) (v : Nat) : (s.wr f v).img = s.img := rfl
@[simp] theorem State.wr_fuses (s : State) (f : Fld) (v : Nat) : (s.wr f v).fuses = s.fuses := rfl
@[simp] theorem State.wr_sent (s : State) (f : Fld) (v : Nat) : (s.wr f v).sent = s.sent := rfl
@[simp] theorem State.wr_freeCount (s : State) (f : Fld) (v : Nat) : (s.wr f v).freeCount = s.freeCount := rfl
@[simp] theorem State.wr_pending (s : State) (f : Fld) (v : Nat) : (s.wr f v).pending = s.pending := rfl

end Machine
end Sys2Proof
end

