-- ==== Sys2Proof/Laws/Events.lean ====
section
/-!
SUPPORT. The end of a command: entering its events changes the event queue's registers, its window and the pending vectors, what
the queue keeps beside them, and what leaves the device, and nothing else.
-/
namespace Sys2Proof.Machine

/-- `t` is `s` but for the words of the event queue, what it keeps beside them, and what leaves the device. -/
def QueueOnly (s t : State) : Prop :=
  (∀ a, queueOffset a = false → t.word a = s.word a)
    ∧ { t with regs := s.regs, evq := s.evq, sent := s.sent } = s

theorem QueueOnly.refl (s : State) : QueueOnly s s := ⟨fun _ _ => rfl, rfl⟩

theorem QueueOnly.trans {s t u : State} (h : QueueOnly s t) (k : QueueOnly t u) : QueueOnly s u := by
  refine ⟨fun a ha => (k.1 a ha).trans (h.1 a ha), ?_⟩
  have h2 := h.2; have k2 := k.2
  cases s; cases t; cases u
  simp only [State.mk.injEq] at *
  obtain ⟨-, a1, a2, a3, -, a5, a6, a7, a8, a9, a10, a11, a12, a13, a14, a15, a16, a17, a18, a19, a20, a21, a22, a23, -, a25, a26⟩ := h2
  subst a1 a2 a3 a5 a6 a7 a8 a9 a10 a11 a12 a13 a14 a15 a16 a17 a18 a19 a20 a21 a22 a23 a25 a26
  simp_all

theorem QueueOnly.wr (s : State) (f : Fld) (v : Nat) (h : queueOffset f.addr = true) : QueueOnly s (s.wr f v) := by
  refine ⟨fun a ha => State.word_wr_ne s f v a fun e => ?_, rfl⟩
  rw [e, h] at ha; cases ha

theorem QueueOnly.evq (s : State) (o : EvqState) : QueueOnly s { s with evq := o } := ⟨fun _ _ => rfl, rfl⟩

theorem QueueOnly.send (s : State) (m : Sent) : QueueOnly s (s.send m) := ⟨fun _ _ => rfl, rfl⟩

theorem QueueOnly.ite {s t u : State} {c : Prop} [Decidable c] (h : QueueOnly s t) (k : QueueOnly s u) :
    QueueOnly s (if c then t else u) := by split <;> assumption

theorem bits_lt (x h l : Nat) : bits x h l < 2 ^ (h + 1 - l) := Nat.mod_lt _ (by positivity)

theorem QueueOnly.sendVector (s : State) (v : Nat) : QueueOnly s (s.sendVector v) := by
  unfold State.sendVector
  refine .ite (.ite (.evq _ _) (.send _ _)) (.refl _)

theorem QueueOnly.makePending (s : State) (v : Nat) (hv : v < 64) : QueueOnly s (s.makePending v) := by
  unfold State.makePending
  refine .ite (.refl _) (.trans (.wr _ _ _ ?_) (.sendVector _ _))
  have : v / 32 = 0 ∨ v / 32 = 1 := by omega
  rcases this with h | h <;> simp [vectorBit, h, R.GLB_INT_PEND_PENDING, queueOffset]

theorem queueOffset_event (i j : Nat) (hi : i < 1024) (hj : j < 4) : queueOffset (R.GLB_EVENT_WORD i j).addr = true := by
  have h1 : 0x8000 ≤ 0x008000 + 0x10 * i + 0x4 * j := by omega
  have h2 : 0x008000 + 0x10 * i + 0x4 * j < 0xC000 := by omega
  simp [queueOffset, R.GLB_EVENT_WORD, h1, h2]

theorem QueueOnly.pushRecord (s : State) (st code object : Nat) : QueueOnly s (s.pushRecord st code object) := by
  have hi : s.rd R.GLB_EVQ_WR_INDEX < 1024 := bits_lt _ 9 0
  unfold State.pushRecord
  generalize s.rd R.GLB_EVQ_WR_INDEX = i at hi
  extract_lets i' s1 s2 s3 s4 s5 s6 e s7 s8
  have h5 : QueueOnly s s5 :=
    .trans (.wr _ _ _ (queueOffset_event i 0 hi (by omega))) (.trans (.wr _ _ _ (queueOffset_event i 1 hi (by omega)))
      (.trans (.wr _ _ _ (queueOffset_event i 2 hi (by omega))) (.trans (.wr _ _ _ (queueOffset_event i 3 hi (by omega)))
        (.wr s4 R.GLB_EVQ_WR_INDEX _ (by decide)))))
  have h6 : QueueOnly s s6 := .trans h5 (by unfold s6; exact .ite (.wr s5 R.GLB_EVQ_WR_LAP _ (by decide)) (.refl _))
  have h7 : QueueOnly s s7 := .trans h6 (by unfold s7; exact .evq _ _)
  have h8 : QueueOnly s s8 := by
    refine .trans h7 ?_
    unfold s8
    exact .ite (.makePending _ _ (lt_of_lt_of_eq (bits_lt _ _ _)
      (by rw [show 8 * (code / 256 % 4) + 5 + 1 - 8 * (code / 256 % 4) = 6 by omega]; rfl))) (.refl _)
  exact .trans h8 (.ite (.makePending _ _ (bits_lt _ 5 0)) (.refl _))

theorem QueueOnly.flushLost (s : State) : QueueOnly s s.flushLost := by
  unfold State.flushLost
  exact .ite (.refl _) (.trans (.evq _ _) (.pushRecord _ _ _ _))

theorem QueueOnly.enterEvent (s : State) (e : Nat × Nat × Nat) : QueueOnly s (s.enterEvent e) := by
  unfold State.enterEvent
  refine .trans (.flushLost s) ?_
  generalize s.flushLost = u
  exact .ite (.trans (.wr u R.GLB_EVQ_STAT_OVERFLOW _ (by decide)) (.trans (.wr _ R.GLB_EVQ_STAT_LOST _ (by decide)) (.evq _ _))) (.pushRecord _ _ _ _)

theorem QueueOnly.foldl {α : Type} (f : State → α → State) (h : ∀ u a, QueueOnly u (f u a)) (l : List α) (s : State) :
    QueueOnly s (l.foldl f s) := by
  induction l generalizing s with
  | nil => exact .refl s
  | cons a l ih => exact .trans (h s a) (ih _)

theorem QueueOnly.reorderTail (s : State) (es : List (Nat × Nat × Nat)) : QueueOnly s (s.reorderTail es) :=
  .foldl _ (fun u p => by
    have h : ∀ j, j < 3 → QueueOnly u (u.wr (R.GLB_EVENT_WORD ((s.rd R.GLB_EVQ_WR_INDEX + 1024 * (1 + es.length) - es.length + p.2)
        % 1024) j) (eventWord p.1 j)) := fun j hj => .wr _ _ _ (queueOffset_event _ j (Nat.mod_lt _ (by decide)) (by omega))
    refine .trans (h 0 (by decide)) (.trans (.wr _ _ _ ?_) (.wr _ _ _ ?_)) <;>
      exact queueOffset_event _ _ (Nat.mod_lt _ (by decide)) (by decide)) _ _

/-- The events of a command change nothing but the event queue and what leaves the device. -/
theorem QueueOnly.flushEvents (s : State) : QueueOnly s s.flushEvents := by
  unfold State.flushEvents
  refine .ite (.refl _) ?_
  have h (es : List (Nat × Nat × Nat)) : QueueOnly s (es.foldl State.enterEvent { s with evq := { s.evq with cycle := [] } }) :=
    .trans (.evq _ _) (.foldl _ QueueOnly.enterEvent _ _)
  exact .trans (h _) (.trans (.ite (.refl _) (.reorderTail _ _)) (.evq _ _))

/-- A part other than the registers, the queue and what leaves the device is as before. -/
theorem QueueOnly.same {s t : State} (h : QueueOnly s t) : ChangesOnly [.regs, .evq, .sent] s t := by
  intro p hp
  have h2 := h.2
  cases s; cases t
  simp only [State.mk.injEq] at h2
  obtain ⟨-, a1, a2, a3, -, a5, a6, a7, a8, a9, a10, a11, a12, a13, a14, a15, a16, a17, a18, a19, a20, a21, a22, a23, -, a25, a26⟩ := h2
  subst a1 a2 a3 a5 a6 a7 a8 a9 a10 a11 a12 a13 a14 a15 a16 a17 a18 a19 a20 a21 a22 a23 a25 a26
  cases p <;> first | rfl | exact ⟨rfl, rfl, rfl⟩ | (exfalso; revert hp; decide)

/-- A field outside the event queue is as before. -/
theorem QueueOnly.rd {s t : State} (h : QueueOnly s t) (f : Fld) (hf : queueOffset f.addr = false) : t.rd f = s.rd f := by
  unfold State.rd; rw [h.1 _ hf]

@[simp] theorem State.flushEvents_rd (s : State) (f : Fld) (hf : queueOffset f.addr = false) : s.flushEvents.rd f = s.rd f :=
  (QueueOnly.flushEvents s).rd f hf

end Sys2Proof.Machine
end

