-- ==== Sys2Proof/Laws/Memory.lean ====
section
/-!
SUPPORT. Hearth memory: a store is read back, leaves every other byte alone, and keeps the canonical form.
-/
namespace Sys2Proof.Machine

/-- `bs[i - a]` where the store of `bs` from `a` covers `i`. -/
def storedAt (a : Nat) (bs : List Byte) (i : Nat) : Option Byte := if a ≤ i then bs[i - a]? else none

theorem get_newCells : ∀ (bs : List Byte) (a i : Nat), Tab.get memDefault (newCells a bs) i = (storedAt a bs i).getD (memDefault i)
  | [], a, i => by unfold storedAt; split <;> rfl
  | b :: bs, a, i => by
    have ih := get_newCells bs (a + 1) i
    by_cases hi : i = a
    · subst hi
      have hz : storedAt (i + 1) bs i = none := by unfold storedAt; rw [if_neg (by omega)]
      rw [hz] at ih
      have hs : storedAt i (b :: bs) i = some b := by unfold storedAt; simp
      rw [hs]
      unfold newCells
      split
      · rename_i hb; rw [ih, hb]; rfl
      · simp [Tab.get]
    · have hs : storedAt a (b :: bs) i = storedAt (a + 1) bs i := by
        unfold storedAt
        by_cases h1 : a ≤ i
        · rw [if_pos h1, if_pos (by omega), show i - a = (i - (a + 1)) + 1 by omega, List.getElem?_cons_succ]
        · rw [if_neg h1, if_neg (by omega)]
      rw [hs, ← ih, newCells]
      split
      · rfl
      · simp [Tab.get, Ne.symm hi]

theorem newCells_above : ∀ (bs : List Byte) (a lo : Nat), lo < a → Tab.wfAbove memDefault (some lo) (newCells a bs) = true
  | [], _, _, _ => rfl
  | b :: bs, a, lo, h => by
    unfold newCells
    split
    · exact newCells_above bs (a + 1) lo (by omega)
    · rename_i hb
      rw [Tab.wfAbove_cons]
      simp only [Bool.and_eq_true, Tab.above, decide_eq_true_eq]
      exact ⟨⟨h, hb⟩, newCells_above bs (a + 1) a (by omega)⟩

theorem mem_newCells : ∀ (bs : List Byte) (a : Nat) (p : Nat × Byte), p ∈ newCells a bs → a ≤ p.1 ∧ p.1 < a + bs.length
  | [], _, _, h => by cases h
  | b :: bs, a, p, h => by
    unfold newCells at h
    split at h
    · have := mem_newCells bs (a + 1) p h; simp only [List.length_cons]; omega
    · rcases List.mem_cons.1 h with h | h
      · subst h; simp
      · have := mem_newCells bs (a + 1) p h; simp only [List.length_cons]; omega

/-- The canonical form as an order on the entries. -/
theorem wfAbove_iff {α : Type} [DecidableEq α] (d : Nat → α) : ∀ (t : Tab α) (lo : Option Nat), Tab.wfAbove d lo t = true ↔
    (∀ p ∈ t, Tab.above lo p.1 = true ∧ p.2 ≠ d p.1) ∧ t.Pairwise (fun p q => p.1 < q.1)
  | [], lo => by simp [Tab.wfAbove]
  | (j, v) :: t, lo => by
    rw [Tab.wfAbove_cons]
    simp only [Bool.and_eq_true, decide_eq_true_eq, List.mem_cons, forall_eq_or_imp, List.pairwise_cons,
      wfAbove_iff d t (some j), Tab.above]
    constructor
    · rintro ⟨⟨h1, h2⟩, h3, h4⟩
      refine ⟨⟨⟨h1, h2⟩, fun p hp => ⟨?_, (h3 p hp).2⟩⟩, fun p hp => (h3 p hp).1, h4⟩
      have := (h3 p hp).1
      cases lo with
      | none => rfl
      | some l => simp only [decide_eq_true_eq] at *; omega
    · rintro ⟨⟨⟨h1, h2⟩, h3⟩, h4, h5⟩
      exact ⟨⟨h1, h2⟩, fun p hp => ⟨h4 p hp, (h3 p hp).2⟩, h5⟩

theorem wf_iff {α : Type} [DecidableEq α] (d : Nat → α) (t : Tab α) : Tab.wf d t = true ↔
    (∀ p ∈ t, p.2 ≠ d p.1) ∧ t.Pairwise (fun p q => p.1 < q.1) := by
  unfold Tab.wf
  rw [wfAbove_iff]
  simp [Tab.above]

theorem get_append {α : Type} (d : Nat → α) : ∀ (t u : Tab α) (i : Nat), (∀ p ∈ t, p.1 ≠ i) → Tab.get d (t ++ u) i = Tab.get d u i
  | [], _, _, _ => rfl
  | (j, v) :: t, u, i, h => by
    have hj : j ≠ i := h (j, v) (by simp)
    simp only [List.cons_append, Tab.get, if_neg hj]
    exact get_append d t u i fun p hp => h p (by simp [hp])

theorem get_append_left {α : Type} (d : Nat → α) : ∀ (t u : Tab α) (i : Nat), (∀ p ∈ u, p.1 ≠ i) → Tab.get d (t ++ u) i = Tab.get d t i
  | [], u, i, h => by
    induction u with
    | nil => rfl
    | cons p u ih => simp only [List.nil_append, Tab.get, if_neg (h p (by simp))] at ih ⊢; exact ih fun q hq => h q (by simp [hq])
  | (j, v) :: t, u, i, h => by
    simp only [List.cons_append, Tab.get]
    split
    · rfl
    · exact get_append_left d t u i h

theorem get_filter {α : Type} (d : Nat → α) (p : Nat → Bool) : ∀ (t : Tab α) (i : Nat), p i = true →
    Tab.get d (t.filter fun q => p q.1) i = Tab.get d t i
  | [], _, _ => rfl
  | (j, v) :: t, i, h => by
    by_cases hj : p j = true
    · simp only [List.filter_cons, hj, if_true, Tab.get, get_filter d p t i h]
    · have hji : j ≠ i := fun e => hj (e ▸ h)
      simp [hj, if_neg hji, Tab.get, get_filter d p t i h]

/-- Reading a byte after a store: the byte stored where the store covers it, else what it read before. -/
theorem get_storeCells (t : Tab Byte) (a i : Nat) (bs : List Byte) :
    Tab.get memDefault (storeCells t a bs) i = (storedAt a bs i).getD (Tab.get memDefault t i) := by
  unfold storeCells
  by_cases h1 : i < a
  · have hs : storedAt a bs i = none := by unfold storedAt; rw [if_neg (by omega)]
    rw [List.append_assoc, get_append_left, hs]
    · exact get_filter memDefault (fun j => decide (j < a)) t i (by simpa using h1)
    · intro p hp
      rcases List.mem_append.1 hp with hp | hp
      · have := mem_newCells bs a p hp; omega
      · have := (List.mem_filter.1 hp).2; simp only [decide_eq_true_eq] at this; omega
  · by_cases h2 : i < a + bs.length
    · have hs : ∃ b, storedAt a bs i = some b := by
        unfold storedAt; rw [if_pos (by omega), List.getElem?_eq_getElem (by omega)]; exact ⟨_, rfl⟩
      obtain ⟨b, hb⟩ := hs
      rw [List.append_assoc, get_append, get_append_left, get_newCells, hb]
      · rfl
      · intro p hp; have := (List.mem_filter.1 hp).2; simp only [decide_eq_true_eq] at this; omega
      · intro p hp; have := (List.mem_filter.1 hp).2; simp only [decide_eq_true_eq] at this; omega
    · have hs : storedAt a bs i = none := by
        unfold storedAt; rw [if_pos (by omega), List.getElem?_eq_none (by omega)]
      rw [get_append, hs]
      · exact get_filter memDefault (fun j => decide (a + bs.length ≤ j)) t i (by simp; omega)
      · intro p hp
        rcases List.mem_append.1 hp with hp | hp
        · have := (List.mem_filter.1 hp).2; simp only [decide_eq_true_eq] at this; omega
        · have := mem_newCells bs a p hp; omega

/-- A store keeps the canonical form of memory. -/
theorem wf_storeCells (t : Tab Byte) (a : Nat) (bs : List Byte) (h : Memory.wf t = true) : Memory.wf (storeCells t a bs) = true := by
  unfold Memory.wf at *
  rw [wf_iff] at h ⊢
  unfold storeCells
  have hn := (wfAbove_iff memDefault (newCells a bs) none).1 (by
    cases a with
    | zero => exact Tab.wfAbove_mono memDefault (lo' := none) (fun _ _ => rfl) _ (by
        clear h
        cases bs with
        | nil => rfl
        | cons b bs =>
          unfold newCells
          split
          · exact Tab.wfAbove_mono memDefault (lo' := some 0) (fun _ _ => rfl) _ (newCells_above bs 1 0 (by omega))
          · rename_i hb
            rw [Tab.wfAbove_cons]
            simp only [Bool.and_eq_true, decide_eq_true_eq]
            exact ⟨⟨rfl, hb⟩, newCells_above bs 1 0 (by omega)⟩)
    | succ a => exact Tab.wfAbove_mono memDefault (lo' := some a) (fun _ _ => rfl) _ (newCells_above bs (a + 1) a (by omega)))
  refine ⟨fun p hp => ?_, ?_⟩
  · rcases List.mem_append.1 hp with hp | hp
    · rcases List.mem_append.1 hp with hp | hp
      · exact h.1 p (List.mem_filter.1 hp).1
      · exact (hn.1 p hp).2
    · exact h.1 p (List.mem_filter.1 hp).1
  · rw [List.pairwise_append, List.pairwise_append]
    refine ⟨⟨h.2.filter _, hn.2, fun p hp q hq => ?_⟩, h.2.filter _, fun p hp q hq => ?_⟩
    · have h1 := (List.mem_filter.1 hp).2; have h2 := mem_newCells bs a q hq
      simp only [decide_eq_true_eq] at h1; omega
    · have h2 := (List.mem_filter.1 hq).2
      simp only [decide_eq_true_eq] at h2
      rcases List.mem_append.1 hp with hp | hp
      · have h1 := (List.mem_filter.1 hp).2; simp only [decide_eq_true_eq] at h1; omega
      · have h1 := mem_newCells bs a p hp; omega

end Sys2Proof.Machine
end

