-- ==== Sys2Proof/Laws/Ops.lean ====
section
/-!
SUPPORT. The operations that every block shares: what an update of a hidden record leaves in the records and in the registers,
and the laws by which a property of states survives each operation.
-/
namespace Sys2Proof.Machine

/-! ### Hidden records: what was set is read, the others and the registers stay -/

@[simp] theorem State.setTmo_tmo (s : State) (k i : Nat) (o : TmoState) : (s.setTmo k o).tmo i = if i = k then o else s.tmo i :=
  Tab.get_set _ _ _ _ _
@[simp] theorem State.setTmo_rd (s : State) (k : Nat) (o : TmoState) (f : Fld) : (s.setTmo k o).rd f = s.rd f := rfl
@[simp] theorem State.setTmc_tmc (s : State) (k i : Nat) (o : TmcState) : (s.setTmc k o).tmc i = if i = k then o else s.tmc i :=
  Tab.get_set _ _ _ _ _
@[simp] theorem State.setTmc_rd (s : State) (k : Nat) (o : TmcState) (f : Fld) : (s.setTmc k o).rd f = s.rd f := rfl
@[simp] theorem State.setRoute_route (s : State) (k i : Nat) (o : RouteState) : (s.setRoute k o).route i = if i = k then o else s.route i :=
  Tab.get_set _ _ _ _ _
@[simp] theorem State.setRoute_rd (s : State) (k : Nat) (o : RouteState) (f : Fld) : (s.setRoute k o).rd f = s.rd f := rfl
@[simp] theorem State.setNonAudio_nonAudio (s : State) (k i : Nat) (o : NonAudio) : (s.setNonAudio k o).nonAudio i = if i = k then o else s.nonAudio i :=
  Tab.get_set _ _ _ _ _
@[simp] theorem State.setNonAudio_rd (s : State) (k : Nat) (o : NonAudio) (f : Fld) : (s.setNonAudio k o).rd f = s.rd f := rfl
@[simp] theorem State.setTdmPort_tdmPort (s : State) (k i : Nat) (o : TdmState) : (s.setTdmPort k o).tdmPort i = if i = k then o else s.tdmPort i :=
  Tab.get_set _ _ _ _ _
@[simp] theorem State.setTdmPort_rd (s : State) (k : Nat) (o : TdmState) (f : Fld) : (s.setTdmPort k o).rd f = s.rd f := rfl
@[simp] theorem State.setPanel_panel (s : State) (k i : Nat) (o : PanelState) : (s.setPanel k o).panel i = if i = k then o else s.panel i :=
  Tab.get_set _ _ _ _ _
@[simp] theorem State.setPanel_rd (s : State) (k : Nat) (o : PanelState) (f : Fld) : (s.setPanel k o).rd f = s.rd f := rfl
@[simp] theorem State.setOverlay_overlay (s : State) (k i : Nat) (o : OverlayState) : (s.setOverlay k o).overlay i = if i = k then o else s.overlay i :=
  Tab.get_set _ _ _ _ _
@[simp] theorem State.setOverlay_rd (s : State) (k : Nat) (o : OverlayState) (f : Fld) : (s.setOverlay k o).rd f = s.rd f := rfl
@[simp] theorem State.setRawNode_rawNode (s : State) (k i : Nat) (o : Nat) : (s.setRawNode k o).rawNode i = if i = k then o else s.rawNode i :=
  Tab.get_set _ _ _ _ _
@[simp] theorem State.setRawNode_rd (s : State) (k : Nat) (o : Nat) (f : Fld) : (s.setRawNode k o).rd f = s.rd f := rfl
@[simp] theorem State.setBaseline_baseline (s : State) (k i : Nat) (o : Nat) : (s.setBaseline k o).baseline i = if i = k then o else s.baseline i :=
  Tab.get_set _ _ _ _ _
@[simp] theorem State.setBaseline_rd (s : State) (k : Nat) (o : Nat) (f : Fld) : (s.setBaseline k o).rd f = s.rd f := rfl
@[simp] theorem State.setAntiSince_antiSince (s : State) (k i : Nat) (o : Nat) : (s.setAntiSince k o).antiSince i = if i = k then o else s.antiSince i :=
  Tab.get_set _ _ _ _ _
@[simp] theorem State.setAntiSince_rd (s : State) (k : Nat) (o : Nat) (f : Fld) : (s.setAntiSince k o).rd f = s.rd f := rfl
@[simp] theorem State.setLine_line (s : State) (k i : Nat) (o : LineErr) : (s.setLine k o).line i = if i = k then o else s.line i :=
  Tab.get_set _ _ _ _ _
@[simp] theorem State.setLine_rd (s : State) (k : Nat) (o : LineErr) (f : Fld) : (s.setLine k o).rd f = s.rd f := rfl
@[simp] theorem State.setChan_chan (s : State) (k i : Nat) (o : ChanState) : (s.setChan k o).chan i = if i = k then o else s.chan i :=
  Tab.get_set _ _ _ _ _
@[simp] theorem State.setChan_rd (s : State) (k : Nat) (o : ChanState) (f : Fld) : (s.setChan k o).rd f = s.rd f := rfl
@[simp] theorem State.setLane_lane (s : State) (k i : Nat) (o : LaneState) : (s.setLane k o).lane i = if i = k then o else s.lane i :=
  Tab.get_set _ _ _ _ _
@[simp] theorem State.setLane_rd (s : State) (k : Nat) (o : LaneState) (f : Fld) : (s.setLane k o).rd f = s.rd f := rfl
@[simp] theorem State.setUnit_unit (s : State) (k i : Nat) (o : UnitState) : (s.setUnit k o).unit i = if i = k then o else s.unit i :=
  Tab.get_set _ _ _ _ _
@[simp] theorem State.setUnit_rd (s : State) (k : Nat) (o : UnitState) (f : Fld) : (s.setUnit k o).rd f = s.rd f := rfl
@[simp] theorem State.setFlue_flue (s : State) (k i : Nat) (o : FlueState) : (s.setFlue k o).flue i = if i = k then o else s.flue i :=
  Tab.get_set _ _ _ _ _
@[simp] theorem State.setFlue_rd (s : State) (k : Nat) (o : FlueState) (f : Fld) : (s.setFlue k o).rd f = s.rd f := rfl
@[simp] theorem State.setSource_source (s : State) (k i : Nat) (o : SourceState) : (s.setSource k o).source i = if i = k then o else s.source i :=
  Tab.get_set _ _ _ _ _
@[simp] theorem State.setSource_rd (s : State) (k : Nat) (o : SourceState) (f : Fld) : (s.setSource k o).rd f = s.rd f := rfl
@[simp] theorem State.setLayer_layer (s : State) (k i : Nat) (o : LayerState) : (s.setLayer k o).layer i = if i = k then o else s.layer i :=
  Tab.get_set _ _ _ _ _
@[simp] theorem State.setLayer_rd (s : State) (k : Nat) (o : LayerState) (f : Fld) : (s.setLayer k o).rd f = s.rd f := rfl
@[simp] theorem State.setFrect_rect (s : State) (k i : Nat) (o : RectState) : (s.setFrect k o).rect i = if i = k then o else s.rect i :=
  Tab.get_set _ _ _ _ _
@[simp] theorem State.setFrect_rd (s : State) (k : Nat) (o : RectState) (f : Fld) : (s.setFrect k o).rd f = s.rd f := rfl
@[simp] theorem State.setFrec_frec (s : State) (k i : Nat) (o : RecState) : (s.setFrec k o).frec i = if i = k then o else s.frec i :=
  Tab.get_set _ _ _ _ _
@[simp] theorem State.setFrec_rd (s : State) (k : Nat) (o : RecState) (f : Fld) : (s.setFrec k o).rd f = s.rd f := rfl
@[simp] theorem State.setReel_reel (s : State) (k i : Nat) (o : ReelState) : (s.setReel k o).reel i = if i = k then o else s.reel i :=
  Tab.get_set _ _ _ _ _
@[simp] theorem State.setReel_rd (s : State) (k : Nat) (o : ReelState) (f : Fld) : (s.setReel k o).rd f = s.rd f := rfl
@[simp] theorem State.setEnc_enc (s : State) (k i : Nat) (o : EncState) : (s.setEnc k o).enc i = if i = k then o else s.enc i :=
  Tab.get_set _ _ _ _ _
@[simp] theorem State.setEnc_rd (s : State) (k : Nat) (o : EncState) (f : Fld) : (s.setEnc k o).rd f = s.rd f := rfl
@[simp] theorem State.setEngine_engine (s : State) (k i : Nat) (o : EngineState) : (s.setEngine k o).engine i = if i = k then o else s.engine i :=
  Tab.get_set _ _ _ _ _
@[simp] theorem State.setEngine_rd (s : State) (k : Nat) (o : EngineState) (f : Fld) : (s.setEngine k o).rd f = s.rd f := rfl
@[simp] theorem State.setPort_port (s : State) (k i : Nat) (o : PortState) : (s.setPort k o).port i = if i = k then o else s.port i :=
  Tab.get_set _ _ _ _ _
@[simp] theorem State.setPort_rd (s : State) (k : Nat) (o : PortState) (f : Fld) : (s.setPort k o).rd f = s.rd f := rfl
@[simp] theorem State.setLink_link (s : State) (k i : Nat) (o : LinkState) : (s.setLink k o).link i = if i = k then o else s.link i :=
  Tab.get_set _ _ _ _ _
@[simp] theorem State.setLink_rd (s : State) (k : Nat) (o : LinkState) (f : Fld) : (s.setLink k o).rd f = s.rd f := rfl
@[simp] theorem State.setImport_import_ (s : State) (k i : Nat) (o : ImportState) : (s.setImport k o).import_ i = if i = k then o else s.import_ i :=
  Tab.get_set _ _ _ _ _
@[simp] theorem State.setImport_rd (s : State) (k : Nat) (o : ImportState) (f : Fld) : (s.setImport k o).rd f = s.rd f := rfl
@[simp] theorem State.setCheckUnit_checkUnit (s : State) (k i : Nat) (o : CheckUnit) : (s.setCheckUnit k o).checkUnit i = if i = k then o else s.checkUnit i :=
  Tab.get_set _ _ _ _ _
@[simp] theorem State.setCheckUnit_rd (s : State) (k : Nat) (o : CheckUnit) (f : Fld) : (s.setCheckUnit k o).rd f = s.rd f := rfl

@[simp] theorem State.send_rd (s : State) (m : Sent) (f : Fld) : (s.send m).rd f = s.rd f := rfl
@[simp] theorem State.memWrite_rd (s : State) (a : Nat) (bs : List Byte) (f : Fld) : (s.memWrite a bs).rd f = s.rd f := rfl
@[simp] theorem State.wrShadow_rd (s : State) (g : Fld) (v : Nat) (f : Fld) : (s.wrShadow g v).rd f = s.rd f := rfl

@[simp] theorem State.raiseAt_rd (s : State) (st c o : Nat) (f : Fld) : (s.raiseAt st c o).rd f = s.rd f := by
  unfold State.raiseAt; split <;> rfl

@[simp] theorem State.raise_rd (s : State) (c o : Nat) (f : Fld) : (s.raise c o).rd f = s.rd f := State.raiseAt_rd _ _ _ _ _

@[simp] theorem State.raiseEdge_rd (s : State) (c o : Nat) (f : Fld) : (s.raiseEdge c o).rd f = s.rd f := State.raiseAt_rd _ _ _ _ _

@[simp] theorem State.raiseOnce_rd (s : State) (c o : Nat) (f : Fld) : (s.raiseOnce c o).rd f = s.rd f := by
  unfold State.raiseOnce; split
  · rfl
  · exact State.raise_rd _ _ _ _

/-! ### Laws: a property survives -/

variable {K : List Part} {P : State → Prop}

theorem Closed.setTmo (h : Closed K P) (hk : .timers ∈ K) (s : State) (k : Nat) (o : TmoState) (hs : P s) : P (s.setTmo k o) :=
  h.timers hk _ _ rfl rfl rfl hs
theorem Closed.setTmc (h : Closed K P) (hk : .timers ∈ K) (s : State) (k : Nat) (o : TmcState) (hs : P s) : P (s.setTmc k o) :=
  h.timers hk _ _ rfl rfl rfl hs
theorem Closed.setRoute (h : Closed K P) (hk : .audio ∈ K) (s : State) (k : Nat) (o : RouteState) (hs : P s) : P (s.setRoute k o) :=
  h.audio hk _ _ hs
theorem Closed.setNonAudio (h : Closed K P) (hk : .audio ∈ K) (s : State) (k : Nat) (o : NonAudio) (hs : P s) : P (s.setNonAudio k o) :=
  h.audio hk _ _ hs
theorem Closed.setTdmPort (h : Closed K P) (hk : .audio ∈ K) (s : State) (k : Nat) (o : TdmState) (hs : P s) : P (s.setTdmPort k o) :=
  h.audio hk _ _ hs
theorem Closed.setPanel (h : Closed K P) (hk : .touch ∈ K) (s : State) (k : Nat) (o : PanelState) (hs : P s) : P (s.setPanel k o) :=
  h.touch hk _ _ hs
theorem Closed.setOverlay (h : Closed K P) (hk : .touch ∈ K) (s : State) (k : Nat) (o : OverlayState) (hs : P s) : P (s.setOverlay k o) :=
  h.touch hk _ _ hs
theorem Closed.setRawNode (h : Closed K P) (hk : .touch ∈ K) (s : State) (k : Nat) (o : Nat) (hs : P s) : P (s.setRawNode k o) :=
  h.touch hk _ _ hs
theorem Closed.setBaseline (h : Closed K P) (hk : .touch ∈ K) (s : State) (k : Nat) (o : Nat) (hs : P s) : P (s.setBaseline k o) :=
  h.touch hk _ _ hs
theorem Closed.setAntiSince (h : Closed K P) (hk : .touch ∈ K) (s : State) (k : Nat) (o : Nat) (hs : P s) : P (s.setAntiSince k o) :=
  h.touch hk _ _ hs
theorem Closed.setLine (h : Closed K P) (hk : .mem ∈ K) (s : State) (k : Nat) (o : LineErr) (hs : P s) : P (s.setLine k o) :=
  h.mem hk _ _ rfl hs
theorem Closed.setChan (h : Closed K P) (hk : .mem ∈ K) (s : State) (k : Nat) (o : ChanState) (hs : P s) : P (s.setChan k o) :=
  h.mem hk _ _ rfl hs
theorem Closed.setLane (h : Closed K P) (hk : .lanes ∈ K) (s : State) (k : Nat) (o : LaneState) (hs : P s) : P (s.setLane k o) :=
  h.lanes hk _ _ hs
theorem Closed.setUnit (h : Closed K P) (hk : .comp ∈ K) (s : State) (k : Nat) (o : UnitState) (hs : P s) : P (s.setUnit k o) :=
  h.comp hk _ _ hs
theorem Closed.setFlue (h : Closed K P) (hk : .comp ∈ K) (s : State) (k : Nat) (o : FlueState) (hs : P s) : P (s.setFlue k o) :=
  h.comp hk _ _ hs
theorem Closed.setSource (h : Closed K P) (hk : .comp ∈ K) (s : State) (k : Nat) (o : SourceState) (hs : P s) : P (s.setSource k o) :=
  h.comp hk _ _ hs
theorem Closed.setLayer (h : Closed K P) (hk : .comp ∈ K) (s : State) (k : Nat) (o : LayerState) (hs : P s) : P (s.setLayer k o) :=
  h.comp hk _ _ hs
theorem Closed.setFrect (h : Closed K P) (hk : .comp ∈ K) (s : State) (k : Nat) (o : RectState) (hs : P s) : P (s.setFrect k o) :=
  h.comp hk _ _ hs
theorem Closed.setFrec (h : Closed K P) (hk : .faults ∈ K) (s : State) (k : Nat) (o : RecState) (hs : P s) : P (s.setFrec k o) :=
  h.faults hk _ _ hs
theorem Closed.setReel (h : Closed K P) (hk : .codec ∈ K) (s : State) (k : Nat) (o : ReelState) (hs : P s) : P (s.setReel k o) :=
  h.codec hk _ _ hs
theorem Closed.setEnc (h : Closed K P) (hk : .codec ∈ K) (s : State) (k : Nat) (o : EncState) (hs : P s) : P (s.setEnc k o) :=
  h.codec hk _ _ hs
theorem Closed.setEngine (h : Closed K P) (hk : .codec ∈ K) (s : State) (k : Nat) (o : EngineState) (hs : P s) : P (s.setEngine k o) :=
  h.codec hk _ _ hs
theorem Closed.setPort (h : Closed K P) (hk : .ports ∈ K) (s : State) (k : Nat) (o : PortState) (hs : P s) : P (s.setPort k o) :=
  h.ports hk _ _ hs
theorem Closed.setLink (h : Closed K P) (hk : .links ∈ K) (s : State) (k : Nat) (o : LinkState) (hs : P s) : P (s.setLink k o) :=
  h.links hk _ _ hs
theorem Closed.setImport (h : Closed K P) (hk : .crl ∈ K) (s : State) (k : Nat) (o : ImportState) (hs : P s) : P (s.setImport k o) :=
  h.crl hk _ _ hs
theorem Closed.setCheckUnit (h : Closed K P) (hk : .chk ∈ K) (s : State) (k : Nat) (o : CheckUnit) (hs : P s) : P (s.setCheckUnit k o) :=
  h.chk hk _ _ hs

theorem Closed.wr (h : Closed K P) (hk : .regs ∈ K) (s : State) (f : Fld) (v : Nat) (hs : P s) : P (s.wr f v) := h.word hk _ _ _ hs

theorem Closed.wrShadow (h : Closed K P) (hk : .shadow ∈ K) (s : State) (f : Fld) (v : Nat) (hs : P s) : P (s.wrShadow f v) :=
  h.shadowWord hk _ _ _ hs

theorem Closed.wrBoth (h : Closed K P) (hr : .regs ∈ K) (hk : .shadow ∈ K) (s : State) (f : Fld) (v : Nat) (hs : P s) :
    P (s.wrBoth f v) := h.wrShadow hk _ _ _ (h.wr hr _ _ _ hs)

theorem Closed.raiseAt (h : Closed K P) (hk : .evq ∈ K) (s : State) (st c o : Nat) (hs : P s) : P (s.raiseAt st c o) := by
  unfold State.raiseAt; exact closed_ite hs (h.evq hk _ _ hs)

theorem Closed.raise (h : Closed K P) (hk : .evq ∈ K) (s : State) (c o : Nat) (hs : P s) : P (s.raise c o) := h.raiseAt hk _ _ _ _ hs

theorem Closed.raiseEdge (h : Closed K P) (hk : .evq ∈ K) (s : State) (c o : Nat) (hs : P s) : P (s.raiseEdge c o) :=
  h.raiseAt hk _ _ _ _ hs

theorem Closed.raiseOnce (h : Closed K P) (hk : .evq ∈ K) (s : State) (c o : Nat) (hs : P s) : P (s.raiseOnce c o) := by
  unfold State.raiseOnce; exact closed_ite hs (h.raise hk _ _ _ (h.evq hk _ _ hs))

theorem Closed.sendVector (h : Closed K P) (hk : .evq ∈ K) (hm : .sent ∈ K) (s : State) (v : Nat) (hs : P s) : P (s.sendVector v) := by
  unfold State.sendVector; exact closed_ite (closed_ite (h.evq hk _ _ hs) (h.send hm _ _ hs)) hs

theorem Closed.makePending (h : Closed K P) (hr : .regs ∈ K) (hk : .evq ∈ K) (hm : .sent ∈ K) (s : State) (v : Nat) (hs : P s) :
    P (s.makePending v) := by
  unfold State.makePending; exact closed_ite hs (h.sendVector hk hm _ _ (h.wr hr _ _ _ hs))

theorem Closed.pushRecord (h : Closed K P) (hr : .regs ∈ K) (hk : .evq ∈ K) (hm : .sent ∈ K) (s : State) (st c o : Nat) (hs : P s) :
    P (s.pushRecord st c o) := by
  unfold State.pushRecord
  have w := h.wr hr
  have e := h.evq hk
  have m := h.makePending hr hk hm
  extract_lets i s1 s2 s3 s4 s5 s6 q s7 s8
  have h5 : P s5 := w _ _ _ (w _ _ _ (w _ _ _ (w _ _ _ (w _ _ _ hs))))
  have h7 : P s7 := e _ _ (closed_ite (w _ _ _ h5) h5)
  have h8 : P s8 := closed_ite (m _ _ h7) h7
  exact closed_ite (m _ _ h8) h8

theorem Closed.enterEvent (h : Closed K P) (hr : .regs ∈ K) (hk : .evq ∈ K) (hm : .sent ∈ K) (s : State) (e : Nat × Nat × Nat)
    (hs : P s) : P (s.enterEvent e) := by
  have hf : P s.flushLost := by
    unfold State.flushLost; exact closed_ite hs (h.pushRecord hr hk hm _ _ _ _ (h.evq hk _ _ hs))
  unfold State.enterEvent
  exact closed_ite (h.evq hk _ _ (h.wr hr _ _ _ (h.wr hr _ _ _ hf))) (h.pushRecord hr hk hm _ _ _ _ hf)

theorem Closed.reorderTail (h : Closed K P) (hr : .regs ∈ K) (s : State) (es : List (Nat × Nat × Nat)) (hs : P s) :
    P (s.reorderTail es) := closed_foldl (fun _ _ ht => closed_foldl (fun _ _ hu => h.wr hr _ _ _ hu) ht) hs

/-- The end of a command, where its events enter the queue. -/
theorem Closed.flushEvents (h : Closed K P) (hr : .regs ∈ K) (hk : .evq ∈ K) (hm : .sent ∈ K) (s : State) (hs : P s) :
    P s.flushEvents := by
  unfold State.flushEvents
  have hf (es : List (Nat × Nat × Nat)) : P (es.foldl State.enterEvent { s with evq := { s.evq with cycle := [] } }) :=
    closed_foldl (fun t e ht => h.enterEvent hr hk hm t e ht) (h.evq hk _ _ hs)
  exact closed_ite hs (h.evq hk _ _ (closed_ite (hf _) (h.reorderTail hr _ _ (hf _))))

end Sys2Proof.Machine
end

