-- ==== Sys2Proof/Laws/PerInstr.lean ====
section
/-!
SUPPORT. What holds of every command as syntax, one lemma for each constructor: the table gives its rows no bits, so no word
spells the command.
-/
namespace Sys2Proof.Laws.Unspelled

/-- No word, of any number of bits, spells the command. -/
def Statement (i : Instr) : Prop := ∀ nbits w, decodeTableWord nbits w ≠ some i

theorem tickEdge (energyUj : Nat) : Statement (.tickEdge energyUj) := by intro _ _ h; cases h
theorem cueSheetComplete (ok : Bool) : Statement (.cueSheetComplete ok) := by intro _ _ h; cases h
theorem damperRelax : Statement .damperRelax := by intro _ _ h; cases h
theorem resync : Statement .resync := by intro _ _ h; cases h
theorem tickSourceEdge : Statement .tickSourceEdge := by intro _ _ h; cases h
theorem tickSrcLost : Statement .tickSrcLost := by intro _ _ h; cases h
theorem cutOff : Statement .cutOff := by intro _ _ h; cases h
theorem clapArm : Statement .clapArm := by intro _ _ h; cases h
theorem clapDiscard : Statement .clapDiscard := by intro _ _ h; cases h
theorem registerWrite (src : Nat) (offset : Nat) (value : Nat) (be : Nat) : Statement (.registerWrite src offset value be) := by intro _ _ h; cases h
theorem bandStart (unit : Nat) : Statement (.bandStart unit) := by intro _ _ h; cases h
theorem bandComplete (unit : Nat) : Statement (.bandComplete unit) := by intro _ _ h; cases h
theorem bandDeadline (flue : Nat) (band : Nat) : Statement (.bandDeadline flue band) := by intro _ _ h; cases h
theorem frameStart (flue : Nat) : Statement (.frameStart flue) := by intro _ _ h; cases h
theorem canarySigned (unit : Nat) (sig : Nat) : Statement (.canarySigned unit sig) := by intro _ _ h; cases h
theorem canaryDeadline (unit : Nat) : Statement (.canaryDeadline unit) := by intro _ _ h; cases h
theorem directUnderrun (flue : Nat) : Statement (.directUnderrun flue) := by intro _ _ h; cases h
theorem voteSignatureArrival (flue : Nat) (tile : Nat) (unit : Nat) (sig : Nat) : Statement (.voteSignatureArrival flue tile unit sig) := by intro _ _ h; cases h
theorem voteCutoff (flue : Nat) (band : Nat) : Statement (.voteCutoff flue band) := by intro _ _ h; cases h
theorem imgGo : Statement .imgGo := by intro _ _ h; cases h
theorem imgCancel : Statement .imgCancel := by intro _ _ h; cases h
theorem imgReadDone (bytes : List Byte) (fail : Option Nat) : Statement (.imgReadDone bytes fail) := by intro _ _ h; cases h
theorem imgVerifyDone : Statement .imgVerifyDone := by intro _ _ h; cases h
theorem imgValidateDone : Statement .imgValidateDone := by intro _ _ h; cases h
theorem imgApplyStepDone (ok : Bool) (failed : List Nat) : Statement (.imgApplyStepDone ok failed) := by intro _ _ h; cases h
theorem imgIdleTimeout : Statement .imgIdleTimeout := by intro _ _ h; cases h
theorem fuseProgramSlot0 : Statement .fuseProgramSlot0 := by intro _ _ h; cases h
theorem fuseProgramSlot1 : Statement .fuseProgramSlot1 := by intro _ _ h; cases h
theorem fuseRevokeSlot0 : Statement .fuseRevokeSlot0 := by intro _ _ h; cases h
theorem fuseRevokeSlot1 : Statement .fuseRevokeSlot1 := by intro _ _ h; cases h
theorem fuseAdvanceSvn : Statement .fuseAdvanceSvn := by intro _ _ h; cases h
theorem fuseBlowInjForbid : Statement .fuseBlowInjForbid := by intro _ _ h; cases h
theorem captureFrameComplete (sink : Nat) (pixels : List Byte) : Statement (.captureFrameComplete sink pixels) := by intro _ _ h; cases h
theorem sinkFrameStart (sink : Nat) (raster : Raster) : Statement (.sinkFrameStart sink raster) := by intro _ _ h; cases h
theorem sentinelEvaluation (flue : Nat) (samples : List Nat) : Statement (.sentinelEvaluation flue samples) := by intro _ _ h; cases h
theorem glassUnconfirmed (flue : Nat) : Statement (.glassUnconfirmed flue) := by intro _ _ h; cases h
theorem wardenProposal (core : Nat) (index : Nat) (action : Nat) (object : Nat) : Statement (.wardenProposal core index action object) := by intro _ _ h; cases h
theorem voteWindowClose : Statement .voteWindowClose := by intro _ _ h; cases h
theorem handlerStageEnd (overrun : List Nat) : Statement (.handlerStageEnd overrun) := by intro _ _ h; cases h
theorem unitStall (unit : Nat) : Statement (.unitStall unit) := by intro _ _ h; cases h
theorem cacheUe (cluster : Nat) : Statement (.cacheUe cluster) := by intro _ _ h; cases h
theorem sigEngine (cluster : Nat) : Statement (.sigEngine cluster) := by intro _ _ h; cases h
theorem unlocalised (cluster : Nat) : Statement (.unlocalised cluster) := by intro _ _ h; cases h
theorem dieClock (die : Nat) : Statement (.dieClock die) := by intro _ _ h; cases h
theorem flueOut (flue : Nat) : Statement (.flueOut flue) := by intro _ _ h; cases h
theorem faultHandlingStart : Statement .faultHandlingStart := by intro _ _ h; cases h
theorem faultActionExecuted : Statement .faultActionExecuted := by intro _ _ h; cases h
theorem faultRecordTimeout : Statement .faultRecordTimeout := by intro _ _ h; cases h
theorem regionResetCheck (region : Nat) : Statement (.regionResetCheck region) := by intro _ _ h; cases h
theorem injRxCfgWrite (path : Nat) (value : Nat) : Statement (.injRxCfgWrite path value) := by intro _ _ h; cases h
theorem injVoterWrite (value : Nat) : Statement (.injVoterWrite value) := by intro _ _ h; cases h
theorem injDramWrite (value : Nat) : Statement (.injDramWrite value) := by intro _ _ h; cases h
theorem injLaneWrite (value : Nat) : Statement (.injLaneWrite value) := by intro _ _ h; cases h
theorem injDone (kind : Nat) : Statement (.injDone kind) := by intro _ _ h; cases h
theorem tempSample (sensor : Nat) (eighths : Int) : Statement (.tempSample sensor eighths) := by intro _ _ h; cases h
theorem thermClear : Statement .thermClear := by intro _ _ h; cases h
theorem thermtrip (sensor : Nat) : Statement (.thermtrip sensor) := by intro _ _ h; cases h
theorem sensorFail (sensor : Nat) : Statement (.sensorFail sensor) := by intro _ _ h; cases h
theorem rtpPacketReceived (reel : Nat) (packet : RtpPacket) : Statement (.rtpPacketReceived reel packet) := by intro _ _ h; cases h
theorem accessUnitJbExpiry (reel : Nat) : Statement (.accessUnitJbExpiry reel) := by intro _ _ h; cases h
theorem decodePictureDone (engine : Nat) (picture : Picture) : Statement (.decodePictureDone engine picture) := by intro _ _ h; cases h
theorem firTimer (reel : Nat) : Statement (.firTimer reel) := by intro _ _ h; cases h
theorem decEngineReset (engine : Nat) : Statement (.decEngineReset engine) := by intro _ _ h; cases h
theorem decSilent (reel : Nat) : Statement (.decSilent reel) := by intro _ _ h; cases h
theorem rtcpSrReceived (reel : Nat) (ntp : Nat) (rtp : Nat) (addr : Nat) (udp : Nat) : Statement (.rtcpSrReceived reel ntp rtp addr udp) := by intro _ _ h; cases h
theorem decSrLost (reel : Nat) : Statement (.decSrLost reel) := by intro _ _ h; cases h
theorem rtcpRrTimer (reel : Nat) : Statement (.rtcpRrTimer reel) := by intro _ _ h; cases h
theorem encodeFrameDone (engine : Nat) (coded : Coded) : Statement (.encodeFrameDone engine coded) := by intro _ _ h; cases h
theorem encIdrReq (reel : Nat) : Statement (.encIdrReq reel) := by intro _ _ h; cases h
theorem rtcpFeedbackReceived (reel : Nat) : Statement (.rtcpFeedbackReceived reel) := by intro _ _ h; cases h
theorem encSrTimer (reel : Nat) : Statement (.encSrTimer reel) := by intro _ _ h; cases h
theorem dramRead (src : Nat) (flips0 : Nat) (flips1 : Nat) : Statement (.dramRead src flips0 flips1) := by intro _ _ h; cases h
theorem dramWrite (src : Nat) (flips0 : Nat) (flips1 : Nat) : Statement (.dramWrite src flips0 flips1) := by intro _ _ h; cases h
theorem scrubRead (channel : Nat) (flips0 : Nat) (flips1 : Nat) : Statement (.scrubRead channel flips0 flips1) := by intro _ _ h; cases h
theorem refreshInterval (channel : Nat) (postponed : List Nat) : Statement (.refreshInterval channel postponed) := by intro _ _ h; cases h
theorem forcedRefresh (channel : Nat) : Statement (.forcedRefresh channel) := by intro _ _ h; cases h
theorem mr4Poll (channel : Nat) (code : Nat) (driftPs : Nat) (hot : Bool) : Statement (.mr4Poll channel code driftPs hot) := by intro _ _ h; cases h
theorem zqLatch (channel : Nat) : Statement (.zqLatch channel) := by intro _ _ h; cases h
theorem hrtPanic (port : Nat) (fill : Nat) : Statement (.hrtPanic port fill) := by intro _ _ h; cases h
theorem trainWindowOpen : Statement .trainWindowOpen := by intro _ _ h; cases h
theorem retrainStepDone (ok : Bool) : Statement (.retrainStepDone ok) := by intro _ _ h; cases h
theorem mtxFence (src : Nat) : Statement (.mtxFence src) := by intro _ _ h; cases h
theorem fenceComplete (src : Nat) : Statement (.fenceComplete src) := by intro _ _ h; cases h
theorem accessCheck (access : Access) : Statement (.accessCheck access) := by intro _ _ h; cases h
theorem mpuUpdGo (unit : Nat) (index : Nat) : Statement (.mpuUpdGo unit index) := by intro _ _ h; cases h
theorem mpuDrained (unit : Nat) : Statement (.mpuDrained unit) := by intro _ _ h; cases h
theorem mtxLinkErr (link : Nat) (failed : Nat) (src : Nat) (addr : Nat) (write : Bool) : Statement (.mtxLinkErr link failed src addr write) := by intro _ _ h; cases h
theorem trainingBlockReceived (lane : Nat) (chars : List Byte) : Statement (.trainingBlockReceived lane chars) := by intro _ _ h; cases h
theorem pllRelockDone (lane : Nat) : Statement (.pllRelockDone lane) := by intro _ _ h; cases h
theorem laneTrainingBlock (lane : Nat) (bytes : List Byte) : Statement (.laneTrainingBlock lane bytes) := by intro _ _ h; cases h
theorem adaptationDone (lane : Nat) (adapt : Adapt) : Statement (.adaptationDone lane adapt) := by intro _ _ h; cases h
theorem laneTrainTimeout (port : Nat) : Statement (.laneTrainTimeout port) := by intro _ _ h; cases h
theorem laneRetryRestart (port : Nat) : Statement (.laneRetryRestart port) := by intro _ _ h; cases h
theorem alignmentMarker (lane : Nat) (bytes : List Byte) (position : Nat) (arrivalUi : Nat) : Statement (.alignmentMarker lane bytes position arrivalUi) := by intro _ _ h; cases h
theorem laneDeskewFail (port : Nat) : Statement (.laneDeskewFail port) := by intro _ _ h; cases h
theorem laneAlignLost (lane : Nat) : Statement (.laneAlignLost lane) := by intro _ _ h; cases h
theorem laneRealignTimeout (lane : Nat) : Statement (.laneRealignTimeout lane) := by intro _ _ h; cases h
theorem laneDeepLpEntry (lane : Nat) : Statement (.laneDeepLpEntry lane) := by intro _ _ h; cases h
theorem laneWakeDone (lane : Nat) : Statement (.laneWakeDone lane) := by intro _ _ h; cases h
theorem laneEyeRefresh (lane : Nat) (v : Nat) (h : Nat) : Statement (.laneEyeRefresh lane v h) := by intro _ _ h; cases h
theorem laneSurvey (lane : Nat) : Statement (.laneSurvey lane) := by intro _ _ h; cases h
theorem laneErrOne (lane : Nat) : Statement (.laneErrOne lane) := by intro _ _ h; cases h
theorem auxRequest (sink : Nat) (request : AuxRequest) : Statement (.auxRequest sink request) := by intro _ _ h; cases h
theorem sinkLinkLoss (sink : Nat) (kind : Nat) : Statement (.sinkLinkLoss sink kind) := by intro _ _ h; cases h
theorem hpdConnect (port : Nat) : Statement (.hpdConnect port) := by intro _ _ h; cases h
theorem hpdIrq (port : Nat) (lost : Bool) : Statement (.hpdIrq port lost) := by intro _ _ h; cases h
theorem hpdDisconnect (port : Nat) : Statement (.hpdDisconnect port) := by intro _ _ h; cases h
theorem portCapsRead (port : Nat) (caps : MonitorCaps) : Statement (.portCapsRead port caps) := by intro _ _ h; cases h
theorem sourceTrainingDone (port : Nat) (ok : Bool) (levels : List Nat) : Statement (.sourceTrainingDone port ok levels) := by intro _ _ h; cases h
theorem ethFrameReceived (port : Nat) (frame : List Byte) (fcsOk : Bool) : Statement (.ethFrameReceived port frame fcsOk) := by intro _ _ h; cases h
theorem ethNextHopTimeout (port : Nat) : Statement (.ethNextHopTimeout port) := by intro _ _ h; cases h
theorem neighbourLapse (port : Nat) : Statement (.neighbourLapse port) := by intro _ _ h; cases h
theorem membershipReportRepeat (port : Nat) : Statement (.membershipReportRepeat port) := by intro _ _ h; cases h
theorem portDown (port : Nat) : Statement (.portDown port) := by intro _ _ h; cases h
theorem portUp (port : Nat) (rate : Nat) (lanes : Nat) : Statement (.portUp port rate lanes) := by intro _ _ h; cases h
theorem portPcieReset (kind : Nat) : Statement (.portPcieReset kind) := by intro _ _ h; cases h
theorem crlFrameBad (link : Nat) (frame : List Byte) : Statement (.crlFrameBad link frame) := by intro _ _ h; cases h
theorem crlCreditReceived (link : Nat) (frame : List Byte) : Statement (.crlCreditReceived link frame) := by intro _ _ h; cases h
theorem crlNakReceived (link : Nat) (frame : List Byte) : Statement (.crlNakReceived link frame) := by intro _ _ h; cases h
theorem crlRetryTimeout (link : Nat) : Statement (.crlRetryTimeout link) := by intro _ _ h; cases h
theorem crlTileExpiry (link : Nat) : Statement (.crlTileExpiry link) := by intro _ _ h; cases h
theorem crlLayerReceived (link : Nat) (frame : List Byte) : Statement (.crlLayerReceived link frame) := by intro _ _ h; cases h
theorem crlTileReceived (link : Nat) (frame : List Byte) : Statement (.crlTileReceived link frame) := by intro _ _ h; cases h
theorem importCut : Statement .importCut := by intro _ _ h; cases h
theorem crlEdgeReceived (link : Nat) (frame : List Byte) : Statement (.crlEdgeReceived link frame) := by intro _ _ h; cases h
theorem crlClaimReceived (link : Nat) (frame : List Byte) : Statement (.crlClaimReceived link frame) := by intro _ _ h; cases h
theorem crlMasterChange : Statement .crlMasterChange := by intro _ _ h; cases h
theorem crlDelayReqReceived (link : Nat) (frame : List Byte) : Statement (.crlDelayReqReceived link frame) := by intro _ _ h; cases h
theorem crlDelayRespReceived (link : Nat) (frame : List Byte) : Statement (.crlDelayRespReceived link frame) := by intro _ _ h; cases h
theorem crlDelayTimer (link : Nat) : Statement (.crlDelayTimer link) := by intro _ _ h; cases h
theorem crlPeerFault (link : Nat) (frame : List Byte) : Statement (.crlPeerFault link frame) := by intro _ _ h; cases h
theorem crlRegGo : Statement .crlRegGo := by intro _ _ h; cases h
theorem crlRegRequestReceived (link : Nat) (frame : List Byte) : Statement (.crlRegRequestReceived link frame) := by intro _ _ h; cases h
theorem crlRegResponseReceived (link : Nat) (frame : List Byte) : Statement (.crlRegResponseReceived link frame) := by intro _ _ h; cases h
theorem crlRegTimeout : Statement .crlRegTimeout := by intro _ _ h; cases h
theorem tmbIncIntWrite (value : Nat) : Statement (.tmbIncIntWrite value) := by intro _ _ h; cases h
theorem tmbStep : Statement .tmbStep := by intro _ _ h; cases h
theorem tmbSnap : Statement .tmbSnap := by intro _ _ h; cases h
theorem ptpTxWrWrite (value : Nat) : Statement (.ptpTxWrWrite value) := by intro _ _ h; cases h
theorem tmoEnable (output : Nat) (value : Nat) : Statement (.tmoEnable output value) := by intro _ _ h; cases h
theorem tmoPulseStart (output : Nat) : Statement (.tmoPulseStart output) := by intro _ _ h; cases h
theorem tmoPulseEnd (output : Nat) : Statement (.tmoPulseEnd output) := by intro _ _ h; cases h
theorem tmcEdge (capture : Nat) (falling : Bool) : Statement (.tmcEdge capture falling) := by intro _ _ h; cases h
theorem tmcTsRead (capture : Nat) : Statement (.tmcTsRead capture) := by intro _ _ h; cases h
theorem apllLock (pll : Nat) : Statement (.apllLock pll) := by intro _ _ h; cases h
theorem tmbApllUnlock (pll : Nat) : Statement (.tmbApllUnlock pll) := by intro _ _ h; cases h
theorem audFrameDue (route : Nat) : Statement (.audFrameDue route) := by intro _ _ h; cases h
theorem audSourceSample (input : AudioInput) : Statement (.audSourceSample input) := by intro _ _ h; cases h
theorem audNonAudioEnd (kind : Nat) (index : Nat) : Statement (.audNonAudioEnd kind index) := by intro _ _ h; cases h
theorem audRefLost (group : Nat) : Statement (.audRefLost group) := by intro _ _ h; cases h
theorem audRefLocked (group : Nat) (hz : Nat) : Statement (.audRefLocked group hz) := by intro _ _ h; cases h
theorem audAsrcUnlock (instance_ : Nat) (ratio : Nat) : Statement (.audAsrcUnlock instance_ ratio) := by intro _ _ h; cases h
theorem slotMaskWrite (port : Nat) (value : Nat) : Statement (.slotMaskWrite port value) := by intro _ _ h; cases h
theorem audLoad (port : Nat) (ohms : Nat) : Statement (.audLoad port ohms) := by intro _ _ h; cases h
theorem tchScanDue (panel : Nat) : Statement (.tchScanDue panel) := by intro _ _ h; cases h
theorem tchScanDone (panel : Nat) (charges : List (List (List Int))) : Statement (.tchScanDone panel charges) := by intro _ _ h; cases h
theorem tchTest (panel : Nat) : Statement (.tchTest panel) := by intro _ _ h; cases h
theorem tchTestDone (panel : Nat) (charges : List (List (List Int))) (single : List (List (List Nat))) : Statement (.tchTestDone panel charges single) := by intro _ _ h; cases h
theorem tchSurvey (panel : Nat) : Statement (.tchSurvey panel) := by intro _ _ h; cases h
theorem tchSurveyDone (panel : Nat) (drive : List Nat) (sense : List Nat) : Statement (.tchSurveyDone panel drive sense) := by intro _ _ h; cases h
theorem chkRestart (unit : Nat) : Statement (.chkRestart unit) := by intro _ _ h; cases h
theorem porstAssert : Statement .porstAssert := by intro _ _ h; cases h
theorem porstRelease (bootsel : Nat) : Statement (.porstRelease bootsel) := by intro _ _ h; cases h
theorem warmRstN : Statement .warmRstN := by intro _ _ h; cases h
theorem pwrReset (value : Nat) : Statement (.pwrReset value) := by intro _ _ h; cases h
theorem domainSwitchDone (domain : Nat) : Statement (.domainSwitchDone domain) := by intro _ _ h; cases h
theorem domainPowerTimeout (domain : Nat) : Statement (.domainPowerTimeout domain) := by intro _ _ h; cases h
theorem supplyMonitorSample (monitor : Nat) (mv : Nat) : Statement (.supplyMonitorSample monitor mv) := by intro _ _ h; cases h
theorem wakePendingClear : Statement .wakePendingClear := by intro _ _ h; cases h
theorem glbEvqRdWrite (value : Nat) : Statement (.glbEvqRdWrite value) := by intro _ _ h; cases h
theorem intPendClear (register : Nat) (value : Nat) : Statement (.intPendClear register value) := by intro _ _ h; cases h
theorem prbsLock (lane : Nat) : Statement (.prbsLock lane) := by intro _ _ h; cases h
theorem prbsLockLost (lane : Nat) : Statement (.prbsLockLost lane) := by intro _ _ h; cases h
theorem prbsError (lane : Nat) : Statement (.prbsError lane) := by intro _ _ h; cases h
theorem laneTestModeWrite (lane : Nat) (value : Nat) : Statement (.laneTestModeWrite lane value) := by intro _ _ h; cases h
theorem stepTxSwitch (lane : Nat) : Statement (.stepTxSwitch lane) := by intro _ _ h; cases h
theorem stepRxTimeout (lane : Nat) : Statement (.stepRxTimeout lane) := by intro _ _ h; cases h
theorem crlFrameBoundary (link : Nat) : Statement (.crlFrameBoundary link) := by intro _ _ h; cases h
theorem audAsrcLock (instance_ : Nat) (ratio : Nat) : Statement (.audAsrcLock instance_ ratio) := by intro _ _ h; cases h
theorem evqStagingUe : Statement .evqStagingUe := by intro _ _ h; cases h

end Sys2Proof.Laws.Unspelled
end

