-- ==== Sys2Proof/Tests/Slice0.lean ====
section
/-!
SUPPORT. Tests: for each check of well-formedness a command that it refuses; single results worked out from the spec; and for
every statement with hypotheses a state and operands that meet all of them together.
-/
namespace Sys2Proof.Machine.Tests
set_option Elab.async false
set_option linter.unusedVariables false

/-- State.reset with the listed fields set. -/
def at_ (l : List (Fld × Nat)) : State := l.foldl (fun s x => s.wr x.1 x.2) State.reset

/-- A frame of a Crinus link: SEQ 0, its type and length, and the payload (R419). -/
def frame_ (typ : Nat) (p : List Byte) : List Byte := leBytes 8 (p.length * 256 + typ) ++ p

/-- A frame under way with one waiting band of unit 31. -/
def bandFrame : FrameRun :=
  { serial := 7, tick := 0, now := 0, index := 0, startNs := 8000000, periodNs := 16000000, sheet := {}, bands := [{ unit := 31 }] }

/-- A frame of flue 23, of 640 × 480 pixels, whose rectangle 63 holds tile 0 with unit 31 as its member A and unit 3 as B. -/
def critFrame : FrameRun :=
  { serial := 7, tick := 0, now := 0, index := 0, startNs := 8000000, periodNs := 16000000
    sheet := { regs := (at_ [(R.CMP_FLUE_CTRL_ENABLE 23, 1), (R.CMP_FLUE_HTIME_H_ACTIVE 23, 640), (R.CMP_FLUE_HTIME_H_TOTAL 23, 800),
      (R.CMP_FLUE_VTIME_V_ACTIVE 23, 480), (R.CMP_FLUE_VTIME_V_TOTAL 23, 525), (R.CRT_RECT_POS_VALID 63, 1),
      (R.CRT_RECT_POS_FLUE 63, 23), (R.CRT_RECT_MEMBERS_MEMBER_A 63, 31), (R.CRT_RECT_MEMBERS_MEMBER_B 63, 3)]).regs }
    bands := [{ items := [{ rect := 63, member := 0 }] }], members := [(63, [0, 1])] }

/-- The same frame under way with a signature of member B. -/
def signedFrame : FrameRun :=
  { critFrame with started := true, startNs := 0, votes := [(0, { sigs := [{ member := 1, unit := 3, sig := 5, slot := some 0 }] })] }

/-- Twenty-five chips, 10 µs apart, and the times of the oldest sixteen. -/
def chips25 : List (Nat × Nat) := (List.range 25).map fun k => (24 - k, (24 - k) * 10000)
def times16 : List Nat := (List.range 16).map (· * 10000)
def samples16 : List Nat := (List.range 16).map fun j => if chipHigh 1 j then 1 else 0

/-- A header and directory (R62, R63): SECTION_COUNT, PARTIAL, the directory's bytes. -/
def smallHeader (n : Nat) (part : Byte) (dir : List Byte) : List Byte :=
  [0x4D, 0x41, 0x4C, 0x4D, 1, 0, 0xB1, part, 0, 3, 0, 0] ++ leBytes 4 0 ++ leBytes 8 1 ++ leBytes 8 0 ++ leBytes 1 n
    ++ List.replicate 127 0 ++ dir ++ List.replicate 96 0

/-- A partial image of 768 bytes whose one section sets GLB_SCRATCH. -/
def partialImage : List Byte :=
  smallHeader 1 1 ([14, 1, 0, 0, 0, 2, 0, 0, 12, 0, 0, 0, 0, 0, 0, 0] ++ (List.replicate 15 (0xFF :: List.replicate 15 0)).flatten)
    ++ [8, 0, 0, 0, 0xFF, 0, 0, 0, 5, 0, 0, 0] ++ List.replicate 244 0

/-- 64 bytes of zero, the public key of the private key 7, and the signature of the two made with the nonce 3. -/
def signedBytes : List Byte :=
  List.replicate 64 0
    ++ beBytes 48 0x283c1d7365ce4788f29f8ebf234edffead6fe997fbea5ffa2d58cc9dfa7b1c508b05526f55b9ebb2040f05b48fb6d0e1
    ++ beBytes 48 0x9475c99061e41b88ba52efdb8c1690471a61d867ed799729d9c92cd01dbd225630d84ede32a78f9e64664cdac512ef8c
    ++ beBytes 48 0x77a41d4606ffa1464793c7e5fdc7d98cb9d3910202dcd06bea4f240d3566da6b408bbae5026580d02d7e5c70500c831
    ++ beBytes 48 0x9f17954950a56a44f2d3e4c28e4bfa5faf07f4cb36d3805bb563f94a82d0b785c101e63c7dd2ad4964f9c6a103402847

/-! ### Ill-formed commands: one for each check -/

theorem test_ill_formed_1 : ([
    .registerWrite 161 0 0 0,
    .registerWrite 0 0x1000000 0 0,
    .registerWrite 0 2 0 0,
    .registerWrite 0 0 (2 ^ 32) 0,
    .registerWrite 0 0 0 16,
    .bandStart 32,
    .bandComplete 32,
    .bandDeadline 24 0,
    .bandDeadline 0 72,
    .frameStart 24,
    .canarySigned 32 0,
    .canarySigned 0 (2 ^ 32),
    .canaryDeadline 32,
    .directUnderrun 24,
    .voteSignatureArrival 24 0 0 0,
    .voteSignatureArrival 0 0 32 0,
    .voteSignatureArrival 0 0 0 (2 ^ 32),
    .voteCutoff 24 0,
    .voteCutoff 0 72,
    .imgReadDone [] (some (2 ^ 22))] : List Instr).all (fun i => !i.wf) = true := by decide +kernel

theorem test_ill_formed_2 : ([
    .captureFrameComplete 16 [],
    .sinkFrameStart 16 {},
    .sentinelEvaluation 24 [],
    .glassUnconfirmed 24,
    .wardenProposal 3 0 0 0,
    .wardenProposal 0 256 0 0,
    .unitStall 32,
    .cacheUe 8,
    .sigEngine 8,
    .unlocalised 8,
    .dieClock 2,
    .flueOut 24,
    .regionResetCheck 4,
    .injRxCfgWrite 12 0,
    .injRxCfgWrite 0 (2 ^ 32),
    .injVoterWrite (2 ^ 32),
    .injDramWrite (2 ^ 32),
    .injLaneWrite (2 ^ 32),
    .injDone 2,
    .tempSample 24 0] : List Instr).all (fun i => !i.wf) = true := by decide +kernel

theorem test_ill_formed_3 : ([
    .thermtrip 24,
    .sensorFail 24,
    .rtpPacketReceived 128 { port := 0, dst := 0, udp := 0, pt := 0, ssrc := 0, seq := 0, ts := 0, marker := false, payload := [], sets := [], uses := 0 },
    .accessUnitJbExpiry 128,
    .decodePictureDone 24 { name := 0, order := 0, refs := [], keep := [], slices := [], bad := [], sources := [], planes := [], dramUe := 0, bump := 0 },
    .firTimer 128,
    .decEngineReset 24,
    .decSilent 128,
    .rtcpSrReceived 128 0 0 0 0,
    .decSrLost 128,
    .rtcpRrTimer 128,
    .encodeFrameDone 24 { data := [], headerBits := 0, rows := [], blocks := [], recon := [] },
    .encIdrReq 128,
    .rtcpFeedbackReceived 128,
    .encSrTimer 128,
    .dramRead 161 0 0,
    .dramWrite 161 0 0,
    .scrubRead 24 0 0,
    .refreshInterval 24 [],
    .forcedRefresh 24] : List Instr).all (fun i => !i.wf) = true := by decide +kernel

theorem test_ill_formed_4 : ([
    .mr4Poll 24 0 0 false,
    .mr4Poll 0 3 0 false,
    .zqLatch 24,
    .hrtPanic 64 0,
    .hrtPanic 39 65537,
    .hrtPanic 40 16385,
    .mtxFence 161,
    .fenceComplete 161,
    .accessCheck { src := 161, addr := 0, write := false, bytes := [], len := 1 },
    .accessCheck { src := 0, addr := 2 ^ 39, write := false, bytes := [], len := 1 },
    .accessCheck { src := 0, addr := 0, write := true, bytes := [], len := 1 },
    .accessCheck { src := 0, addr := 0, write := false, bytes := [], len := 0 },
    .mpuUpdGo 3 0,
    .mpuUpdGo 0 256,
    .mpuDrained 3,
    .mtxLinkErr 3 0 0 0 false,
    .mtxLinkErr 0 0 161 0 false,
    .trainingBlockReceived 128 [],
    .pllRelockDone 128,
    .laneTrainingBlock 128 []] : List Instr).all (fun i => !i.wf) = true := by decide +kernel

theorem test_ill_formed_5 : ([
    .adaptationDone 128 { peakEyes := List.replicate 16 0, presetEyes := [], sweepEyes := List.replicate 4 0, dcGain := 7, dfe := List.replicate 5 0, rpost := 0 },
    .adaptationDone 0 { peakEyes := List.replicate 15 0, presetEyes := [], sweepEyes := List.replicate 4 0, dcGain := 7, dfe := List.replicate 5 0, rpost := 0 },
    .adaptationDone 0 { peakEyes := List.replicate 16 0, presetEyes := [], sweepEyes := List.replicate 3 0, dcGain := 7, dfe := List.replicate 5 0, rpost := 0 },
    .adaptationDone 0 { peakEyes := List.replicate 16 0, presetEyes := [], sweepEyes := List.replicate 4 0, dcGain := 8, dfe := List.replicate 5 0, rpost := 0 },
    .adaptationDone 0 { peakEyes := List.replicate 16 0, presetEyes := [], sweepEyes := List.replicate 4 0, dcGain := 7, dfe := List.replicate 6 0, rpost := 0 },
    .laneTrainTimeout 48,
    .laneTrainTimeout 53,
    .laneRetryRestart 48,
    .laneRetryRestart 53,
    .alignmentMarker 128 [] 0 0,
    .laneDeskewFail 48,
    .laneDeskewFail 53,
    .laneAlignLost 128,
    .laneRealignTimeout 128,
    .laneDeepLpEntry 128,
    .laneWakeDone 128,
    .laneEyeRefresh 128 0 0,
    .laneEyeRefresh 0 256 0,
    .laneEyeRefresh 0 0 65,
    .laneSurvey 128] : List Instr).all (fun i => !i.wf) = true := by decide +kernel

theorem test_ill_formed_6 : ([
    .laneErrOne 128,
    .auxRequest 16 { i2c := false, write := false, addr := 0, len := 0, data := [], stop := true },
    .sinkLinkLoss 16 0,
    .sinkLinkLoss 0 3,
    .hpdConnect 15,
    .hpdConnect 40,
    .hpdIrq 15 false,
    .hpdIrq 40 false,
    .hpdDisconnect 15,
    .hpdDisconnect 40,
    .portCapsRead 15 { dpcdRev := 0, maxRate := 0, maxLanes := 0, blocks := [] },
    .portCapsRead 40 { dpcdRev := 0, maxRate := 0, maxLanes := 0, blocks := [] },
    .sourceTrainingDone 15 false [],
    .sourceTrainingDone 40 false [],
    .ethFrameReceived 39 [] false,
    .ethFrameReceived 48 [] false,
    .ethNextHopTimeout 39,
    .ethNextHopTimeout 48,
    .neighbourLapse 39,
    .neighbourLapse 48] : List Instr).all (fun i => !i.wf) = true := by decide +kernel

theorem test_ill_formed_7 : ([
    .membershipReportRepeat 39,
    .membershipReportRepeat 48,
    .portDown 39,
    .portDown 48,
    .portUp 16 0 1,
    .portUp 39 0 1,
    .portUp 49 0 1,
    .portUp 40 15 1,
    .portUp 40 0 3,
    .portPcieReset 3,
    .crlFrameBad 4 [],
    .crlCreditReceived 4 [],
    .crlNakReceived 4 [],
    .crlRetryTimeout 4,
    .crlTileExpiry 4,
    .crlLayerReceived 4 [],
    .crlTileReceived 4 [],
    .crlEdgeReceived 4 [],
    .crlClaimReceived 4 [],
    .crlDelayReqReceived 4 []] : List Instr).all (fun i => !i.wf) = true := by decide +kernel

theorem test_ill_formed_8 : ([
    .crlDelayRespReceived 4 [],
    .crlDelayTimer 4,
    .crlPeerFault 4 [],
    .crlRegRequestReceived 4 [],
    .crlRegResponseReceived 4 [],
    .tmbIncIntWrite (2 ^ 32),
    .ptpTxWrWrite (2 ^ 32),
    .tmoEnable 16 0,
    .tmoEnable 0 (2 ^ 32),
    .tmoPulseStart 16,
    .tmoPulseEnd 16,
    .tmcEdge 8 false,
    .tmcTsRead 8,
    .apllLock 2,
    .tmbApllUnlock 2,
    .audFrameDue 32,
    .audSourceSample { kind := 6, index := 0, frames := [], rtp := 0, nonAudio := false, lpcm := true, rate := 0, csBlock := none, errors := 0 },
    .audSourceSample { kind := 0, index := 64, frames := [], rtp := 0, nonAudio := false, lpcm := true, rate := 0, csBlock := none, errors := 0 },
    .audNonAudioEnd 6 0,
    .audNonAudioEnd 0 64] : List Instr).all (fun i => !i.wf) = true := by decide +kernel

theorem test_ill_formed_9 : ([
    .audRefLost 3,
    .audRefLocked 3 0,
    .audRefLocked 0 (2 ^ 18),
    .audAsrcUnlock 16 0,
    .audAsrcUnlock 0 (2 ^ 32),
    .slotMaskWrite 4 0,
    .slotMaskWrite 0 (2 ^ 32),
    .audLoad 8 0,
    .tchScanDue 4,
    .tchScanDone 4 [],
    .tchTest 4,
    .tchTestDone 4 [] [],
    .tchSurvey 4,
    .tchSurveyDone 4 [] [],
    .chkRestart 16,
    .porstRelease 4,
    .pwrReset (2 ^ 32),
    .domainSwitchDone 17,
    .domainPowerTimeout 17,
    .supplyMonitorSample 32 0] : List Instr).all (fun i => !i.wf) = true := by decide +kernel

theorem test_ill_formed_10 : ([
    .supplyMonitorSample 0 65536,
    .glbEvqRdWrite (2 ^ 32),
    .intPendClear 2 0,
    .intPendClear 0 (2 ^ 32),
    .prbsLock 128,
    .prbsLockLost 128,
    .prbsError 128,
    .laneTestModeWrite 128 0,
    .laneTestModeWrite 0 (2 ^ 32),
    .stepTxSwitch 128,
    .stepRxTimeout 128,
    .crlFrameBoundary 4,
    .audAsrcLock 16 0,
    .audAsrcLock 0 (2 ^ 32)] : List Instr).all (fun i => !i.wf) = true := by decide +kernel

/-- A signature other than a given one. -/
theorem notSig (n : Nat) : (if n = 0 then 1 else 0) ≠ n := by split <;> omega

/-! ### Single results worked out from the spec -/

/-- The first round constant of SHA-384, from the cube root of 2 (FIPS 180-4, 4.2.3). -/
theorem test_first_round_constant : rootFraction 3 2 = 0x428a2f98d728ae22 := by decide +kernel

/-- The last round constant of SHA-384, from the cube root of 409. -/
theorem test_last_round_constant : rootFraction 3 409 = 0x6c44198c4a475817 := by decide +kernel


theorem witness_EmptyQueueCounts_1 :
    ∃ s : State, s.Inv ∧ s.pending = [] ∧ s.power.porst = false :=
  ⟨{ State.reset with power := { porst := false } },
    ⟨by decide +kernel, by decide +kernel, (by intro t h; cases h), by decide +kernel, by decide, by decide, by decide⟩,
    by decide⟩

theorem witness_EmptyQueueCounts_2 :
    ∃ s : State, s.pending = [] ∧ s.power.porst = false ∧ s.mem.outstanding = [] ∧ s.audio.aesNs = [] ∧ s.evq.cycle = [] ∧
    (∀ p ∈ s.lanes, p.2.lockNs = none) :=
  ⟨{ State.reset with power := { porst := false } }, by decide⟩

theorem witness_EmptyQueueCounts_3 :
    ∃ s : State, s.pending = [] ∧ s.power.porst = true :=
  ⟨State.reset, by decide⟩

theorem witness_StepKeepsInv_1 :
    ∃ s t : State, s.Inv ∧ step s = .next t :=
  ⟨State.reset, _,
    ⟨by decide +kernel, by decide +kernel, (by intro t h; cases h), by decide +kernel, by decide, by decide, by decide⟩, rfl⟩

theorem witness_FieldReadsBack_1 :
    ∃ (s : State) (f : Fld), wordsWf s.regs = true ∧ FldOk f ∧ f.hi = 31 :=
  ⟨at_ [(R.GLB_SCRATCH_VALUE, 5)], R.GLB_SCRATCH_VALUE, by decide +kernel⟩

theorem witness_RegisterWrite_1 :
    ∃ (s : State) (src v : Nat), src < 161 ∧ v < 2 ^ 32 ∧ s.powered 1 = true ∧ mayWrite s src 8 = true :=
  ⟨at_ [(R.PWR_STATUS_POWERED, 2)], 160, 2 ^ 32 - 1, by decide +kernel⟩

theorem witness_RegisterWrite_2 :
    ∃ (s : State) (src v : Nat), src < 161 ∧ v < 2 ^ 32 ∧ s.powered 1 = true ∧ mayWrite s src 0xD0008 = true :=
  ⟨at_ [(R.PWR_STATUS_POWERED, 2)], 160, 65535, by decide +kernel⟩

theorem witness_RegisterWrite_3 :
    ∃ (s : State) (src v : Nat), src < 161 ∧ v < 2 ^ 32 ∧ bitOf v 31 = true ∧ s.powered 1 = true ∧
    mayWrite s src 0x28 = true ∧ s.evq.cycle = [] :=
  ⟨at_ [(R.PWR_STATUS_POWERED, 2), (R.GLB_EVQ_STAT_OVERFLOW, 1)], 160, 2 ^ 31, by decide +kernel⟩

theorem witness_RegisterWrite_4 :
    ∃ (s : State) (src a v : Nat), src < 161 ∧ v < 2 ^ 32 ∧ (a = 0 ∨ a = 0x104 ∨ a = 0x1D0000 ∨ a = 0xFFFFFC) ∧
    s.powered 1 = true ∧ mayWrite s src a = true :=
  ⟨at_ [(R.PWR_STATUS_POWERED, 2)], 160, 0xFFFFFC, 2 ^ 32 - 1, by decide +kernel⟩

theorem witness_RegisterWrite_5 :
    ∃ (s : State) (src a v be : Nat), src < 161 ∧ a < 0x1000000 ∧ a % 4 = 0 ∧ v < 2 ^ 32 ∧ be < 15 ∧ ¬(src = 152 ∧
    0xFE0000 ≤ a ∧ a < 0xFE0808) ∧ s.powered 1 = true ∧ mayWrite s src a = true :=
  ⟨at_ [(R.PWR_STATUS_POWERED, 2), (R.GLB_ACCESS_PARTIAL, 255)], 160, 0xFDFFFC, 0, 14, by decide +kernel⟩

theorem witness_EventRecord_1 :
    ∃ (s : State) (code object : Nat), s.powered 1 = true ∧ s.evq.cycle = [] ∧ s.evq.entered = [] ∧ s.evq.lostSince = 0 ∧
    s.unread < 1024 ∧ code < 2 ^ 16 ∧ object < 2 ^ 32 ∧ s.rd R.GLB_EVQ_WR_INDEX = 1023 :=
  ⟨at_ [(R.PWR_STATUS_POWERED, 2), (R.GLB_EVQ_WR_INDEX, 1023), (R.GLB_EVQ_RD_INDEX, 0)], 2 ^ 16 - 1, 2 ^ 32 - 1,
    by decide +kernel⟩

theorem witness_EventDropped_1 :
    ∃ s : State, s.powered 1 = true ∧ s.evq.cycle = [] ∧ s.evq.entered = [] ∧ 1024 ≤ s.unread :=
  ⟨at_ [(R.PWR_STATUS_POWERED, 2), (R.GLB_EVQ_WR_LAP, 1)], by decide +kernel⟩

theorem witness_EventLostRecord_1 :
    ∃ (s : State) (code object : Nat), s.powered 1 = true ∧ s.evq.cycle = [] ∧ s.evq.entered = [] ∧ s.evq.lostSince ≠ 0 ∧
    s.unread < 1023 ∧ code < 2 ^ 16 ∧ object < 2 ^ 32 ∧ s.rd R.GLB_EVQ_WR_INDEX = 1023 :=
  ⟨{ at_ [(R.PWR_STATUS_POWERED, 2), (R.GLB_EVQ_WR_INDEX, 1023), (R.GLB_EVQ_RD_INDEX, 1)] with evq := { lostSince := 2 ^ 32 } },
    2 ^ 16 - 1, 2 ^ 32 - 1, by decide +kernel⟩

theorem witness_QueueWrites_1 :
    ∃ (s : State) (v : Nat), v < 2 ^ 32 ∧ s.evq.cycle = [] ∧ s.evq.lostSince = 0 ∧
    (v % 2048 + 2048 - (s.rd R.GLB_EVQ_RD_INDEX + 1024 * s.rd R.GLB_EVQ_RD_LAP)) % 2048 ≤ s.unread :=
  ⟨at_ [(R.GLB_EVQ_WR_LAP, 1)], 1024, by decide +kernel⟩

theorem witness_QueueWrites_2 :
    ∃ (s : State) (v : Nat), v < 2 ^ 32 ∧ s.evq.cycle = [] ∧
    s.unread < (v % 2048 + 2048 - (s.rd R.GLB_EVQ_RD_INDEX + 1024 * s.rd R.GLB_EVQ_RD_LAP)) % 2048 :=
  ⟨at_ [(R.GLB_EVQ_WR_INDEX, 5)], 6, by decide +kernel⟩

theorem witness_QueueWrites_3 :
    ∃ (s : State) (k w v : Nat), k < 2 ∧ w < 2 ^ 32 ∧ v / 32 = k ∧ bitOf w (v % 32) = true ∧ s.evq.cycle = [] ∧
    vectorWanted s v = false :=
  ⟨at_ [(vectorBit 63, 1)], 1, 2 ^ 31, 63, by decide +kernel⟩

theorem witness_CommitTakesTheSeal_1 :
    ∃ (s : State) (u : Tab Word), wordsWf s.regs = true ∧ wordsWf u = true ∧ s.sealed = some u ∧ u ≠ [] :=
  ⟨{ State.reset with sealed := some [(0xD0008, 77#32)] }, _, by decide +kernel, by decide +kernel, rfl, by decide⟩

theorem witness_TickEdge_1 :
    ∃ (s : State) (e : Nat), s.tick.geometryApplied = true ∧ edgeDue s = true :=
  ⟨{ at_ [(R.TMB_INC_INT_INT, 2)] with tick := { geometryApplied := true }, clap := { armAfter := true } }, 0,
    by decide +kernel⟩

theorem witness_TickEdge_2 :
    ∃ (s : State) (e : Nat), (s.tick.geometryApplied && edgeDue s) = false :=
  ⟨at_ [], 7, by decide +kernel⟩

theorem witness_TickCommands_1 :
    ∃ (s : State) (sh : Sheet), s.tick.building = some sh ∧ s.tick.complete = false ∧ s.tick.cueBad = false ∧
    s.nowNs + s.rd R.TICK_CFG_PUB_GUARD * 1000 ≤ s.tick.nextEdgeNs :=
  ⟨{ at_ [] with tick := { building := some {}, nextEdgeNs := 8000 } }, {}, by decide +kernel⟩

theorem witness_TickCommands_3 :
    ∃ (s : State), (tickSrc s = 1 ∨ tickSrc s = 2) :=
  ⟨at_ [(R.TICK_CTRL_SRC, 2)], by decide +kernel⟩

theorem witness_TickCommands_4 :
    ∃ (s : State), sourceLost s = true :=
  ⟨{ at_ [(R.TICK_CTRL_SRC, 1)] with tick := { selectedPeriods := some 17 } }, by decide +kernel⟩

theorem witness_ClapperCommands_1 :
    ∃ (s : State), pastCutoff s = true ∧ s.clap.armNext = true ∧ s.sealed = none :=
  ⟨{ at_ [(R.TICK_STATUS_RUN, 1)] with clap := { armNext := true }, tick := { nextEdgeNs := 50000 } }, by decide +kernel⟩

theorem witness_ClapperCommands_2 :
    ∃ (s : State), pastCutoff s = false :=
  ⟨{ at_ [(R.TICK_STATUS_RUN, 1)] with tick := { nextEdgeNs := 50001 } }, by decide +kernel⟩

theorem witness_ClapperCommands_3 :
    ∃ (s : State), pastCutoff s = true :=
  ⟨{ at_ [(R.TICK_STATUS_RUN, 1)] with tick := { nextEdgeNs := 50000 } }, by decide +kernel⟩

theorem witness_ClapperCommands_4 :
    ∃ (s : State), s.sealed = none :=
  ⟨{ at_ [(R.CLAP_STATUS_DIRTY, 1)] with shadow := [(0xD0008, 77#32)] }, by decide +kernel⟩

theorem witness_ClapperCommands_5 :
    ∃ (s : State), s.sealed ≠ none :=
  ⟨{ at_ [] with sealed := some [] }, by decide +kernel⟩

theorem witness_BandCommands_1 :
    ∃ (s : State) (u : Nat) (i : Item) (r : FrameRun), u < 32 ∧ unitWorks s u = true ∧ firstItem (unitItems s u) = some i ∧
    frameOf s i.work.flue i.work.serial = some r ∧ halfFree s i.work.flue r i.work.band = true :=
  ⟨{ at_ [(R.PWR_STATUS_POWERED, 0x3182)] with comp := { flues := [(0, { frames := [bandFrame] })] } }, 31,
    { work := { flue := 0, serial := 7, band := 0, rect := none }, deadline := bandFrame.deadline 0 0, order := 64 },
    bandFrame, by decide +kernel⟩

theorem witness_BandCommands_2 :
    ∃ (s : State) (u n m : Nat) (w : WorkItem) (r : FrameRun), u < 32 ∧ (s.unit u).work = some w ∧
    frameOf s w.flue w.serial = some r ∧ frameDark s w.flue r = false ∧ w.rect = some n ∧ memberOf r.sheet n u = some m ∧
    s.monoNs < r.deadline w.flue w.band - 5000 ∧ noJobReady s :=
  ⟨{ at_ [] with comp := { units := [(31, { work := some { flue := 23, serial := 7, band := 0, rect := some 63 } })], flues := [(23, { frames := [critFrame] })] } },
    31, 63, 0, { flue := 23, serial := 7, band := 0, rect := some 63 }, critFrame, by decide +kernel⟩

theorem witness_BandCommands_3 :
    ∃ (s : State) (u : Nat) (w : WorkItem) (r : FrameRun), u < 32 ∧ (s.unit u).work = some w ∧
    frameOf s w.flue w.serial = some r ∧ frameDark s w.flue r = false ∧ w.rect = none ∧ s.monoNs < r.deadline w.flue w.band ∧
    w.band < r.bands.length :=
  ⟨{ at_ [(R.PWR_STATUS_POWERED, 0x3182)] with comp := { units := [(31, { work := some { flue := 0, serial := 7, band := 0, rect := none } })], flues := [(0, { frames := [bandFrame] })] } },
    31, { flue := 0, serial := 7, band := 0, rect := none }, bandFrame, by decide +kernel⟩

theorem witness_BandCommands_4 :
    ∃ (s : State) (f k : Nat) (r : FrameRun), f < 24 ∧ k < 72 ∧ settleFrames f s = s ∧ frameAtDeadline s f k = some r ∧
    frameDark s f r = false ∧ bandReady r f k = false ∧ (r.band k).phase ≠ .faultHeld ∧
    (s.unit (r.band k).unit).stopped = false :=
  ⟨{ at_ [] with comp := { flues := [(23, { frames := [({ serial := 7, tick := 0, now := 0, index := 0, startNs := 0, periodNs := 16000000, sheet := {}, bands := [{}] } : FrameRun)] })] }, time := { sec := 1 } },
    23, 0,
    ({ serial := 7, tick := 0, now := 0, index := 0, startNs := 0, periodNs := 16000000, sheet := {}, bands := [{}] } : FrameRun),
    by decide +kernel⟩

theorem witness_FrameCommands_1 :
    ∃ (s : State) (f : Nat) (r : FrameRun), f < 24 ∧ (s.flue f).frames = [r] ∧ r.started = false ∧ r.startNs ≤ s.monoNs ∧
    s.monoNs < r.endNs ∧ r.dark = true :=
  ⟨{ at_ [] with comp := { flues := [(23, { frames := [({ serial := 7, tick := 0, now := 0, index := 0, startNs := 0, periodNs := 16000000, sheet := {}, dark := true } : FrameRun)] })] } },
    23,
    ({ serial := 7, tick := 0, now := 0, index := 0, startNs := 0, periodNs := 16000000, sheet := {}, dark := true } : FrameRun),
    by decide +kernel⟩

theorem witness_FrameCommands_2 :
    ∃ (s : State) (f : Nat) (r : FrameRun), f < 24 ∧ (s.flue f).frames = [r] ∧ r.started = false ∧ r.startNs ≤ s.monoNs ∧
    s.monoNs < r.endNs ∧ frameDark s f r = false :=
  ⟨{ at_ [] with comp := { flues := [(23, { frames := [({ serial := 7, tick := 0, now := 0, index := 0, startNs := 0, periodNs := 16000000, sheet := {} } : FrameRun)] })] } },
    23, ({ serial := 7, tick := 0, now := 0, index := 0, startNs := 0, periodNs := 16000000, sheet := {} } : FrameRun),
    by decide +kernel⟩

theorem witness_FrameCommands_3 :
    ∃ (s : State) (f l : Nat) (r : FrameRun), f < 24 ∧ (s.flue f).frames = [r] ∧ r.started = true ∧ r.underrun = false ∧
    frameDark s f r = false ∧ s.monoNs < r.endNs ∧ directLayer r.sheet f = some l :=
  ⟨{ at_ [] with comp := { flues := [(0, { frames := [({ serial := 7, tick := 0, now := 0, index := 0, startNs := 0, periodNs := 16000000, sheet := { direct := [(0, 5)] }, started := true } : FrameRun)] })] } },
    0, 5,
    ({ serial := 7, tick := 0, now := 0, index := 0, startNs := 0, periodNs := 16000000, sheet := { direct := [(0, 5)] }, started := true } : FrameRun),
    by decide +kernel⟩

theorem witness_CanaryCommands_1 :
    ∃ (s : State) (u : Nat), u < 32 ∧ canaryOwed s u = true ∧
    (s.rdb R.TICK_STATUS_RUN = false ∨ s.nowNs + 100000 ≤ s.tick.nextEdgeNs) :=
  ⟨{ at_ [(R.PWR_STATUS_POWERED, 0x3182), (R.TICK_STATUS_RUN, 1)] with tick := { nextEdgeNs := 100000 } }, 31,
    by decide +kernel⟩

theorem witness_CanaryCommands_2 :
    ∃ (s : State) (u sig : Nat), u < 32 ∧ sig < 2 ^ 32 ∧ sig ≠ (Config.canaryRom (s.rd R.TICK_COUNT_COUNT % 16)).toNat ∧
    canaryOwed s u = true :=
  ⟨{ at_ [(R.PWR_STATUS_POWERED, 0x3182)] with comp := { units := [(31, { withdrawn := true, rejoining := true })] } }, 31,
    if (Config.canaryRom (State.reset.rd R.TICK_COUNT_COUNT % 16)).toNat = 0 then 1 else 0, by decide,
    by split <;> decide,
    by show _ ≠ (Config.canaryRom (State.reset.rd R.TICK_COUNT_COUNT % 16)).toNat; exact notSig _,
    by decide +kernel⟩

theorem witness_CanaryCommands_3 :
    ∃ (s : State) (u sig : Nat), u < 32 ∧ sig < 2 ^ 32 ∧ canaryOwed s u = true ∧ s.rdb R.TICK_STATUS_RUN = true ∧
    s.tick.nextEdgeNs < s.nowNs + 100000 :=
  ⟨at_ [(R.PWR_STATUS_POWERED, 0x3182), (R.TICK_STATUS_RUN, 1)], 31, 0, by decide +kernel⟩

theorem witness_CanaryCommands_4 :
    ∃ (s : State) (u : Nat), u < 32 ∧ s.rdb R.TICK_STATUS_RUN = true ∧ canaryOwed s u = true ∧
    s.tick.nextEdgeNs ≤ s.nowNs + 100000 :=
  ⟨at_ [(R.TICK_STATUS_RUN, 1), (R.PWR_STATUS_POWERED, 0x3182)], 31, by decide +kernel⟩

theorem witness_VoteCommands_1 :
    ∃ (s : State) (f tl u sig n m : Nat) (w : WorkItem) (r : FrameRun), f < 24 ∧ u < 32 ∧ sig < 2 ^ 32 ∧
    (s.unit u).work = some w ∧ w.flue = f ∧ frameOf s f w.serial = some r ∧ frameDark s f r = false ∧ w.rect = some n ∧
    criticalRect r.sheet f tl = some n ∧ bandOf r.sheet f tl = w.band ∧ memberOf r.sheet n u = some m ∧
    s.rdb R.INJ_VOTER_ENABLE = false ∧ (r.membersOf n).contains m = true ∧ s.monoNs < r.deadline f w.band - 5000 ∧
    voteHopeless s r n = false ∧ r.vote tl = {} ∧ 2 ≤ (r.membersOf n).length ∧ noJobReady s :=
  ⟨{ at_ [] with comp := { units := [(31, { work := some { flue := 23, serial := 7, band := 0, rect := some 63 } })], flues := [(23, { frames := [critFrame] })] } },
    23, 0, 31, 2 ^ 32 - 1, 63, 0, { flue := 23, serial := 7, band := 0, rect := some 63 }, critFrame, by decide +kernel⟩

theorem witness_VoteCommands_2 :
    ∃ (s : State) (f tl u sig n m : Nat) (w : WorkItem) (r : FrameRun) (x : VoteSig), f < 24 ∧ u < 32 ∧ sig < 2 ^ 32 ∧
    (s.unit u).work = some w ∧ w.flue = f ∧ frameOf s f w.serial = some r ∧ frameDark s f r = false ∧ w.rect = some n ∧
    criticalRect r.sheet f tl = some n ∧ bandOf r.sheet f tl = w.band ∧ memberOf r.sheet n u = some m ∧
    s.rdb R.INJ_VOTER_ENABLE = false ∧ (r.membersOf n).contains m = true ∧ s.monoNs < r.deadline f w.band - 5000 ∧
    voteHopeless s r n = false ∧ (r.vote tl).sigs = [x] ∧ (r.vote tl).decision = none ∧ x.member ≠ m ∧ x.sig = sig :=
  ⟨{ at_ [] with comp := { units := [(31, { work := some { flue := 23, serial := 7, band := 0, rect := some 63 } })], flues := [(23, { frames := [signedFrame] })] } },
    23, 0, 31, 5, 63, 0, { flue := 23, serial := 7, band := 0, rect := some 63 }, signedFrame,
    { member := 1, unit := 3, sig := 5, slot := some 0 }, by decide +kernel⟩

theorem witness_VoteCommands_3 :
    ∃ (s : State) (f tl u sig n m : Nat) (w : WorkItem) (r : FrameRun) (x : VoteSig), f < 24 ∧ u < 32 ∧ sig < 2 ^ 32 ∧
    (s.unit u).work = some w ∧ w.flue = f ∧ frameOf s f w.serial = some r ∧ frameDark s f r = false ∧ w.rect = some n ∧
    criticalRect r.sheet f tl = some n ∧ bandOf r.sheet f tl = w.band ∧ memberOf r.sheet n u = some m ∧
    s.rdb R.INJ_VOTER_ENABLE = false ∧ (r.membersOf n).contains m = true ∧ s.monoNs < r.deadline f w.band - 5000 ∧
    voteHopeless s r n = false ∧ (r.vote tl).sigs = [x] ∧ (r.vote tl).decision = none ∧ x.member ≠ m ∧ x.sig ≠ sig ∧
    r.started = true ∧ (r.membersOf n).length = 2 :=
  ⟨{ at_ [] with comp := { units := [(31, { work := some { flue := 23, serial := 7, band := 0, rect := some 63 } })], flues := [(23, { frames := [signedFrame] })] } },
    23, 0, 31, 6, 63, 0, { flue := 23, serial := 7, band := 0, rect := some 63 }, signedFrame,
    { member := 1, unit := 3, sig := 5, slot := some 0 }, by decide +kernel⟩

theorem witness_VoteCommands_4 :
    ∃ (s : State) (f k : Nat) (r : FrameRun), f < 24 ∧ k < 72 ∧ (s.flue f).frames = [r] ∧ k < r.bands.length ∧
    (r.band k).cut = false ∧ r.deadline f k - 5000 ≤ s.monoNs ∧ frameDark s f r = false :=
  ⟨{ at_ [] with comp := { flues := [(23, { frames := [critFrame] })] }, time := { sec := 1 } }, 23, 0, critFrame,
    by decide +kernel⟩

theorem witness_VoteCommands_5 :
    ∃ (s : State) (f k : Nat) (r : FrameRun), f < 24 ∧ k < 72 ∧ (s.flue f).frames = [r] ∧ k < r.bands.length ∧
    (r.band k).cut = false ∧ r.deadline f k - 5000 ≤ s.monoNs ∧ frameDark s f r = true :=
  ⟨{ at_ [] with comp := { flues := [(23, { frames := [({ serial := 7, tick := 0, now := 0, index := 0, startNs := 0, periodNs := 16000000, sheet := {}, bands := [{}], dark := true } : FrameRun)] })] }, time := { sec := 1 } },
    23, 0,
    ({ serial := 7, tick := 0, now := 0, index := 0, startNs := 0, periodNs := 16000000, sheet := {}, bands := [{}], dark := true } : FrameRun),
    by decide +kernel⟩

theorem witness_SentinelCommands_1 :
    ∃ (s : State) (f : Nat) (samples ts : List Nat) (c : Corr), f < 24 ∧ sentinelOn s f = true ∧
    s.rdb (R.SNT_FLUE_STAT_SUSPENDED f) = false ∧ periodTimes (s.flue f) = some ts ∧ s.powered 6 = true ∧
    ((List.range 8).map (correlate ((s.tick.current.map fun sh => sh.rd (R.SNT_FLUE_CFG_CODE f)).getD (s.rd (R.SNT_FLUE_CFG_CODE f))) samples ts
        ((((ts.headD 0 : Nat) : Int) + s.time.offset + 9999) / 10000 * 10000 - s.time.offset).toNat
        (s.rd R.TICK_PERIOD_NS_PERIOD / (1 + s.rd (R.CMP_FLUE_CTRL_X2 f))))).foldl (fun (b : Option Corr) c =>
          match b with | none => some c | some x => if corrGreater c x then some c else b) none = some c ∧
    corrAtLeast c (s.rd (R.SNT_FLUE_CFG_THRESH f)) = false :=
  ⟨{ at_ [(R.SNT_FLUE_CFG_ENABLE 23, 1), (R.SNT_FLUE_CFG_CODE 23, 1), (R.SNT_FLUE_CFG_THRESH 23, 255), (R.PWR_STATUS_POWERED, 64), (R.TICK_PERIOD_NS_PERIOD, 10000)] with comp := { flues := [(23, { chips := chips25 })] } },
    23, [], times16, correlate 1 [] times16 0 10000 0, by decide +kernel⟩

theorem witness_SentinelCommands_2 :
    ∃ (s : State) (f : Nat) (samples ts : List Nat) (c : Corr), f < 24 ∧ sentinelOn s f = true ∧
    s.rdb (R.SNT_FLUE_STAT_SUSPENDED f) = false ∧ periodTimes (s.flue f) = some ts ∧ s.powered 6 = true ∧
    ((List.range 8).map (correlate ((s.tick.current.map fun sh => sh.rd (R.SNT_FLUE_CFG_CODE f)).getD (s.rd (R.SNT_FLUE_CFG_CODE f))) samples ts
        ((((ts.headD 0 : Nat) : Int) + s.time.offset + 9999) / 10000 * 10000 - s.time.offset).toNat
        (s.rd R.TICK_PERIOD_NS_PERIOD / (1 + s.rd (R.CMP_FLUE_CTRL_X2 f))))).foldl (fun (b : Option Corr) c =>
          match b with | none => some c | some x => if corrGreater c x then some c else b) none = some c ∧
    corrAtLeast c (s.rd (R.SNT_FLUE_CFG_THRESH f)) = true :=
  ⟨{ at_ [(R.SNT_FLUE_CFG_ENABLE 23, 1), (R.SNT_FLUE_CFG_CODE 23, 1), (R.SNT_FLUE_CFG_THRESH 23, 255), (R.PWR_STATUS_POWERED, 64), (R.TICK_PERIOD_NS_PERIOD, 10000)] with comp := { flues := [(23, { chips := chips25 })] } },
    23, samples16, times16, correlate 1 samples16 times16 0 10000 0, by decide +kernel⟩

theorem witness_SentinelCommands_3 :
    ∃ (s : State) (f : Nat), f < 24 ∧ sentinelOn s f = true ∧ s.rdb (R.SNT_FLUE_STAT_SUSPENDED f) = false ∧
    (s.rd (R.SNT_FLUE_STAT_STATE f) = 1 ∨ s.rd (R.SNT_FLUE_STAT_STATE f) = 2) ∧
    max 32 (s.rd (R.SNT_FLUE_LIMIT_CONFIRM_TICKS f)) ≤ (s.rd R.TICK_COUNT_COUNT + 2 ^ 32 - (s.flue f).seekTick) % 2 ^ 32 :=
  ⟨at_ [(R.SNT_FLUE_CFG_ENABLE 23, 1), (R.SNT_FLUE_STAT_STATE 23, 2), (R.TICK_COUNT_COUNT, 2 ^ 32 - 1)], 23,
    by decide +kernel⟩

theorem witness_WardenProposals_1 :
    ∃ (s : State) (core i a o : Nat), i < 256 ∧ coreIn s core = true ∧ handlingRec s = some i ∧ needsVote s i = true ∧
    (s.frec i).voted = none ∧ s.faults.windows.find? (·.index == i) = none :=
  ⟨{ at_ [(R.WDN_STATUS_HANDLING, 1), (R.WDN_STATUS_HANDLING_IDX, 255)] with faults := { recs := [(255, { action := 1 })] } },
    2, 255, 1, 31, by decide +kernel⟩

theorem witness_WardenProposals_2 :
    ∃ (s : State) (core i a o : Nat) (w : VoteWindow) (p : Proposal), i < 256 ∧ coreIn s core = true ∧
    s.faults.windows = [w] ∧ w.index = i ∧ s.monoNs < w.openNs + 2000 ∧ w.agreed = none ∧ w.props = [p] ∧ p.core ≠ core ∧
    p.action = a ∧ p.object = o :=
  ⟨{ at_ [] with faults := { windows := [{ index := 255, openNs := 0, props := [{ core := 0, action := 1, object := 3 }] }] }, time := { ns := 1999 } },
    2, 255, 1, 3, { index := 255, openNs := 0, props := [{ core := 0, action := 1, object := 3 }] },
    { core := 0, action := 1, object := 3 }, by decide +kernel⟩

theorem witness_WardenProposals_3 :
    ∃ (s : State) (w : VoteWindow) (a o c : Nat), s.faults.windows = [w] ∧ w.openNs + 2000 ≤ s.monoNs ∧
    w.agreed = some (a, o) ∧ c < 3 ∧
    (List.range 3).filter (fun d => coreIn s d && !w.props.any fun p => p.core == d && p.action == a && p.object == o) = [c] ∧
    s.faults.openRecs = [] ∧ noRectLive s :=
  ⟨{ at_ [(R.CRT_WSTAT_IN_VOTE, 7)] with faults := { windows := [{ index := 255, openNs := 0, props := [{ core := 0, action := 1, object := 3 }, { core := 1, action := 1, object := 3 }], agreed := some (1, 3) }] }, time := { ns := 2000 } },
    { index := 255, openNs := 0, props := [{ core := 0, action := 1, object := 3 }, { core := 1, action := 1, object := 3 }], agreed := some (1, 3) },
    1, 3, 2, by decide +kernel⟩

theorem witness_WardenProposals_4 :
    ∃ (s : State) (w : VoteWindow) (ws : List VoteWindow), s.faults.windows = w :: ws ∧ w.openNs + 2000 ≤ s.monoNs ∧
    w.agreed = none ∧ (s.frec w.index).splits = 0 :=
  ⟨{ at_ [(R.CRT_WVOTE_SPLITS, 255)] with faults := { windows := [{ index := 255 }] }, time := { ns := 2000 } },
    { index := 255 }, [], by decide +kernel⟩

theorem witness_WardenHandling_1 :
    ∃ (s : State) (i : Nat), i < 256 ∧ s.rdb R.WDN_STATUS_HANDLING = false ∧ i ∈ s.faults.openRecs ∧
    s.rd (R.WDN_LOG_W1_STATE i) = 1 ∧ (∀ j ∈ s.faults.openRecs, (s.frec j).urgent = false ∧
    (j = i ∨ (s.rd (R.WDN_LOG_W1_STATE j) ≠ 1 ∧ s.rd (R.WDN_LOG_W1_STATE j) ≠ 3) ∨ (s.frec i).seqNo < (s.frec j).seqNo)) ∧
    needsVote s i = true :=
  ⟨{ at_ [(R.WDN_LOG_W1_STATE 255, 1), (R.WDN_LOG_W1_STATE 0, 1)] with faults := { openRecs := [0, 255], recs := [(0, { seqNo := 1 }), (255, { action := 1 })] } },
    255, by decide +kernel⟩

theorem witness_WardenHandling_2 :
    ∃ (s : State) (i : Nat), i < 256 ∧ s.rdb R.WDN_STATUS_HANDLING = false ∧ i ∈ s.faults.openRecs ∧
    s.rd (R.WDN_LOG_W1_STATE i) = 1 ∧ (∀ j ∈ s.faults.openRecs, (s.frec j).urgent = false ∧
    (j = i ∨ (s.rd (R.WDN_LOG_W1_STATE j) ≠ 1 ∧ s.rd (R.WDN_LOG_W1_STATE j) ≠ 3) ∨ (s.frec i).seqNo < (s.frec j).seqNo)) ∧
    needsVote s i = false ∧ s.rd (R.WDN_LOG_W1_CODE i) ≠ 0x0B :=
  ⟨{ at_ [(R.WDN_LOG_W1_STATE 255, 1), (R.WDN_LOG_W1_CODE 255, 0xC)] with faults := { openRecs := [255] } }, 255,
    by decide +kernel⟩

theorem witness_WardenHandling_3 :
    ∃ (s : State) (c i : Nat), handlingRec s = some i ∧ (s.frec i).voted = none ∧ needsVote s i = true ∧
    hooked s (s.rd (R.WDN_LOG_W1_CODE i)) = true ∧ s.faults.windows = [] ∧ coreIn s c = true :=
  ⟨{ at_ [(R.WDN_STATUS_HANDLING, 1), (R.WDN_STATUS_HANDLING_IDX, 255), (R.WDN_LOG_W1_CODE 255, 3), (R.WDN_LOG_W1_OBJECT 255, 31), (R.WDN_HOOK_EN_CODES, 4)] with faults := { recs := [(255, { action := 1 })] } },
    2, 255, by decide +kernel⟩

theorem witness_WardenHandling_4 :
    ∃ (s : State) (c d i : Nat), handlingRec s = some i ∧ (s.frec i).voted = none ∧ needsVote s i = true ∧
    hooked s (s.rd (R.WDN_LOG_W1_CODE i)) = true ∧ s.faults.windows = [] ∧ coreIn s c = true ∧ coreIn s d = true ∧ c ≠ d :=
  ⟨{ at_ [(R.WDN_STATUS_HANDLING, 1), (R.WDN_STATUS_HANDLING_IDX, 255), (R.WDN_LOG_W1_CODE 255, 3), (R.WDN_LOG_W1_OBJECT 255, 31), (R.WDN_HOOK_EN_CODES, 4)] with faults := { recs := [(255, { action := 1 })] } },
    2, 0, 255, by decide +kernel⟩

theorem witness_WardenHandling_5 :
    ∃ (s : State) (c i a o : Nat) (w : VoteWindow), handlingRec s = some i ∧ (s.frec i).voted = some (a, o) ∧
    hooked s (s.rd (R.WDN_LOG_W1_CODE i)) = true ∧ s.faults.windows = [w] ∧ w.index = i ∧ w.agreed = some (a, o) ∧
    s.monoNs < w.openNs + 2000 ∧ coreIn s c = true ∧ w.props.any (·.core == c) = false :=
  ⟨{ at_ [(R.WDN_STATUS_HANDLING, 1), (R.WDN_STATUS_HANDLING_IDX, 255), (R.WDN_LOG_W1_CODE 255, 3), (R.WDN_LOG_W1_OBJECT 255, 31), (R.WDN_HOOK_EN_CODES, 4)] with faults := { recs := [(255, { action := 1, voted := some (1, 3) })], windows := [{ index := 255, openNs := 0, props := [{ core := 0, action := 1, object := 3 }, { core := 1, action := 1, object := 3 }], agreed := some (1, 3) }] } },
    2, 255, 1, 3,
    { index := 255, openNs := 0, props := [{ core := 0, action := 1, object := 3 }, { core := 1, action := 1, object := 3 }], agreed := some (1, 3) },
    by decide +kernel⟩

theorem witness_WardenHandling_6 :
    ∃ (s : State) (i : Nat), handlingRec s = some i ∧ needsVote s i = true ∧ s.faults.windows.any (·.index == i) = true :=
  ⟨{ at_ [(R.WDN_STATUS_HANDLING, 1), (R.WDN_STATUS_HANDLING_IDX, 255), (R.WDN_LOG_W1_CODE 255, 3), (R.WDN_LOG_W1_OBJECT 255, 31), (R.WDN_HOOK_EN_CODES, 4)] with faults := { recs := [(255, { action := 1 })], windows := [{ index := 255, openNs := 0, props := [{ core := 0, action := 1, object := 3 }] }] } },
    255, by decide +kernel⟩

theorem witness_WardenHandling_7 :
    ∃ (s : State) (overrun : List Nat) (i : Nat), handlingRec s = some i ∧ (s.frec i).voted = none ∧ needsVote s i = true ∧
    hooked s (s.rd (R.WDN_LOG_W1_CODE i)) = false ∧ s.faults.windows = [] ∧ (s.frec i).splits = 0 :=
  ⟨{ at_ [(R.WDN_STATUS_HANDLING, 1), (R.WDN_STATUS_HANDLING_IDX, 255)] with faults := { recs := [(255, { action := 1 })] } },
    [0, 1, 2], 255, by decide +kernel⟩

theorem witness_WardenHandling_8 :
    ∃ (s : State) (i u : Nat), handlingRec s = some i ∧ i < 256 ∧ (s.frec i).voted = some (1, u) ∧ u < 32 ∧ noRectLive s :=
  ⟨{ at_ [(R.WDN_STATUS_HANDLING, 1), (R.WDN_STATUS_HANDLING_IDX, 255), (R.WDN_LOG_W1_CODE 255, 3), (R.WDN_LOG_W1_OBJECT 255, 31), (R.WDN_HOOK_EN_CODES, 4)] with faults := { openRecs := [255], recs := [(255, { action := 1, voted := some (1, 31) })] } },
    255, 31, by decide +kernel⟩

theorem witness_WardenHandling_9 :
    ∃ (s : State) (i o : Nat), handlingRec s = some i ∧ (s.frec i).voted = some (0, o) ∧ (s.frec i).holding = false ∧
    (s.frec i).cues = [] ∧ noRectLive s :=
  ⟨{ at_ [(R.WDN_STATUS_HANDLING, 1), (R.WDN_STATUS_HANDLING_IDX, 255)] with faults := { recs := [(255, { voted := some (0, 0) })] } },
    255, 0, by decide +kernel⟩

theorem witness_PackageFaults_1 :
    ∃ (s : State), s.faults.openRecs.any (timedOut s) = true ∧ s.rdb R.WDN_STATUS_PKG_FAULT = false :=
  ⟨{ at_ [(R.WDN_LOG_W1_STATE 0, 1), (R.TICK_COUNT_COUNT, 64)] with faults := { openRecs := [0], recs := [(0, { action := 1 })] } },
    by decide +kernel⟩

theorem witness_PackageFaults_2 :
    ∃ (s : State) (k : Nat), k < 24 :=
  ⟨at_ [], 23, by decide +kernel⟩

theorem witness_PackageFaults_4 :
    ∃ (s : State) (r : Nat) (x : RegionReset), r < 4 ∧ s.faults.resets.find? (·.region == r) = some x ∧
    x.atNs + 1000000 ≤ s.monoNs ∧ regionMonitorOut s r = true :=
  ⟨{ at_ [] with faults := { resets := [{ region := 3, record := 0, atNs := 0 }] }, time := { ns := 1000000 } }, 3,
    { region := 3, record := 0, atNs := 0 }, by decide +kernel⟩

theorem witness_FaultDetections_1 :
    ∃ (s : State) (u i : Nat), u < 32 ∧ (s.unit u).work.isSome = true ∧ s.faults.openRecs = [] ∧ noRectLive s ∧
    i = s.rd R.WDN_LOG_PTR_WR :=
  ⟨{ at_ [(R.WDN_LOG_PTR_WR, 255)] with comp := { units := [(31, { work := some { flue := 0, serial := 0, band := 0, rect := none } })] } },
    31, 255, by decide +kernel⟩

theorem witness_FaultDetections_2 :
    ∃ (s : State) (c i : Nat), c < 8 ∧ s.faults.openRecs = [] ∧ noRectLive s ∧ i = s.rd R.WDN_LOG_PTR_WR :=
  ⟨at_ [(R.WDN_LOG_PTR_WR, 255)], 7, 255, by decide +kernel⟩

theorem witness_FaultDetections_3 :
    ∃ (s : State) (c i : Nat), c < 8 ∧ s.faults.openRecs = [] ∧ noRectLive s ∧ i = s.rd R.WDN_LOG_PTR_WR :=
  ⟨at_ [(R.WDN_LOG_PTR_WR, 255)], 7, 255, by decide +kernel⟩

theorem witness_FaultDetections_4 :
    ∃ (s : State) (c i : Nat), c < 8 ∧ s.faults.openRecs = [] ∧ noRectLive s ∧ i = s.rd R.WDN_LOG_PTR_WR :=
  ⟨at_ [(R.WDN_LOG_PTR_WR, 255)], 7, 255, by decide +kernel⟩

theorem witness_FaultDetections_5 :
    ∃ (s : State) (f i : Nat), f < 24 ∧ s.faults.openRecs = [] ∧ noRectLive s ∧ i = s.rd R.WDN_LOG_PTR_WR :=
  ⟨at_ [(R.WDN_LOG_PTR_WR, 255)], 23, 255, by decide +kernel⟩

theorem witness_FaultDetections_6 :
    ∃ (s : State) (d i : Nat), d < 2 ∧ s.faults.openRecs = [] ∧ noRectLive s ∧ i = s.rd R.WDN_LOG_PTR_WR :=
  ⟨at_ [(R.WDN_LOG_PTR_WR, 255)], 1, 255, by decide +kernel⟩

theorem witness_InjectionCommands_1 :
    ∃ (s : State) (n w : Nat), n < 12 ∧ w < 2 ^ 32 ∧ bits w 31 30 ≠ 0 ∧
    s.rdb (if n < 4 then R.INJ_PERMIT_CRL_RX else R.INJ_PERMIT_ETH_RX) = false :=
  ⟨at_ [], 11, 2 ^ 30, by decide +kernel⟩

theorem witness_InjectionCommands_2 :
    ∃ (s : State) (n w : Nat), n < 12 ∧ w < 2 ^ 32 ∧ bits w 31 30 ≠ s.rd (R.INJ_RX_CFG_MODE n) ∧
    s.rdb (if n < 4 then R.INJ_PERMIT_CRL_RX else R.INJ_PERMIT_ETH_RX) = true :=
  ⟨at_ [(R.INJ_PERMIT_ETH_RX, 1)], 11, 2 ^ 32 - 1, by decide +kernel⟩

theorem witness_InjectionCommands_3 :
    ∃ (s : State) (w : Nat), w < 2 ^ 32 ∧ (bitOf w 31 = false ∨ s.rdb R.INJ_PERMIT_VOTER = true) :=
  ⟨at_ [(R.INJ_PERMIT_VOTER, 1)], 2 ^ 32 - 1, by decide +kernel⟩

theorem witness_InjectionCommands_4 :
    ∃ (s : State) (w : Nat), w < 2 ^ 32 ∧ bitOf w 31 = true ∧ s.rdb R.INJ_PERMIT_DRAM = true ∧
    (bits w 25 24 = 1 ∨ bits w 25 24 = 2) :=
  ⟨at_ [(R.INJ_PERMIT_DRAM, 1)], 0x8217FFFF, by decide +kernel⟩

theorem witness_InjectionCommands_5 :
    ∃ (s : State) (w : Nat), w < 2 ^ 32 ∧ (bitOf w 31 = false ∨ s.rdb R.INJ_PERMIT_LANE = true) :=
  ⟨at_ [(R.INJ_PERMIT_LANE, 1)], 2 ^ 32 - 1, by decide +kernel⟩

theorem witness_InjectionCommands_6 :
    ∃ (s : State), s.rdb R.INJ_VOTER_ENABLE = true ∧ s.rd R.INJ_VOTER_COUNT = 0 :=
  ⟨at_ [(R.INJ_VOTER_ENABLE, 1)], by decide +kernel⟩

theorem witness_InjectionCommands_7 :
    ∃ (s : State), s.rdb R.INJ_DRAM_ENABLE = true ∧ s.rd R.INJ_DRAM_COUNT = 0 :=
  ⟨at_ [(R.INJ_DRAM_ENABLE, 1)], by decide +kernel⟩

theorem witness_ThermalCommands_1 :
    ∃ (s : State) (i : Nat) (v : Int), i < 24 ∧ -320 ≤ v ∧ v ≤ 1200 :=
  ⟨at_ [], 23, -320, by decide +kernel⟩

theorem witness_ThermalCommands_2 :
    ∃ (s : State) (i : Nat) (v : Int), i < 24 ∧ (v < -320 ∨ 1200 < v) ∧ s.rdb (R.PWR_TEMP_VALID i) = true :=
  ⟨at_ [(R.PWR_TEMP_VALID 23, 1)], 23, 1201, by decide +kernel⟩

theorem witness_ThermalCommands_3 :
    ∃ (s : State) (i : Nat), i < 24 ∧ s.rdb (R.PWR_TEMP_VALID i) = true :=
  ⟨at_ [(R.PWR_TEMP_VALID 23, 1)], 23, by decide +kernel⟩

theorem witness_ThermalCommands_4 :
    ∃ (s : State), s.rdb R.DMP_STATUS_EMERGENCY = true ∧ 64 ≤ s.damper.coolRun :=
  ⟨{ at_ [(R.DMP_STATUS_EMERGENCY, 1)] with damper := { coolRun := 64 } }, by decide +kernel⟩

theorem witness_ThermalCommands_5 :
    ∃ (s : State) (a : DmpTaken) (as : List DmpTaken), s.rdb R.DMP_CTRL_ENABLE = true ∧ s.rdb R.DMP_STATUS_EMERGENCY = false ∧
    max 1 (s.rd R.DMP_RELAX_RELAX_TICKS) ≤ s.damper.relaxRun ∧ s.damper.actions = a :: as :=
  ⟨{ at_ [(R.DMP_CTRL_ENABLE, 1)] with damper := { relaxRun := 300, actions := [{ act := .defer }] } }, { act := .defer },
    [], by decide +kernel⟩

theorem witness_ImageLoad_1 :
    ∃ (s : State), (s.rd R.IMG_STATUS_LOAD_STATE = 0 ∨ 6 ≤ s.rd R.IMG_STATUS_LOAD_STATE) ∧ s.rd R.IMG_CTRL_SRC = 0 ∧
    s.rd R.IMG_SRC_LO_ADDR % 64 = 0 :=
  ⟨at_ [(R.IMG_SRC_LO_ADDR, 64)], by decide +kernel⟩

theorem witness_ImageLoad_2 :
    ∃ (s : State), 1 ≤ s.rd R.IMG_STATUS_LOAD_STATE ∧ s.rd R.IMG_STATUS_LOAD_STATE ≤ 5 :=
  ⟨at_ [(R.IMG_STATUS_LOAD_STATE, 5)], by decide +kernel⟩

theorem witness_ImageLoad_3 :
    ∃ (s : State) (bs : List Byte), s.rd R.IMG_STATUS_LOAD_STATE = 1 ∧ s.img.headerRead = false ∧ bs.length = 0x200 ∧
    headerFaults bs = [] :=
  ⟨at_ [(R.IMG_STATUS_LOAD_STATE, 1)], smallHeader 0 0 (List.replicate 256 0xFF), by decide +kernel⟩

theorem witness_ImageLoad_4 :
    ∃ (s : State) (bs : List Byte), s.rd R.IMG_STATUS_LOAD_STATE = 1 ∧ s.img.headerRead = true ∧
    bs.length + 0x200 = imageSize s.img.staging :=
  ⟨{ at_ [(R.IMG_STATUS_LOAD_STATE, 1)] with img := { headerRead := true, staging := [0, 0, 0, 0, 0, 0, 0, 0, 0, 2] } }, [],
    by decide +kernel⟩

theorem witness_ImageLoad_5 :
    ∃ (s : State) (bs : List Byte) (o : Nat), o < 2 ^ 22 ∧ s.rd R.IMG_STATUS_LOAD_STATE = 1 ∧ s.img.boot = false :=
  ⟨at_ [(R.IMG_STATUS_LOAD_STATE, 1)], [], 2 ^ 22 - 1, by decide +kernel⟩

theorem witness_ImageLoad_6 :
    ∃ (s : State) (h : List Byte), s.rd R.IMG_STATUS_LOAD_STATE = 2 ∧ s.img.boot = false ∧ s.fuses.hash0 = some h ∧
    keyKnown s.fuses (sha384 ((s.img.staging.drop 0x40).take 96)) = false :=
  ⟨{ at_ [(R.IMG_STATUS_LOAD_STATE, 2)] with fuses := { hash0 := some [] } }, [], by decide +kernel⟩

theorem witness_ImageLoad_7 :
    ∃ (s : State) (n : Nat) (q sg : List Byte), s.rd R.IMG_STATUS_LOAD_STATE = 2 ∧ n = s.img.staging.length - 96 ∧
    q = (s.img.staging.drop 0x40).take 96 ∧ sg = s.img.staging.drop n ∧ s.fuses.hash0 = none ∧ s.fuses.hash1 = none ∧
    ecdsaVerify (ofBeBytes (q.take 48)) (ofBeBytes (q.drop 48)) (s.img.staging.take n) (ofBeBytes (sg.take 48)) (ofBeBytes (sg.drop 48)) = true ∧
    s.fuses.svn ≤ imageSvn s.img.staging ∧ imagePartial s.img.staging = false :=
  ⟨{ at_ [(R.IMG_STATUS_LOAD_STATE, 2)] with img := { staging := signedBytes } }, 160, (signedBytes.drop 64).take 96,
    signedBytes.drop 160, by decide +kernel⟩

theorem witness_ImageLoad_8 :
    ∃ (s : State), s.rd R.IMG_STATUS_LOAD_STATE = 3 ∧ validateFault s s.img.staging = none ∧ imagePartial s.img.staging = true :=
  ⟨{ at_ [(R.IMG_STATUS_LOAD_STATE, 3), (R.IMG_STATUS_CONFIGURED, 1)] with img := { staging := partialImage } },
    by decide +kernel⟩

theorem witness_ImageLoad_9 :
    ∃ (s : State) (fails ts : List Nat), s.rd R.IMG_STATUS_LOAD_STATE = 5 ∧ s.img.todo = 9 :: ts ∧ ts ≠ [] ∧
    stepReady s 9 = true :=
  ⟨{ at_ [(R.IMG_STATUS_LOAD_STATE, 5)] with img := { todo := [9, 1] } }, [], [1], by decide +kernel⟩

theorem witness_ImageLoad_10 :
    ∃ (s : State) (fails ts : List Nat) (k : Nat), s.rd R.IMG_STATUS_LOAD_STATE = 5 ∧ s.img.todo = k :: ts ∧ k < 16 ∧
    s.img.boot = false :=
  ⟨{ at_ [(R.IMG_STATUS_LOAD_STATE, 5)] with img := { todo := [15] } }, [], [], 15, by decide +kernel⟩

theorem witness_ImageLoad_11 :
    ∃ (s : State), s.rd R.IMG_STATUS_LOAD_STATE = 4 ∧ s.img.boot = false :=
  ⟨at_ [(R.IMG_STATUS_LOAD_STATE, 4)], by decide +kernel⟩

theorem witness_ImageLoad_12 :
    ∃ (s : State), s.rd R.IMG_STATUS_LOAD_STATE = 4 ∧ s.img.boot = false ∧ max 1 s.img.wait ≤ s.img.waited :=
  ⟨{ at_ [(R.IMG_STATUS_LOAD_STATE, 4)] with img := { waited := 1 } }, by decide +kernel⟩

theorem witness_FuseCommands_1 :
    ∃ (s : State), s.img.applied = false ∧ s.fuses.hash0 = none :=
  ⟨at_ [(R.IMG_FUSE_DATA_HASH 11, 2 ^ 32 - 1)], by decide +kernel⟩

theorem witness_FuseCommands_2 :
    ∃ (s : State), s.img.applied = false ∧ s.fuses.hash1 = none :=
  ⟨at_ [(R.IMG_FUSE_DATA_HASH 11, 2 ^ 32 - 1)], by decide +kernel⟩

theorem witness_FuseCommands_3 :
    ∃ (s : State), s.img.applied = false ∧ s.fuses.hash0.isSome = true ∧ s.fuses.revoked0 = false ∧
    s.fuses.hash1.isSome = true ∧ s.fuses.revoked1 = false :=
  ⟨{ at_ [] with fuses := { hash0 := some [], hash1 := some [] } }, by decide +kernel⟩

theorem witness_FuseCommands_4 :
    ∃ (s : State), s.img.applied = false ∧ s.fuses.hash0.isSome = true ∧ s.fuses.revoked0 = false ∧
    s.fuses.hash1.isSome = true ∧ s.fuses.revoked1 = false :=
  ⟨{ at_ [] with fuses := { hash0 := some [], hash1 := some [] } }, by decide +kernel⟩

theorem witness_FuseCommands_5 :
    ∃ (s : State), s.rdb R.IMG_STATUS_CONFIGURED = true ∧ s.fuses.svn < s.rd R.IMG_SVN_IMAGE_SVN :=
  ⟨{ at_ [(R.IMG_STATUS_CONFIGURED, 1), (R.IMG_SVN_IMAGE_SVN, 255)] with fuses := { svn := 254 } }, by decide +kernel⟩

theorem witness_FuseCommands_7 :
    ∃ (s : State), (s.img.applied = true ∨ s.fuses.hash0.isSome = true) :=
  ⟨{ at_ [] with fuses := { hash0 := some [] } }, by decide +kernel⟩

theorem witness_FuseCommands_8 :
    ∃ (s : State), (s.img.applied = true ∨ s.fuses.hash1.isSome = true) :=
  ⟨{ at_ [] with fuses := { hash1 := some [] } }, by decide +kernel⟩

theorem witness_FuseCommands_9 :
    ∃ (s : State), (s.fuses.hash1 = none ∨ s.fuses.revoked1 = true) :=
  ⟨at_ [], by decide +kernel⟩

theorem witness_FuseCommands_10 :
    ∃ (s : State), (s.fuses.hash0 = none ∨ s.fuses.revoked0 = true) :=
  ⟨at_ [], by decide +kernel⟩

theorem witness_FuseCommands_11 :
    ∃ (s : State), s.rd R.IMG_SVN_IMAGE_SVN ≤ s.fuses.svn :=
  ⟨at_ [], by decide +kernel⟩

theorem witness_SinkCommands_1 :
    ∃ (s : State) (k : Nat) (x : Raster), k < 16 ∧ portUp s k = true :=
  ⟨at_ [(R.PORT_CFG_ENABLE 15, 1), (R.PORT_STATUS_STATE 15, 3)], 15,
    { vTotal := 1125, hTotal := 2200, vActive := 1080, hActive := 1920, periodNs := 16666667, fmt := 0, colorimetry := 0, limited := false, audioCh := 2, supported := true },
    by decide +kernel⟩

theorem witness_SinkCommands_2 :
    ∃ (s : State) (k stamp : Nat) (px : List Byte) (x : Raster), k < 16 ∧ portUp s k = true ∧
    (s.source (sourceKey 1 k)).filling = some stamp ∧ (s.port k).raster = some x :=
  ⟨{ at_ [(R.PORT_CFG_ENABLE 15, 1), (R.PORT_STATUS_STATE 15, 3)] with comp := { sources := [(4111, { filling := some 0, writing := 4 })] }, ports := [(15, { raster := some { vTotal := 1125, hTotal := 2200, vActive := 1080, hActive := 1920, periodNs := 16666667, fmt := 0, colorimetry := 0, limited := false, audioCh := 2, supported := true } })] },
    15, 0, [],
    { vTotal := 1125, hTotal := 2200, vActive := 1080, hActive := 1920, periodNs := 16666667, fmt := 0, colorimetry := 0, limited := false, audioCh := 2, supported := true },
    by decide +kernel⟩

theorem witness_SinkCommands_3 :
    ∃ (s : State) (k : Nat), k < 16 ∧ portUp s k = true :=
  ⟨at_ [(R.PORT_CFG_ENABLE 15, 1), (R.PORT_STATUS_STATE 15, 3)], 15, by decide +kernel⟩

theorem witness_SinkCommands_4 :
    ∃ (s : State) (k : Nat), k < 16 ∧ portUp s k = true :=
  ⟨at_ [(R.PORT_CFG_ENABLE 15, 1), (R.PORT_STATUS_STATE 15, 3)], 15, by decide +kernel⟩

theorem witness_SinkCommands_5 :
    ∃ (s : State) (k : Nat) (q : AuxRequest), k < 16 ∧ (s.port k).hpd = true ∧ q.i2c = false ∧ q.write = false :=
  ⟨{ at_ [] with ports := [(15, { hpd := true })] }, 15,
    { i2c := false, write := false, addr := 0x2215, len := 1, data := [], stop := true }, by decide +kernel⟩

theorem witness_SinkCommands_6 :
    ∃ (s : State) (k : Nat) (q : AuxRequest), k < 16 ∧ (s.port k).hpd = true ∧ q.i2c = true ∧ q.addr ≠ 0x50 ∧ q.addr ≠ 0x30 :=
  ⟨{ at_ [] with ports := [(15, { hpd := true })] }, 15,
    { i2c := true, write := true, addr := 0x31, len := 0, data := [], stop := true }, by decide +kernel⟩

theorem witness_DecodeReceive_1 :
    ∃ (s : State) (r : Nat) (p : RtpPacket), r < 128 ∧ packetBelongs s r p = true :=
  ⟨{ at_ [] with codec := { reels := [(127, { up := true })] } }, 127,
    { port := 0, dst := 0, udp := 0, pt := 0, ssrc := 0, seq := 65535, ts := 0, marker := true, payload := [], sets := [], uses := 0 },
    by decide +kernel⟩

theorem witness_DecodeReceive_2 :
    ∃ (s : State) (r : Nat), r < 128 :=
  ⟨at_ [], 127, by decide +kernel⟩

theorem witness_DecodeReceive_3 :
    ∃ (s : State) (r : Nat), r < 128 ∧ (s.reel r).up = true ∧ s.rd (R.REEL_JB_LOSS_MS r) ≠ 0 ∧
    s.rdb (R.REEL_STATUS_SILENT r) = false ∧ (s.reel r).acceptedNs + s.rd (R.REEL_JB_LOSS_MS r) * 1000000 ≤ s.monoNs :=
  ⟨{ at_ [] with codec := { reels := [(127, { up := true })] }, time := { sec := 1 } }, 127, by decide +kernel⟩

theorem witness_DecodeReceive_4 :
    ∃ (s : State) (r ntp rtp addr udp : Nat), r < 128 ∧ (s.reel r).up = true :=
  ⟨{ at_ [] with codec := { reels := [(127, { up := true })] } }, 127, 0, 0, 0, 0, by decide +kernel⟩

theorem witness_DecodeReceive_5 :
    ∃ (s : State) (r : Nat), r < 128 ∧ (s.reel r).up = true ∧ s.rdb (R.REEL_CFG_STAMP r) = true ∧ (s.reel r).srLost = false ∧
    (match (s.reel r).sr with | none => (s.reel r).upNs | some x => x.2.2) + max 1 (s.rd (R.REEL_SR_TIMEOUT_100MS r)) * 100000000 ≤ s.monoNs :=
  ⟨{ at_ [(R.REEL_CFG_STAMP 127, 1)] with codec := { reels := [(127, { up := true })] }, time := { sec := 5 } }, 127,
    by decide +kernel⟩

theorem witness_DecodeEngines_1 :
    ∃ (s : State) (v : Nat) (p : Picture) (a : AccessUnit) (i : AuInfo), v < 24 ∧ (s.engine v).busy = true ∧
    (s.engine v).au = some a ∧ a.info = some i ∧ (s.engine v).reel < 128 ∧
    decodedBlocks (a.nals (s.rd (R.REEL_CFG_CODEC (s.engine v).reel))) p ≠ [] ∧ noJobReady s :=
  ⟨{ at_ [(R.REEL_CFG_CODEC 127, 1), (R.REEL_PICS_DECODED 127, 65535)] with codec := { engines := [(23, { busy := true, reel := 127, au := some { ts := 0, firstNs := 0, info := some { profile := 1, highTier := false, levelIdc := 51, interlaced := false, flexible := false, sampling := 1, depth := 8, dpb := 4, w := 64, h := 64 }, data := [(0, [0x65, 1])], seqs := [0] } })] } },
    23,
    { name := 0, order := 0, refs := [], keep := [], slices := [{ nal := 0, blocks := [0], good := 1, badHeader := false }], bad := [], sources := [], planes := [], dramUe := 0, bump := 0 },
    { ts := 0, firstNs := 0, info := some { profile := 1, highTier := false, levelIdc := 51, interlaced := false, flexible := false, sampling := 1, depth := 8, dpb := 4, w := 64, h := 64 }, data := [(0, [0x65, 1])], seqs := [0] }, { profile := 1, highTier := false, levelIdc := 51, interlaced := false, flexible := false, sampling := 1, depth := 8, dpb := 4, w := 64, h := 64 }, by decide +kernel⟩

theorem witness_DecodeEngines_2 :
    ∃ (s : State) (v : Nat), v < 24 ∧ (s.engine v).busy = true ∧ (s.engine v).au.isSome = true ∧ (s.engine v).reel < 128 ∧
    (s.engine v).sinceNs + 50000000 ≤ s.monoNs ∧ noJobReady s :=
  ⟨{ at_ [] with codec := { engines := [(23, { busy := true, reel := 127, au := some { ts := 0, firstNs := 0, info := some { profile := 1, highTier := false, levelIdc := 51, interlaced := false, flexible := false, sampling := 1, depth := 8, dpb := 4, w := 64, h := 64 } } })] }, time := { ns := 50000000 } },
    23, by decide +kernel⟩

theorem witness_DecodeEngines_3 :
    ∃ (s : State) (r e : Nat), r < 128 ∧ (s.reel r).episode = some e ∧ s.rdb (R.REEL_KEYREQ_FIR_EN r) = true ∧
    s.rd (R.REEL_CFG_CODEC r) ≠ 2 ∧ (s.reel r).sr.isSome = true ∧
    (s.reel r).firNs.getD e + max 1 (s.rd (R.REEL_KEYREQ_FIR_MS r)) * 1000000 ≤ s.monoNs :=
  ⟨{ at_ [(R.REEL_KEYREQ_FIR_EN 127, 1)] with codec := { reels := [(127, { episode := some 0, sr := some (0, 0, 0) })] }, time := { sec := 1 } },
    127, 0, by decide +kernel⟩

theorem witness_DecodeEngines_4 :
    ∃ (s : State) (r : Nat), r < 128 ∧ (s.reel r).up = true ∧ (s.reel r).sr.isSome = true ∧
    (s.reel r).rrNs + 5000000000 ≤ s.monoNs :=
  ⟨{ at_ [] with codec := { reels := [(127, { up := true, sr := some (0, 0, 0) })] }, time := { sec := 5 } }, 127,
    by decide +kernel⟩

theorem witness_EncodeCommands_1 :
    ∃ (s : State) (e : Nat), e < 128 :=
  ⟨at_ [], 127, by decide +kernel⟩

theorem witness_EncodeCommands_2 :
    ∃ (s : State) (e : Nat), e < 128 ∧ (s.enc e).up = true ∧ s.rdb (R.ENC_NET_RTP_EN e) = true :=
  ⟨{ at_ [(R.ENC_NET_RTP_EN 127, 1)] with codec := { encs := [(127, { up := true })] } }, 127, by decide +kernel⟩

theorem witness_EncodeCommands_3 :
    ∃ (s : State) (e : Nat), e < 128 ∧ (s.enc e).up = true ∧ s.rdb (R.ENC_NET_RTP_EN e) = true ∧
    (s.enc e).srNs + 1000000000 ≤ s.monoNs :=
  ⟨{ at_ [(R.ENC_NET_RTP_EN 127, 1)] with codec := { encs := [(127, { up := true })] }, time := { sec := 1 } }, 127,
    by decide +kernel⟩

theorem witness_EncodeCommands_4 :
    ∃ (s : State) (v : Nat) (x : Coded) (fr : EncFrame), v < 24 ∧ (s.engine v).busy = true ∧ (s.engine v).enc = some fr ∧
    (s.engine v).reel < 128 :=
  ⟨{ at_ [] with codec := { engines := [(23, { busy := true, reel := 127, enc := some { k := 0, serial := 0, buffer := 0, startNs := 0, edgeWus := 0, oldest := 0, ember := 0, held := 0, dark := false, readyNs := 0 } })] } },
    23, { data := [], headerBits := 0, rows := [], blocks := [], recon := [] },
    { k := 0, serial := 0, buffer := 0, startNs := 0, edgeWus := 0, oldest := 0, ember := 0, held := 0, dark := false, readyNs := 0 },
    by decide +kernel⟩

theorem witness_HearthAccesses_1 :
    ∃ (s : State) (x : Access) (colour : Bool), x.src < 161 ∧ x.addr < 2 ^ 39 ∧
    (if x.write then x.bytes ≠ [] else x.len ≠ 0) ∧ isFenced s x.src = false ∧ (∀ l ∈ accessLines x, l.addr < 2 ^ 38 ∧
    checkAccess s l.src l.write l.addr = .permitted colour) :=
  ⟨{ at_ [] with mem := { partitions := [{ base := 0, size := 4096, mask := 1, localBase := 0, granule := 64, use := 0, tag := 0 }] } },
    { src := 160, addr := 63, write := true, bytes := [1, 2] }, false, by decide +kernel⟩

theorem witness_HearthAccesses_2 :
    ∃ (s : State) (x : Access) (colour : Bool), x.src < 161 ∧ 2 ^ 38 ≤ x.addr ∧ x.addr < 0x4010000000 ∧ accessLines x = [x] ∧
    x.write = true ∧ x.bytes ≠ [] ∧ isFenced s x.src = false ∧ checkAccess s x.src x.write x.addr = .permitted colour :=
  ⟨at_ [], { src := 160, addr := 0x4000000000, write := true, bytes := [1], len := 1 }, false, by decide +kernel⟩

theorem witness_HearthAccesses_3 :
    ∃ (s : State) (src w : Nat) (colour : Bool), src < 161 ∧ w < 0x400000 ∧ isFenced s src = false ∧
    checkAccess s src false (0x4010000000 + 4 * w) = .permitted colour :=
  ⟨at_ [], 160, 0x3FFFFF, false, by decide +kernel⟩

theorem witness_HearthAccesses_4 :
    ∃ (s : State) (x : Access) (kind region : Nat), x.src < 161 ∧ x.addr < 2 ^ 39 ∧ accessLines x = [x] ∧ x.write = true ∧
    x.bytes ≠ [] ∧ isFenced s x.src = false ∧ checkAccess s x.src x.write x.addr = .refused kind region :=
  ⟨at_ [], { src := 0, addr := 0, write := true, bytes := [1], len := 1 }, 7, 0x100, by decide +kernel⟩

theorem witness_HearthAccesses_5 :
    ∃ (s : State) (src : Nat) (o : Outstanding) (u : State), src < 161 ∧ takeServed src true s = (some o, u) ∧
    o.colour = false ∧ s.line (o.access.addr / 64) = {} ∧ s.power.diesLost = [] :=
  ⟨{ at_ [(R.HRT_CH_STAT_STATE 0, 2)] with mem := { outstanding := [{ access := { src := 7, addr := 64, write := true, bytes := [255] }, epoch := 0, colour := false }] } },
    7,
    { access := { src := 7, addr := 64, write := true, bytes := [255] }, epoch := 0, colour := false, arrival := 1, arrivedNs := 0 },
    (takeServed 7 true { at_ [(R.HRT_CH_STAT_STATE 0, 2)] with mem := { outstanding := [{ access := { src := 7, addr := 64, write := true, bytes := [255] }, epoch := 0, colour := false }] } }).2,
    by decide +kernel⟩

theorem witness_HearthAccesses_6 :
    ∃ (s : State) (src : Nat) (o : Outstanding) (u : State), src < 161 ∧ takeServed src false s = (some o, u) ∧
    o.colour = false ∧ s.line (o.access.addr / 64) = {} ∧ s.power.diesLost = [] :=
  ⟨{ at_ [(R.HRT_CH_STAT_STATE 0, 2)] with mem := { outstanding := [{ access := { src := 7, addr := 64, write := false, bytes := [] }, epoch := 0, colour := false }], bytes := [(64, 255)] } },
    7,
    { access := { src := 7, addr := 64, write := false, bytes := [] }, epoch := 0, colour := false, arrival := 1, arrivedNs := 0 },
    (takeServed 7 false { at_ [(R.HRT_CH_STAT_STATE 0, 2)] with mem := { outstanding := [{ access := { src := 7, addr := 64, write := false, bytes := [] }, epoch := 0, colour := false }], bytes := [(64, 255)] } }).2,
    by decide +kernel⟩

theorem witness_HearthAccesses_7 :
    ∃ (s : State) (c f0 f1 : Nat), c < 24 ∧ s.rdb R.HRT_SCRUB_ENABLE = true ∧ bitOf (s.rd R.HRT_CFG_FITTED) c = true ∧
    s.tick.current.any (·.deferScrub) = false :=
  ⟨at_ [(R.HRT_SCRUB_ENABLE, 1), (R.HRT_CFG_FITTED, 2 ^ 23)], 23, 0, 0, by decide +kernel⟩

theorem witness_FencesAndProtection_1 :
    ∃ (s : State) (src : Nat), src < 161 ∧ isFenced s src = false :=
  ⟨at_ [], 160, by decide +kernel⟩

theorem witness_FencesAndProtection_2 :
    ∃ (s : State) (src : Nat), src < 161 ∧ isFenced s src = true ∧
    s.mem.outstanding.any (fun o => o.access.src == src) = false :=
  ⟨{ at_ [] with mem := { fences := [160] } }, 160, by decide +kernel⟩

theorem witness_FencesAndProtection_3 :
    ∃ (s : State) (k n src a : Nat) (wr : Bool), k < 3 ∧ src < 161 ∧ n < 15 :=
  ⟨at_ [], 2, 14, 160, 0, true, by decide +kernel⟩

theorem witness_FencesAndProtection_4 :
    ∃ (s : State) (k n src a : Nat), k < 3 ∧ src < 161 ∧ 15 ≤ n :=
  ⟨at_ [], 2, 15, 160, 0, by decide +kernel⟩

theorem witness_FencesAndProtection_5 :
    ∃ (s : State) (u i : Nat), u < 3 ∧ i < 256 ∧ s.rdb (R.MPU_UPD_STAT_PENDING u) = false ∧
    s.rdb (R.MPU_RGN_CTRL_LOCK u i) = false ∧ s.rd (R.MPU_UPD_START_VALUE u) ≤ s.rd (R.MPU_UPD_END_VALUE u) :=
  ⟨at_ [(R.MPU_UPD_END_VALUE 2, 2 ^ 32 - 1), (R.MPU_UPD_START_VALUE 2, 2 ^ 32 - 1), (R.MPU_EPOCH_EPOCH 2, 65535)], 2, 255,
    by decide +kernel⟩

theorem witness_FencesAndProtection_6 :
    ∃ (s : State) (u i : Nat), u < 3 ∧ i < 256 ∧ s.rdb (R.MPU_UPD_STAT_PENDING u) = true :=
  ⟨at_ [(R.MPU_UPD_STAT_PENDING 2, 1)], 2, 255, by decide +kernel⟩

theorem witness_FencesAndProtection_7 :
    ∃ (s : State) (u i : Nat), u < 3 ∧ i < 256 ∧ s.rdb (R.MPU_UPD_STAT_PENDING u) = false ∧
    s.rdb (R.MPU_RGN_CTRL_LOCK u i) = true :=
  ⟨at_ [(R.MPU_RGN_CTRL_LOCK 2 255, 1)], 2, 255, by decide +kernel⟩

theorem witness_FencesAndProtection_8 :
    ∃ (s : State) (u i : Nat), u < 3 ∧ i < 256 ∧ s.rdb (R.MPU_UPD_STAT_PENDING u) = false ∧
    s.rdb (R.MPU_RGN_CTRL_LOCK u i) = false ∧ s.rd (R.MPU_UPD_END_VALUE u) < s.rd (R.MPU_UPD_START_VALUE u) :=
  ⟨at_ [(R.MPU_UPD_START_VALUE 2, 1)], 2, 255, by decide +kernel⟩

theorem witness_FencesAndProtection_9 :
    ∃ (s : State) (u : Nat) (d : Drain), u < 3 ∧ s.mem.drains = [d] ∧ d.unit = u ∧
    s.mem.outstanding.any (holdsDrain d) = false ∧ s.img.reloaded = none :=
  ⟨{ at_ [(R.MPU_UPD_STAT_PENDING 2, 1)] with mem := { drains := [{ unit := 2, object := 255, epoch := 1, ranges := [], goNs := 0 }] } },
    2, { unit := 2, object := 255, epoch := 1, ranges := [], goNs := 0 }, by decide +kernel⟩

theorem witness_ChannelCommands_1 :
    ∃ (s : State) (c : Nat) (l : List Nat), c < 24 ∧ s.rd (R.HRT_CH_STAT_STATE c) = 2 ∧
    ((List.range 64).any fun p => s.rdb (R.HRT_RT_PORT_PANIC p)) = false ∧ banksWanted s c false = [] :=
  ⟨at_ [(R.HRT_CH_STAT_STATE 23, 2)], 23, [15], by decide +kernel⟩

theorem witness_ChannelCommands_2 :
    ∃ (s : State) (c : Nat), c < 24 ∧ s.rd (R.HRT_CH_STAT_STATE c) = 2 ∧ (owedOf s c).any (fun n => decide (8 ≤ n)) = true :=
  ⟨{ at_ [(R.HRT_CH_STAT_STATE 23, 2), (R.HRT_CH_STAT_FORCED 23, 65535)] with mem := { chans := [(23, { owed := [8] })] } },
    23, by decide +kernel⟩

theorem witness_ChannelCommands_3 :
    ∃ (s : State) (c code ps : Nat) (hot : Bool), c < 24 ∧ code < 3 ∧
    (s.rd (R.HRT_CH_STAT_STATE c) = 2 ∨ s.rd (R.HRT_CH_STAT_STATE c) = 4) :=
  ⟨at_ [(R.HRT_CH_STAT_STATE 23, 4)], 23, 2, 0, true, by decide +kernel⟩

theorem witness_ChannelCommands_4 :
    ∃ (s : State) (c : Nat), c < 24 ∧ (s.rd (R.HRT_CH_STAT_STATE c) = 2 ∨ s.rd (R.HRT_CH_STAT_STATE c) = 4) :=
  ⟨at_ [(R.HRT_CH_STAT_STATE 23, 4)], 23, by decide +kernel⟩

theorem witness_ChannelCommands_5 :
    ∃ (s : State) (p fill : Nat), p < 64 ∧ fill ≤ (if p < 40 then 65536 else 16384) ∧ s.rdb (R.HRT_RT_PORT_PANIC p) = false ∧
    (if rtReader p then decide (16 * fill ≤ panicFill s p * rtCapacity p) else decide (panicFill s p * rtCapacity p ≤ 16 * fill)) = true :=
  ⟨at_ [], 63, 16384, by decide +kernel⟩

theorem witness_ChannelCommands_6 :
    ∃ (s : State) (p fill : Nat), p < 64 ∧ fill ≤ (if p < 40 then 65536 else 16384) ∧ s.rdb (R.HRT_RT_PORT_PANIC p) = true ∧
    (if rtReader p then decide ((panicFill s p + 2) * rtCapacity p ≤ 16 * fill) else decide (16 * fill ≤ (panicFill s p - 2) * rtCapacity p)) = true :=
  ⟨at_ [(R.HRT_RT_PORT_PANIC 16, 1)], 16, 65536, by decide +kernel⟩

theorem witness_ChannelCommands_7 :
    ∃ (s : State) (c : Nat), s.rdb R.TICK_STATUS_RUN = true ∧ s.rdb R.DMP_STATUS_EMERGENCY = false ∧
    ((List.range 64).all fun p => !s.rdb (R.HRT_RT_PORT_PANIC p)) = true ∧ s.mem.rtFill = [] ∧
    ((List.range 24).any fun f => scanningHeld s f) = false ∧ s.mem.windowThisTick = false ∧ s.mem.window = none ∧
    s.tick.lastEdgeNs + 1000 * s.rd R.HRT_TRAIN_AT_US ≤ s.nowNs ∧ windowChannel s = some c :=
  ⟨{ at_ [(R.TICK_STATUS_RUN, 1), (R.HRT_TRAIN_ENABLE, 1), (R.HRT_CH_STAT_STATE 23, 2)] with mem := { chans := [(23, { trainStep := 1 })] }, time := { sec := 1 } },
    23, by decide +kernel⟩

theorem witness_ChannelCommands_8 :
    ∃ (s : State) (c : Nat), s.mem.window = some c ∧ c < 24 ∧ (s.chan c).trainStep < 2 :=
  ⟨{ at_ [] with mem := { window := some 23, chans := [(23, { trainStep := 1 })] } }, 23, by decide +kernel⟩

theorem witness_ChannelCommands_9 :
    ∃ (s : State) (c : Nat), s.mem.window = some c ∧ c < 24 ∧ (s.chan c).trainStep = 2 :=
  ⟨{ at_ [] with mem := { window := some 23, chans := [(23, { trainStep := 2 })] } }, 23, by decide +kernel⟩

theorem witness_ChannelCommands_10 :
    ∃ (s : State) (c : Nat), s.mem.window = some c ∧ c < 24 :=
  ⟨{ at_ [] with mem := { window := some 23 } }, 23, by decide +kernel⟩

theorem witness_LaneTraining_1 :
    ∃ (s : State) (n p : Nat) (c : List Byte), n < 128 ∧ lanePort s n = some p ∧ 49 ≤ p ∧ laneState s n = 3 ∧
    validBlock c = true ∧ (c.getD 3 0).toNat = 2 ∧ (s.port p).failNs = none :=
  ⟨at_ [(R.LANE_CFG_PORT 127, 52), (R.LANE_STATUS_STATE 127, 3)], 127, 52,
    [0xBC, 0xC1, 0, 2, 0, 0, 0, 0, 0, 0, 0, 0, 0, 0, 0, 0xC3], by decide +kernel⟩

theorem witness_LaneTraining_2 :
    ∃ (s : State) (n : Nat), n < 128 ∧ laneState s n = 4 ∧ (s.lane n).txAt = true ∧ (s.lane n).rxAt = true :=
  ⟨{ at_ [(R.LANE_STATUS_STATE 127, 4)] with lanes := [(127, { txAt := true, rxAt := true })] }, 127, by decide +kernel⟩

theorem witness_LaneTraining_3 :
    ∃ (s : State) (n : Nat) (b : List Byte), n < 128 ∧ laneState s n = 5 ∧ b.length = 7 ∧ b.getD 5 0 = 0 ∧
    b.getD 6 0 = xorAll (b.take 6) ∧ (b.getD 1 0).toNat < 8 ∧ b.getD 0 0 ≠ 4 ∧ b.getD 0 0 ≠ 2 :=
  ⟨at_ [(R.LANE_STATUS_STATE 127, 5)], 127, [5, 7, 0, 0, 0, 0, 2], by decide +kernel⟩

theorem witness_LaneTraining_4 :
    ∃ (s : State) (n pk q e : Nat) (a : Adapt), n < 128 ∧ a.peakEyes.length = 16 ∧ a.sweepEyes.length = 4 ∧ a.dfe.length = 5 ∧
    a.dcGain < 8 ∧ laneState s n = 8 ∧ adaptChoice (decide (s.rd (R.LANE_CFG_PORT n) < 16)) a = (pk, q, e) :=
  ⟨at_ [(R.LANE_STATUS_STATE 127, 8), (R.LANE_CFG_PORT 127, 63)], 127, 2, 0, 9,
    { peakEyes := List.replicate 16 5, presetEyes := [], sweepEyes := [0, 0, 0, 9], dcGain := 7, dfe := List.replicate 5 (-1), rpost := 0 },
    by decide +kernel⟩

theorem witness_LaneTraining_5 :
    ∃ (s : State) (n : Nat), n < 128 ∧ laneState s n = 4 ∧ (s.lane n).txAt = false :=
  ⟨at_ [(R.LANE_STATUS_STATE 127, 4)], 127, by decide +kernel⟩

theorem witness_LaneTraining_6 :
    ∃ (s : State) (n a : Nat), n < 128 ∧ laneState s n = 4 ∧ (s.lane n).firstStepNs = some a ∧ a + 2048 ≤ s.monoNs :=
  ⟨{ at_ [(R.LANE_STATUS_STATE 127, 4)] with lanes := [(127, { firstStepNs := some 0 })], time := { ns := 2048 } }, 127, 0,
    by decide +kernel⟩

theorem witness_LaneTraining_7 :
    ∃ (s : State) (p n : Nat), 49 ≤ p ∧ p < 53 ∧ n ∈ lanesOf s p ∧ (laneState s n = 4 ∨ laneState s n = 5) ∧
    (s.lane n).txAt = true ∧ (s.port p).switchNs + 6000000 ≤ s.monoNs :=
  ⟨{ at_ [(R.LANE_STATUS_STATE 127, 5), (R.LANE_CFG_PORT 127, 52)] with lanes := [(127, { txAt := true })], time := { ns := 6000000 } },
    52, 127, by decide +kernel⟩

theorem witness_LaneTraining_8 :
    ∃ (s : State) (p a : Nat), 49 ≤ p ∧ p < 53 ∧ (s.port p).failNs = some a ∧
    a + max 1 (s.rd R.LANE_TRAIN_CFG_RETRY_S) * 1000000000 ≤ s.monoNs :=
  ⟨{ at_ [(R.LANE_STATUS_STATE 127, 3), (R.LANE_CFG_PORT 127, 52)] with ports := [(52, { failNs := some 0 })], time := { sec := 10 } },
    52, 0, by decide +kernel⟩

theorem witness_LaneAlignment_1 :
    ∃ (s : State) (n pos ui : Nat) (b : List Byte), n < 128 ∧ laneState s n = 6 ∧ 49 ≤ s.rd (R.LANE_CFG_PORT n) ∧
    s.rd (R.LANE_CFG_PORT n) < 53 ∧ validMarker b = true ∧ (b.getD 1 0).toNat = s.rd (R.LANE_SKEW_PEER_INDEX n) ∧
    (s.lane n).marker = none :=
  ⟨at_ [(R.LANE_STATUS_STATE 127, 6), (R.LANE_CFG_PORT 127, 52)], 127, 0, 0, [0xC5, 0, 0, 0, 0, 0x5A, 0x9F],
    by decide +kernel⟩

theorem witness_LaneAlignment_2 :
    ∃ (s : State) (p n : Nat), 49 ≤ p ∧ p < 53 ∧ (s.port p).deskewed = false ∧ n ∈ lanesOf s p ∧ laneState s n = 6 ∧
    s.rdb (R.LANE_STATUS_ALIGNED n) = false ∧ periodsPassed s (s.rd (R.LANE_STATUS_RATE n)) 3 (s.lane n).upNs = true :=
  ⟨{ at_ [(R.LANE_STATUS_STATE 127, 6), (R.LANE_STATUS_RATE 127, 12), (R.LANE_CFG_PORT 127, 52)] with time := { sec := 1 } },
    52, 127, by decide +kernel⟩

theorem witness_LaneAlignment_3 :
    ∃ (s : State) (n : Nat), n < 128 ∧ laneState s n = 6 ∧ s.rdb (R.LANE_STATUS_ALIGNED n) = true ∧
    periodsPassed s (s.rd (R.LANE_STATUS_RATE n)) 3 (s.lane n).markNs = true :=
  ⟨{ at_ [(R.LANE_STATUS_STATE 127, 6), (R.LANE_STATUS_RATE 127, 12), (R.LANE_STATUS_ALIGNED 127, 1), (R.LANE_COUNTS_ALIGN_LOST 127, 255)] with time := { sec := 1 } },
    127, by decide +kernel⟩

theorem witness_LaneAlignment_4 :
    ∃ (s : State) (n a p : Nat), n < 128 ∧ (s.lane n).lostNs = some a ∧ lanePort s n = some p ∧ 49 ≤ p ∧ laneState s n = 6 ∧
    periodsPassed s (s.rd (R.LANE_STATUS_RATE n)) 4 a = true :=
  ⟨{ at_ [(R.LANE_STATUS_STATE 127, 6), (R.LANE_STATUS_RATE 127, 12), (R.LANE_CFG_PORT 127, 52)] with lanes := [(127, { lostNs := some 0 })], time := { sec := 1 } },
    127, 0, 52, by decide +kernel⟩

theorem witness_LaneAlignment_5 :
    ∃ (s : State) (n : Nat), n < 128 ∧ lanePowered s n = true ∧ laneWanted s n = false ∧ 2 ≤ laneState s n :=
  ⟨at_ [(R.PWR_STATUS_POWERED, 32), (R.LANE_CFG_PORT 127, 63), (R.LANE_STATUS_STATE 127, 2)], 127, by decide +kernel⟩

theorem witness_LaneAlignment_6 :
    ∃ (s : State) (n a : Nat), n < 128 ∧ (s.lane n).wakeNs = some a ∧ laneState s n = 2 ∧ a + 40000 ≤ s.monoNs ∧
    testMode s n ≠ 0 :=
  ⟨{ at_ [(R.LANE_STATUS_STATE 127, 2), (R.LANE_CFG_PORT 127, 63), (R.LANE_TEST_MODE 127, 5), (R.LANE_TEST_TEST_RATE 127, 12)] with lanes := [(127, { wakeNs := some 0 })], time := { ns := 40000 } },
    127, 0, by decide +kernel⟩

theorem witness_LaneTests_1 :
    ∃ (s : State) (n v h : Nat), n < 128 ∧ v < 256 ∧ h ≤ 64 ∧ laneState s n = 6 :=
  ⟨at_ [(R.LANE_STATUS_STATE 127, 6)], 127, 255, 64, by decide +kernel⟩

theorem witness_LaneTests_2 :
    ∃ (s : State) (n : Nat), n < 128 ∧ laneState s n ≠ 6 :=
  ⟨at_ [(R.LANE_STATUS_STATE 127, 5)], 127, by decide +kernel⟩

theorem witness_LaneTests_3 :
    ∃ (s : State) (n : Nat), n < 128 ∧ laneState s n = 6 :=
  ⟨at_ [(R.LANE_STATUS_STATE 127, 6)], 127, by decide +kernel⟩

theorem witness_LaneTests_4 :
    ∃ (s : State) (n : Nat), n < 128 ∧ laneState s n = 7 ∧ 1 ≤ testMode s n ∧ testMode s n ≤ 4 :=
  ⟨at_ [(R.LANE_STATUS_STATE 127, 7), (R.LANE_CFG_PORT 127, 63), (R.LANE_TEST_MODE 127, 4)], 127, by decide +kernel⟩

theorem witness_LaneTests_5 :
    ∃ (s : State) (n : Nat), n < 128 ∧ checkerRuns s n = true ∧ s.rdb (R.LANE_TEST_PRBS_LOCK n) = false :=
  ⟨at_ [(R.LANE_STATUS_STATE 127, 7), (R.LANE_CFG_PORT 127, 63), (R.LANE_TEST_MODE 127, 4)], 127, by decide +kernel⟩

theorem witness_LaneTests_6 :
    ∃ (s : State) (n : Nat), n < 128 ∧ s.rdb (R.LANE_TEST_PRBS_LOCK n) = true :=
  ⟨at_ [(R.LANE_TEST_PRBS_LOCK 127, 1)], 127, by decide +kernel⟩

theorem witness_LaneTests_7 :
    ∃ (s : State) (n : Nat), n < 128 ∧ s.rdb (R.LANE_TEST_PRBS_LOCK n) = true :=
  ⟨at_ [(R.LANE_TEST_PRBS_LOCK 127, 1), (R.LANE_PRBS_ERR_ERRORS 127, 2 ^ 32 - 1)], 127, by decide +kernel⟩

theorem witness_LaneTests_8 :
    ∃ (s : State) (n w : Nat), n < 128 ∧ w < 2 ^ 32 ∧ blockRuns s (R.LANE_TEST_MODE n).addr = false :=
  ⟨at_ [(R.LANE_CFG_PORT 127, 63)], 127, 2 ^ 32 - 1, by decide +kernel⟩

theorem witness_SourcePorts_1 :
    ∃ (s : State) (p : Nat), 16 ≤ p ∧ p < 40 ∧ s.rdb (R.PORT_CFG_ENABLE p) = true ∧ (s.port p).connected = false :=
  ⟨at_ [(R.PORT_CFG_ENABLE 39, 1)], 39, by decide +kernel⟩

theorem witness_SourcePorts_2 :
    ∃ (s : State) (p : Nat), 16 ≤ p ∧ p < 40 ∧ portUp s p = true ∧ (s.port p).connected = true :=
  ⟨{ at_ [(R.PORT_CFG_ENABLE 39, 1), (R.PORT_STATUS_STATE 39, 3)] with ports := [(39, { connected := true })] }, 39,
    by decide +kernel⟩

theorem witness_SourcePorts_3 :
    ∃ (s : State) (p : Nat), 16 ≤ p ∧ p < 40 ∧ (s.port p).connected = true :=
  ⟨{ at_ [(R.PORT_CFG_ENABLE 39, 1), (R.PORT_STATUS_STATE 39, 3)] with ports := [(39, { connected := true })] }, 39,
    by decide +kernel⟩

theorem witness_SourcePorts_4 :
    ∃ (s : State) (p : Nat) (q : MonitorCaps), 16 ≤ p ∧ p < 40 ∧ (s.port p).connected = true ∧
    s.rd (R.PORT_STATUS_STATE p) = 1 :=
  ⟨{ at_ [(R.PORT_STATUS_STATE 39, 1)] with ports := [(39, { connected := true })] }, 39,
    { dpcdRev := 0x14, maxRate := 10, maxLanes := 4, blocks := [] }, by decide +kernel⟩

theorem witness_SourcePorts_5 :
    ∃ (s : State) (p q : Nat) (l : List Nat), 16 ≤ p ∧ p < 40 ∧ s.rd (R.PORT_STATUS_STATE p) = 2 ∧
    (s.port p).connected = true ∧ dpRates.find? (· < (s.port p).trying) = some q :=
  ⟨{ at_ [(R.PORT_STATUS_STATE 39, 2)] with ports := [(39, { connected := true, trying := 10 })] }, 39, 8, [],
    by decide +kernel⟩

theorem witness_SourcePorts_6 :
    ∃ (s : State) (p : Nat) (l : List Nat), 16 ≤ p ∧ p < 40 ∧ s.rd (R.PORT_STATUS_STATE p) = 2 ∧ (s.port p).connected = true ∧
    flueOf s p = none :=
  ⟨{ at_ [(R.PORT_STATUS_STATE 39, 2)] with ports := [(39, { connected := true, trying := 10 })] }, 39, [],
    by decide +kernel⟩

theorem witness_NetworkPorts_1 :
    ∃ (s : State) (p : Nat) (f g : List Byte), 40 ≤ p ∧ p < 48 ∧ portUp s p = true ∧
    ethInject p (f, true) s = ([(f, true)], s) ∧ untag s p f = some g ∧ accepts s p g = true ∧ g.length + 4 ≤ 9216 ∧
    beAt g 12 2 = 0x0806 ∧ mapped (beAt g 38 4) = ethIp4 s p ∧ beAt g 20 2 = 1 :=
  ⟨at_ [(R.PORT_CFG_ENABLE 47, 1), (R.PORT_STATUS_STATE 47, 3)], 47,
    List.replicate 6 0xFF ++ [2, 0, 0, 0, 0, 1, 8, 6, 0, 1, 8, 0, 6, 4, 0, 1, 2, 0, 0, 0, 0, 1, 10, 0, 0, 2] ++ List.replicate 10 0,
    List.replicate 6 0xFF ++ [2, 0, 0, 0, 0, 1, 8, 6, 0, 1, 8, 0, 6, 4, 0, 1, 2, 0, 0, 0, 0, 1, 10, 0, 0, 2] ++ List.replicate 10 0,
    by decide +kernel⟩

theorem witness_NetworkPorts_2 :
    ∃ (s : State) (p : Nat) (f : List Byte), 40 ≤ p ∧ p < 48 ∧ portUp s p = true ∧
    s.rd (R.INJ_RX_CFG_MODE (4 + (p - 40))) = 0 ∧ s.inj.heldBack = [] :=
  ⟨at_ [(R.PORT_CFG_ENABLE 47, 1), (R.PORT_STATUS_STATE 47, 3), (R.PORT_ETH_DROP_RX 7, 65535)], 47, [], by decide +kernel⟩

theorem witness_NetworkPorts_3 :
    ∃ (s : State) (p : Nat), 40 ≤ p ∧ p < 48 :=
  ⟨at_ [], 47, by decide +kernel⟩

theorem witness_NetworkPorts_4 :
    ∃ (s : State) (p : Nat), 40 ≤ p ∧ p < 48 :=
  ⟨at_ [], 47, by decide +kernel⟩

theorem witness_NetworkPorts_5 :
    ∃ (s : State) (p g n a : Nat), 40 ≤ p ∧ p < 48 ∧ portUp s p = true ∧ (s.port p).reports = [(g, n + 2, a)] ∧ a ≤ s.monoNs :=
  ⟨{ at_ [(R.PORT_CFG_ENABLE 47, 1), (R.PORT_STATUS_STATE 47, 3)] with ports := [(47, { reports := [(0, 2, 0)] })] }, 47, 0,
    0, 0, by decide +kernel⟩

theorem witness_NetworkPorts_6 :
    ∃ (s : State) (p : Nat), 40 ≤ p ∧ p < 48 ∧ portUp s p = true :=
  ⟨at_ [(R.PORT_CFG_ENABLE 47, 1), (R.PORT_STATUS_STATE 47, 3)], 47, by decide +kernel⟩

theorem witness_NetworkPorts_7 :
    ∃ (s : State) (p rate k : Nat), 40 ≤ p ∧ p < 48 ∧ rate < 15 ∧ (k = 1 ∨ k = 2 ∨ k = 4) ∧ portOn s p = true ∧
    s.rd (R.PORT_STATUS_STATE p) ≠ 3 ∧
    k ≤ ((lanesOf s p).filter fun n => laneState s n == 8 && decide (s.rd (R.LANE_CFG_INDEX n) < k)).length :=
  ⟨at_ [(R.PORT_CFG_ENABLE 47, 1), (R.LANE_CFG_PORT 127, 47), (R.LANE_STATUS_STATE 127, 8)], 47, 14, 1, by decide +kernel⟩

theorem witness_NetworkPorts_8 :
    ∃ (s : State), s.rd R.IMG_STATUS_LOAD_STATE ≠ 1 :=
  ⟨at_ [(R.PORT_PCIE_LINK_RESETS, 255)], by decide +kernel⟩

theorem witness_CrinusFrames_1 :
    ∃ (s : State) (k : Nat) (f : List Byte), k < 4 ∧ linkActive s k = true ∧ crlInject k f s = ([(f, true)], s) ∧
    unitsAt s 1 (49 + k) 0 none = [] ∧ unitsAt s 1 (49 + k) 2 none = [] ∧ frameGood f = false :=
  ⟨at_ [(R.CRL_LINK_STATUS_STATE 3, 3)], 3, [], by decide +kernel⟩

theorem witness_CrinusFrames_2 :
    ∃ (s : State) (k : Nat) (f : List Byte), k < 4 ∧ frameArrives k f s ∧ (headOf f).typ = 6 ∧ (s.link k).replay = [] :=
  ⟨at_ [(R.CRL_LINK_STATUS_STATE 3, 3)], 3, frame_ 6 ([]), by decide +kernel⟩

theorem witness_CrinusFrames_3 :
    ∃ (s : State) (k : Nat) (f : List Byte), k < 4 ∧ linkActive s k = true ∧ crlInject k f s = ([(f, true)], s) ∧
    unitsAt s 1 (49 + k) 0 none = [] ∧ unitsAt s 1 (49 + k) 2 none = [] ∧ frameGood f = true ∧ (headOf f).nak = true ∧
    (headOf f).typ = 6 ∧ (s.link k).replay = [] ∧ (s.link k).rewinds < 8 :=
  ⟨at_ [(R.CRL_LINK_STATUS_STATE 3, 3)], 3, leBytes 8 0x16, by decide +kernel⟩

theorem witness_CrinusFrames_4 :
    ∃ (s : State) (k : Nat), k < 4 ∧ linkActive s k = true ∧ (s.link k).replay ≠ [] ∧
    (s.link k).ackNs + max 1 (s.rd R.CRL_CFG_RETRY_US) * 1000 ≤ s.monoNs ∧ (s.link k).rewinds < 8 :=
  ⟨{ at_ [(R.CRL_LINK_STATUS_STATE 3, 3)] with links := [(3, { replay := [{ typ := 1, cls := 0, payload := [] }], rewinds := 7 })], time := { ns := 10000 } },
    3, by decide +kernel⟩

theorem witness_CrinusFrames_5 :
    ∃ (s : State) (k : Nat), k < 4 :=
  ⟨at_ [], 3, by decide +kernel⟩

theorem witness_CrinusFrames_6 :
    ∃ (s : State) (k : Nat) (q : CrlFrame), k < 4 ∧ linkActive s k = true ∧ (s.link k).resend = [] ∧ (s.link k).replay = [] ∧
    (s.link k).waiting = [q] ∧ pickFrame (s.link k) = some q ∧ q.expiryNs = none :=
  ⟨{ at_ [(R.CRL_LINK_STATUS_STATE 3, 3)] with links := [(3, { waiting := [{ typ := 1, cls := 0, payload := [] }], txNext := 4095 })] },
    3, { typ := 1, cls := 0, payload := [] }, by decide +kernel⟩

theorem witness_CrinusSystem_1 :
    ∃ (s : State) (k : Nat) (f : List Byte), k < 4 ∧ frameArrives k f s ∧ (headOf f).typ = 1 ∧ leAt (f.drop 8) 0 1 = 0 ∧
    floodDrops 1 0 (leAt (f.drop 8) 1 1) (leAt (f.drop 8) 4 4) (leAt (f.drop 8) 3 1) s = false ∧ tickSrc s = 3 ∧
    s.rdb R.CRL_SYS_MASTER_VALID = true ∧ s.rd R.CRL_SYS_MASTER_ID = leAt (f.drop 8) 1 1 :=
  ⟨{ at_ [(R.CRL_LINK_STATUS_STATE 3, 3), (R.TICK_CTRL_SRC, 3), (R.CRL_SYS_MASTER_VALID, 1), (R.CRL_SYS_MASTER_ID, 7)] with time := { sec := 1 } },
    3, frame_ 1 ([0, 7] ++ List.replicate 30 0), by decide +kernel⟩

theorem witness_CrinusSystem_2 :
    ∃ (s : State) (k : Nat) (f : List Byte), k < 4 ∧ frameArrives k f s ∧ (headOf f).typ = 1 ∧ leAt (f.drop 8) 0 1 = 1 ∧
    floodDrops 1 1 (leAt (f.drop 8) 1 1) (leAt (f.drop 8) 4 4) (leAt (f.drop 8) 3 1) s = false :=
  ⟨at_ [(R.CRL_LINK_STATUS_STATE 3, 3)], 3, frame_ 1 ([1, 7, 255] ++ List.replicate 29 0), by decide +kernel⟩

theorem witness_CrinusSystem_3 :
    ∃ (s : State) (k : Nat) (f : List Byte), k < 4 ∧ frameArrives k f s ∧ (headOf f).typ = 1 ∧ leAt (f.drop 8) 0 1 = 2 :=
  ⟨at_ [(R.CRL_LINK_STATUS_STATE 3, 3)], 3, frame_ 1 ([2, 0, 0, 0, 1, 2, 3, 4] ++ List.replicate 24 0), by decide +kernel⟩

theorem witness_CrinusSystem_4 :
    ∃ (s : State) (k : Nat) (f : List Byte) (r : Nat × Nat), k < 4 ∧ frameArrives k f s ∧ (headOf f).typ = 1 ∧
    leAt (f.drop 8) 0 1 = 3 ∧ linkState s k = 3 ∧ (s.link k).openReqs = [r] ∧ r.1 = leAt (f.drop 8) 4 4 :=
  ⟨{ at_ [(R.CRL_LINK_STATUS_STATE 3, 3)] with links := [(3, { openReqs := [(1, 0)] })] }, 3,
    frame_ 1 ([3, 0, 0, 0, 1] ++ List.replicate 27 0), (1, 0), by decide +kernel⟩

theorem witness_CrinusSystem_5 :
    ∃ (s : State) (k : Nat), k < 4 ∧ linkState s k = 3 ∧ (s.link k).delayNs + 1000000000 ≤ s.monoNs :=
  ⟨{ at_ [(R.CRL_LINK_STATUS_STATE 3, 3)] with time := { sec := 1 } }, 3, by decide +kernel⟩

theorem witness_CrinusSystem_6 :
    ∃ (s : State) (k : Nat) (f : List Byte), k < 4 ∧ frameArrives k f s ∧ (headOf f).typ = 4 ∧ leAt (f.drop 8) 0 1 ≠ 2 ∧
    (leAt (f.drop 8) 0 1 ≠ 1 ∨ leAt (f.drop 8) 3 1 ≠ 0) ∧
    floodDrops 4 (leAt (f.drop 8) 0 1) (leAt (f.drop 8) 1 1) (leAt (f.drop 8) 8 4) (leAt (f.drop 8) 3 1) s = false :=
  ⟨at_ [(R.CRL_LINK_STATUS_STATE 3, 3)], 3, frame_ 4 ([1, 7, 0, 1] ++ List.replicate 12 0), by decide +kernel⟩

theorem witness_CrinusSystem_7 :
    ∃ (s : State) (k : Nat) (f : List Byte), k < 4 ∧ frameArrives k f s ∧ (headOf f).typ = 4 ∧ leAt (f.drop 8) 0 1 = 1 ∧
    leAt (f.drop 8) 3 1 = 0 ∧ floodDrops 4 1 (leAt (f.drop 8) 1 1) (leAt (f.drop 8) 8 4) 0 s = false :=
  ⟨at_ [(R.CRL_LINK_STATUS_STATE 3, 3)], 3, frame_ 4 ([1, 7] ++ List.replicate 14 0), by decide +kernel⟩

theorem witness_CrinusSystem_8 :
    ∃ (s : State) (id prio : Nat), electMaster (heardPackages s) = some (id, prio) ∧ id < 8 ∧ prio < 256 :=
  ⟨{ at_ [] with crl := { claims := [(7, 255, true, 0)] } }, 7, 255, by decide +kernel⟩

theorem witness_CrinusData_1 :
    ∃ (s : State) (k : Nat) (f : List Byte), k < 4 ∧ frameArrives k f s ∧ (headOf f).typ = 3 ∧
    bitOf (leAt (f.drop 8) 3 1) 0 = false ∧ leAt (f.drop 8) 2 1 < 12 :=
  ⟨{ at_ [(R.CRL_LINK_STATUS_STATE 3, 3), (R.CRL_IMP_CFG_ENABLE 63, 1), (R.CRL_IMP_SIZE_FRAME_4K 63, 1)] with mem := { partitions := [{ base := 0, size := 65536, mask := 1, localBase := 0, granule := 0, use := 7, tag := 0 }] } },
    3, frame_ 3 (List.replicate 32 0), by decide +kernel⟩

theorem witness_CrinusData_2 :
    ∃ (s : State) (k i : Nat) (f : List Byte) (x y : ImportFill), k < 4 ∧ frameArrives k f s ∧ (headOf f).typ = 2 ∧
    (headOf f).stale = false ∧ importSlots s (s.rd (R.CRL_LINK_STATUS_PEER_ID k)) (leAt (f.drop 8) 0 1) = [i] ∧
    (s.import_ i).filling = [x] ∧ x.link = k ∧ x.tick = leAt (f.drop 8) 4 4 ∧ leAt (f.drop 8) 2 2 < x.tiles ∧
    leAt (f.drop 8) 1 1 / 16 < leAt (f.drop 8) 1 1 % 16 ∧
    y = { x with parts := x.parts.set (fun _ => []) (16 * leAt (f.drop 8) 2 2 + leAt (f.drop 8) 1 1 / 16) ((f.drop 8).drop 16), marks := x.marks.set (fun _ => (0, 0, 0)) (leAt (f.drop 8) 2 2) (leAt (f.drop 8) 1 1 % 16, leAt (f.drop 8) 8 4, leAt (f.drop 8) 12 1 % 8) } ∧
    ((List.range y.tiles).all fun q => (tileData y q).isSome) = false :=
  ⟨{ at_ [(R.CRL_LINK_STATUS_STATE 3, 3), (R.CRL_IMP_CFG_ENABLE 63, 1)] with crl := { imports := [(63, { filling := [{ link := 3, fmt := 0, w := 16, h := 16, stamp := 0, ancient := false, tiles := 2, tick := 0, cutNs := 0 }] })] } },
    3, 63, frame_ 2 ([0, 1] ++ List.replicate 14 0 ++ [9]),
    { link := 3, fmt := 0, w := 16, h := 16, stamp := 0, ancient := false, tiles := 2, tick := 0, cutNs := 0 },
    { link := 3, fmt := 0, w := 16, h := 16, stamp := 0, ancient := false, tiles := 2, tick := 0, cutNs := 0, parts := [(0, [9])], marks := [(0, (1, 0, 0))] },
    by decide +kernel⟩

theorem witness_CrinusData_3 :
    ∃ (s : State) (i : Nat) (x : ImportFill), i < 64 ∧ (∀ j, j < 64 → j ≠ i → (s.import_ j).filling = []) ∧
    (s.import_ i).filling = [x] ∧ x.cutNs ≤ s.monoNs :=
  ⟨{ at_ [] with crl := { imports := [(63, { filling := [{ link := 0, fmt := 0, w := 8, h := 8, stamp := 0, ancient := false, tiles := 1, tick := 0, cutNs := 0 }] })] } },
    63, { link := 0, fmt := 0, w := 8, h := 8, stamp := 0, ancient := false, tiles := 1, tick := 0, cutNs := 0 },
    by decide +kernel⟩

theorem witness_CrinusData_4 :
    ∃ (s : State) (k : Nat), s.rdb R.CRL_REG_CMD_BUSY = false ∧ s.rd R.CRL_REG_CMD_LINK = k ∧ linkState s k = 3 ∧
    s.rdb R.CRL_REG_CMD_WRITE = false :=
  ⟨at_ [(R.CRL_REG_CMD_LINK, 3), (R.CRL_LINK_STATUS_STATE 3, 3)], 3, by decide +kernel⟩

theorem witness_CrinusData_5 :
    ∃ (s : State) (k : Nat) (f : List Byte) (colour : Bool), k < 4 ∧ frameArrives k f s ∧ (headOf f).typ = 5 ∧
    leAt (f.drop 8) 0 1 = 1 ∧ leAt (f.drop 8) 1 1 = 1 ∧ leAt (f.drop 8) 4 4 = 8 ∧
    checkAccess s (153 + k) false 0x4010000008 = .permitted colour :=
  ⟨{ at_ [(R.CRL_LINK_STATUS_STATE 3, 3), (R.GLB_SCRATCH_VALUE, 0x12345678), (R.MPU_RGN_CTRL_ENABLE 2 0, 1), (R.MPU_RGN_END_LINE 2 0, 0xFFFF), (R.MPU_RGN_PERM_RIGHTS 2 0, 2 ^ 18 - 1)] with protectionApplied := true },
    3, frame_ 5 ([1, 1, 0, 0, 8, 0, 0, 0]), false, by decide +kernel⟩

theorem witness_CrinusData_6 :
    ∃ (s : State) (k a : Nat) (f : List Byte), k < 4 ∧ frameArrives k f s ∧ (headOf f).typ = 5 ∧ leAt (f.drop 8) 0 1 = 0x82 ∧
    s.crl.request = some (k, a) ∧ leAt (f.drop 8) 2 1 < 4 :=
  ⟨{ at_ [(R.CRL_LINK_STATUS_STATE 3, 3)] with crl := { request := some (3, 0) } }, 3, 0,
    frame_ 5 ([0x82, 0, 1, 0, 8, 0, 0, 0]), by decide +kernel⟩

theorem witness_CrinusData_7 :
    ∃ (s : State) (k a : Nat), s.crl.request = some (k, a) ∧ a + 100000 ≤ s.monoNs :=
  ⟨{ at_ [] with crl := { request := some (3, 0) }, time := { ns := 100000 } }, 3, 0, by decide +kernel⟩

theorem witness_WallMicroseconds_3 :
    ∃ (s : State), s.time.sec < 2 ^ 48 ∧ s.time.ns < 1000000000 ∧ s.time.frac < 2 ^ 32 :=
  ⟨{ at_ [] with time := { sec := 2 ^ 48 - 1, ns := 999999999, frac := 2 ^ 32 - 1 } }, by decide +kernel⟩

theorem witness_WallMicroseconds_4 :
    ∃ (s : State) (src v : Nat), src < 161 ∧ v < 2 ^ 32 ∧ bitOf v 0 = true ∧ bitOf v 1 = false ∧ s.powered 1 = true ∧
    mayWrite s src R.TMB_CTRL_SNAP.addr = true ∧ s.time.sec < 2 ^ 48 ∧ s.time.ns < 1000000000 ∧ s.time.frac < 2 ^ 32 :=
  ⟨{ at_ [(R.PWR_STATUS_POWERED, 2)] with time := { sec := 2 ^ 48 - 1, ns := 999999999, frac := 2 ^ 32 - 1 } }, 160, 1,
    by decide +kernel⟩

theorem witness_TimebaseCommands_1 :
    ∃ (s : State) (w : Nat), w < 2 ^ 32 ∧ s.time.heldFrac < 2 ^ 32 ∧
    1996 * 2 ^ 32 ≤ 1000 * ((w % 256) * 2 ^ 32 + s.time.heldFrac) ∧
    1000 * ((w % 256) * 2 ^ 32 + s.time.heldFrac) ≤ 2004 * 2 ^ 32 :=
  ⟨{ at_ [] with time := { heldFrac := 17179869 } }, 2, by decide +kernel⟩

theorem witness_TimebaseCommands_2 :
    ∃ (s : State) (w : Nat), w < 2 ^ 32 ∧ s.time.heldFrac < 2 ^ 32 ∧
    2004 * 2 ^ 32 < 1000 * ((w % 256) * 2 ^ 32 + s.time.heldFrac) :=
  ⟨{ at_ [] with time := { heldFrac := 17179870 } }, 2, by decide +kernel⟩

theorem witness_TimebaseCommands_3 :
    ∃ (s : State) (w : Nat), w < 2 ^ 32 ∧ s.time.heldFrac < 2 ^ 32 ∧
    1000 * ((w % 256) * 2 ^ 32 + s.time.heldFrac) < 1996 * 2 ^ 32 :=
  ⟨{ at_ [] with time := { heldFrac := 2 ^ 32 - 1 } }, 0, by decide +kernel⟩

theorem witness_TimebaseCommands_4 :
    ∃ (s : State), s.time.sec < 2 ^ 48 ∧ s.time.ns < 1000000000 :=
  ⟨at_ [(R.TMB_STEP_NS_VALUE, 2 ^ 32 - 1), (R.TMB_STATUS_STEPS, 65535)], by decide +kernel⟩

theorem witness_TimebaseCommands_5 :
    ∃ (s : State) (w p o len : Nat), w < 2 ^ 32 ∧ o = s.rd R.TMB_PTP_TX_RD_OFFSET ∧ o < w ∧
    w < s.rd R.TMB_PTP_TX_SIZE_SIZE_4K * 4096 ∧ len = leAt (s.memRead (s.rd R.TMB_PTP_TX_BASE_ADDR * 64 + o) 16) 12 2 ∧
    len < 65535 ∧ w = o + (16 + len + 63) / 64 * 64 ∧ p = leAt (s.memRead (s.rd R.TMB_PTP_TX_BASE_ADDR * 64 + o) 16) 10 1 ∧
    40 ≤ p ∧ p < 48 ∧ portUp s p = false :=
  ⟨{ at_ [(R.TMB_PTP_TX_SIZE_SIZE_4K, 1)] with mem := { bytes := [(0, 9), (10, 47), (11, 2), (12, 48)] } }, 64, 47, 0, 48,
    by decide +kernel⟩

theorem witness_TimebaseCommands_6 :
    ∃ (s : State) (w p o len : Nat) (g : List Byte) (u : State), w < 2 ^ 32 ∧ o = s.rd R.TMB_PTP_TX_RD_OFFSET ∧ o < w ∧
    w < s.rd R.TMB_PTP_TX_SIZE_SIZE_4K * 4096 ∧ len = leAt (s.memRead (s.rd R.TMB_PTP_TX_BASE_ADDR * 64 + o) 16) 12 2 ∧
    len < 65535 ∧ w = o + (16 + len + 63) / 64 * 64 ∧ p = leAt (s.memRead (s.rd R.TMB_PTP_TX_BASE_ADDR * 64 + o) 16) 10 1 ∧
    40 ≤ p ∧ p < 48 ∧ portUp s p = true ∧ leAt (s.memRead (s.rd R.TMB_PTP_TX_BASE_ADDR * 64 + o) 16) 11 1 = 2 ∧
    ethEgress p (withDscp (s.rd (R.PORT_ETH_DSCP_PTP (p - 40))) (s.memRead (s.rd R.TMB_PTP_TX_BASE_ADDR * 64 + o + 16) len)) (s.wr R.TMB_PTP_TX_WR_OFFSET w) = (some g, u) :=
  ⟨({ at_ [(R.TMB_PTP_TX_SIZE_SIZE_4K, 1), (R.PORT_CFG_ENABLE 47, 1), (R.PORT_STATUS_STATE 47, 3)] with mem := { bytes := [(10, 47), (11, 2), (12, 48)] ++ ((List.range 12).map fun i => (16 + i, 1)) ++ [(28, 0x88), (29, 0xF7)] ++ (List.range 34).map fun i => (30 + i, 2) }, time := { sec := 5, ns := 7 } } : State),
    64, 47, 0, 48, List.replicate 12 1 ++ [0x88, 0xF7] ++ List.replicate 34 2,
    ({ at_ [(R.TMB_PTP_TX_SIZE_SIZE_4K, 1), (R.PORT_CFG_ENABLE 47, 1), (R.PORT_STATUS_STATE 47, 3)] with mem := { bytes := [(10, 47), (11, 2), (12, 48)] ++ ((List.range 12).map fun i => (16 + i, 1)) ++ [(28, 0x88), (29, 0xF7)] ++ (List.range 34).map fun i => (30 + i, 2) }, time := { sec := 5, ns := 7 } } : State).wr R.TMB_PTP_TX_WR_OFFSET 64,
    by decide +kernel⟩

theorem witness_TimebaseCommands_7 :
    ∃ (s : State) (w : Nat), w < 2 ^ 32 ∧ s.rd R.TMB_PTP_TX_RD_OFFSET = w :=
  ⟨at_ [(R.TMB_PTP_TX_RD_OFFSET, 64)], 64, by decide +kernel⟩

theorem witness_TimedSignals_1 :
    ∃ (s : State) (k w : Nat), k < 16 ∧ w < 2 ^ 32 ∧ bitOf w 31 = true ∧ s.rdb (R.TMO_CTRL_ENABLE k) = false ∧
    bits w 30 29 = 0 ∧ s.rd (R.TMO_START_NS_VALUE k) < 10 ^ 9 ∧ 4 ≤ s.rd (R.TMO_WIDTH_NS_VALUE k) ∧
    s.nowNs ≤ ((bits w 15 0 * 2 ^ 32 + s.rd (R.TMO_START_S_LO_VALUE k)) * 1000000000 + s.rd (R.TMO_START_NS_VALUE k)) :=
  ⟨at_ [(R.TMO_WIDTH_NS_VALUE 15, 4)], 15, 2 ^ 31, by decide +kernel⟩

theorem witness_TimedSignals_2 :
    ∃ (s : State) (k w : Nat), k < 16 ∧ w < 2 ^ 32 ∧ bitOf w 31 = true ∧ s.rdb (R.TMO_CTRL_ENABLE k) = false ∧
    s.rd (R.TMO_WIDTH_NS_VALUE k) < 4 :=
  ⟨at_ [(R.TMO_WIDTH_NS_VALUE 15, 3)], 15, 2 ^ 32 - 1, by decide +kernel⟩

theorem witness_TimedSignals_3 :
    ∃ (s : State) (k w : Nat), k < 16 ∧ w < 2 ^ 32 ∧ bitOf w 31 = false :=
  ⟨at_ [(R.TMO_CTRL_ENABLE 15, 1)], 15, 0, by decide +kernel⟩

theorem witness_TimedSignals_4 :
    ∃ (s : State) (k n : Nat), k < 16 ∧ (s.tmo k).next = some n ∧ s.rdb (R.TMO_CTRL_ENABLE k) = true ∧
    (s.tmo k).inPulse = false ∧ n ≤ s.nowNs + 1 ∧ s.rd (R.TMO_CTRL_MODE k) = 1 :=
  ⟨{ at_ [(R.TMO_CTRL_ENABLE 15, 1), (R.TMO_CTRL_MODE 15, 1)] with time := { tmo := [(15, { next := some 1 })] } }, 15, 1,
    by decide +kernel⟩

theorem witness_TimedSignals_5 :
    ∃ (s : State) (k n : Nat), k < 16 ∧ (s.tmo k).next = some n ∧ s.rdb (R.TMO_CTRL_ENABLE k) = true ∧
    (s.tmo k).inPulse = false ∧ n ≤ s.nowNs + 1 ∧ s.rd (R.TMO_CTRL_MODE k) = 0 :=
  ⟨{ at_ [(R.TMO_CTRL_ENABLE 15, 1)] with time := { tmo := [(15, { next := some 1 })] } }, 15, 1, by decide +kernel⟩

theorem witness_TimedSignals_6 :
    ∃ (s : State) (k : Nat), k < 16 ∧ (s.tmo k).inPulse = true ∧ (s.tmo k).fired = true :=
  ⟨{ at_ [(R.TMO_CTRL_ENABLE 15, 1)] with time := { tmo := [(15, { inPulse := true, fired := true })] } }, 15,
    by decide +kernel⟩

theorem witness_TimedSignals_7 :
    ∃ (s : State) (k : Nat), k < 16 ∧ (s.tmo k).inPulse = true ∧ (s.tmo k).fired = false :=
  ⟨{ at_ [] with time := { tmo := [(15, { inPulse := true })] } }, 15, by decide +kernel⟩

theorem witness_TimedSignals_8 :
    ∃ (s : State) (c : Nat) (falling : Bool), c < 8 ∧ s.rdb (R.TMC_CTRL_ENABLE c) = true ∧
    (s.rd (R.TMC_CTRL_EDGE c) = (if falling then 2 else 1) ∨ s.rd (R.TMC_CTRL_EDGE c) = 3) ∧ (s.tmc c).queue.length < 8 ∧
    6 ≤ s.nowNs ∧ s.nowNs < 2 ^ 48 * 1000000000 :=
  ⟨{ at_ [(R.TMC_CTRL_ENABLE 7, 1), (R.TMC_CTRL_EDGE 7, 2)] with time := { ns := 6 } }, 7, true, by decide +kernel⟩

theorem witness_TimedSignals_9 :
    ∃ (s : State) (c : Nat) (falling : Bool), c < 8 ∧ s.rdb (R.TMC_CTRL_ENABLE c) = true ∧
    (s.rd (R.TMC_CTRL_EDGE c) = (if falling then 2 else 1) ∨ s.rd (R.TMC_CTRL_EDGE c) = 3) ∧ 8 ≤ (s.tmc c).queue.length :=
  ⟨{ at_ [(R.TMC_CTRL_ENABLE 7, 1), (R.TMC_CTRL_EDGE 7, 3)] with time := { tmc := [(7, { queue := List.replicate 8 { sec := 0, ns := 7, falling := true, stepped := true } })] } },
    7, false, by decide +kernel⟩

theorem witness_TimedSignals_10 :
    ∃ (s : State) (c : Nat) (e : TmcEntry) (q : List TmcEntry), c < 8 ∧ (s.tmc c).queue = e :: q ∧ q.length < 8 ∧
    e.sec < 2 ^ 48 ∧ e.ns < 1000000000 :=
  ⟨{ at_ [] with time := { tmc := [(7, { queue := [{ sec := 0, ns := 7, falling := true, stepped := true }] })] } }, 7,
    { sec := 0, ns := 7, falling := true, stepped := true }, [], by decide +kernel⟩

theorem witness_TimedSignals_11 :
    ∃ (s : State) (c : Nat), c < 8 ∧ (s.tmc c).queue = [] :=
  ⟨at_ [(R.TMC_TS_NS_VALID 7, 1)], 7, by decide +kernel⟩

theorem witness_AudioCommands_1 :
    ∃ (s : State) (r : Nat), r < 32 ∧ s.powered 6 = true ∧ s.rdb (R.AUD_RT_CTRL_ENABLE r) = true ∧ frameFallsDue s r = true :=
  ⟨at_ [(R.PWR_STATUS_POWERED, 64), (R.AUD_RT_CTRL_ENABLE 31, 1)], 31, by decide +kernel⟩

theorem witness_AudioCommands_2 :
    ∃ (s : State) (r : Nat), r < 32 ∧ s.powered 6 = true ∧ s.rdb (R.AUD_RT_CTRL_ENABLE r) = true ∧ frameFallsDue s r = true ∧
    s.rd (R.AUD_RT_EP_DST_KIND r) = 4 ∧ s.rd (R.AUD_IEC_CFG_MODE (s.rd (R.AUD_RT_EP_DST_INDEX r))) = 2 ∧
    isNonAudio (s.nonAudio (routeSrc s r)) = true ∧ s.rdb R.WDN_STATUS_PKG_FAULT = false :=
  ⟨{ at_ [(R.PWR_STATUS_POWERED, 64), (R.AUD_RT_CTRL_ENABLE 31, 1), (R.AUD_RT_EP_DST_KIND 31, 4), (R.AUD_IEC_CFG_MODE 0, 2)] with audio := { nonAudio := [(0, { bit := true })] } },
    31, by decide +kernel⟩

theorem witness_AudioCommands_3 :
    ∃ (s : State) (x : AudioInput), x.kind < 6 ∧ x.index < 64 ∧ s.powered 6 = true ∧ sourceInUse s x = true :=
  ⟨at_ [(R.PWR_STATUS_POWERED, 64)],
    { kind := 1, index := 15, frames := [], rtp := 0, nonAudio := true, lpcm := true, rate := 2, csBlock := none, errors := 0 },
    by decide +kernel⟩

theorem witness_AudioCommands_4 :
    ∃ (s : State) (x : AudioInput), x.kind = 4 ∧ x.index < 8 ∧ s.powered 6 = true ∧ s.rd (R.AUD_IEC_CFG_MODE x.index) = 1 ∧
    x.csBlock = none ∧ x.nonAudio = true ∧ x.rate < 16 :=
  ⟨at_ [(R.PWR_STATUS_POWERED, 64), (R.AUD_IEC_CFG_MODE 7, 1)],
    { kind := 4, index := 7, frames := [], rtp := 0, nonAudio := true, lpcm := true, rate := 2, csBlock := none, errors := 0 },
    by decide +kernel⟩

theorem witness_AudioCommands_5 :
    ∃ (s : State) (kind ix : Nat), kind < 6 ∧ ix < 64 ∧ (s.nonAudio (srcKey kind ix)).burst = true ∧
    16384 ≤ (s.nonAudio (srcKey kind ix)).since :=
  ⟨{ at_ [] with audio := { nonAudio := [(srcKey 5 31, { burst := true, since := 16384 })] } }, 5, 31, by decide +kernel⟩

theorem witness_AudioCommands_6 :
    ∃ (s : State) (g : Nat), g < 3 ∧ s.rdb (R.AUD_GRP_LOCKED g) = true :=
  ⟨at_ [(R.AUD_GRP_LOCKED 2, 1)], 2, by decide +kernel⟩

theorem witness_AudioCommands_7 :
    ∃ (s : State) (g hz : Nat), g < 3 ∧ hz < 2 ^ 18 ∧ s.rdb (R.AUD_GRP_FOLLOW g) = true ∧ s.rdb (R.AUD_GRP_LOCKED g) = false ∧
    rateInRange hz = true :=
  ⟨at_ [(R.AUD_GRP_FOLLOW 2, 1)], 2, 48000, by decide +kernel⟩

theorem witness_AudioCommands_8 :
    ∃ (s : State) (a q : Nat), a < 16 ∧ q < 2 ^ 32 ∧ s.rdb (R.AUD_ASRC_STAT_LOCKED a) = true :=
  ⟨at_ [(R.AUD_ASRC_STAT_LOCKED 15, 1)], 15, 2 ^ 32 - 1, by decide +kernel⟩

theorem witness_AudioCommands_9 :
    ∃ (s : State) (a q : Nat), a < 16 ∧ q < 2 ^ 32 ∧ ratioInRange q = true :=
  ⟨at_ [], 15, 2 ^ 24, by decide +kernel⟩

theorem witness_AudioCommands_10 :
    ∃ (s : State) (p w : Nat), p < 4 ∧ w < 2 ^ 32 :=
  ⟨at_ [], 3, 2 ^ 32 - 1, by decide +kernel⟩

theorem witness_AudioCommands_11 :
    ∃ (s : State) (i ohms : Nat), i < 8 ∧ s.powered 6 = true ∧ s.rd (R.AUD_IEC_CFG_MODE i) = 2 :=
  ⟨at_ [(R.PWR_STATUS_POWERED, 64), (R.AUD_IEC_CFG_MODE 7, 2)], 7, 19, by decide +kernel⟩

theorem witness_TouchCommands_1 :
    ∃ (s : State) (p : Nat), p < 4 ∧ scanFallsDue s p = true ∧ bitOf (s.rd R.TCH_STATUS_SCANNING) p = false :=
  ⟨{ at_ [(R.PWR_STATUS_POWERED, 64), (R.TICK_STATUS_RUN, 1), (R.TCH_PNL_CTRL_ENABLE 3, 1)] with touch := { panels := [(3, { count := 1 })] } },
    3, by decide +kernel⟩

theorem witness_TouchCommands_2 :
    ∃ (s : State) (p : Nat), p < 4 ∧ scanFallsDue s p = true ∧ bitOf (s.rd R.TCH_STATUS_SCANNING) p = true :=
  ⟨{ at_ [(R.PWR_STATUS_POWERED, 64), (R.TICK_STATUS_RUN, 1), (R.TCH_PNL_CTRL_ENABLE 3, 1), (R.TCH_STATUS_SCANNING, 8)] with touch := { panels := [(3, { count := 1 })] } },
    3, by decide +kernel⟩

theorem witness_TouchCommands_3 :
    ∃ (s : State) (p : Nat), p < 4 ∧ scanFallsDue s p = false :=
  ⟨at_ [], 3, by decide +kernel⟩

theorem witness_TouchCommands_4 :
    ∃ (s : State) (p : Nat) (y : List (List (List Int))), p < 4 ∧ bitOf (s.rd R.TCH_STATUS_SCANNING) p = true ∧
    scanNeeds s p ≤ scanPulses s p ∧ (s.panel p).baseScans < 3 :=
  ⟨{ at_ [(R.TCH_STATUS_SCANNING, 8)] with touch := { panels := [(3, { count := 1, pulses := 4096 })] } }, 3, [],
    by decide +kernel⟩

theorem witness_TouchCommands_5 :
    ∃ (s : State) (p : Nat) (y : List (List (List Int))), p < 4 ∧ bitOf (s.rd R.TCH_STATUS_SCANNING) p = true ∧
    scanNeeds s p ≤ scanPulses s p ∧ (s.panel p).baseScans = 3 :=
  ⟨{ at_ [(R.TCH_STATUS_SCANNING, 8)] with touch := { panels := [(3, { count := 1, baseScans := 3, pulses := 4096 })] } },
    3, [], by decide +kernel⟩

theorem witness_TouchCommands_6 :
    ∃ (s : State) (p : Nat) (y : List (List (List Int))), p < 4 ∧ scanPulses s p < scanNeeds s p :=
  ⟨{ at_ [(R.TCH_STATUS_SCANNING, 8), (R.TCH_PNL_DRIVE_PULSES 3, 1)] with touch := { panels := [(3, { count := 1 })] } }, 3,
    [], by decide +kernel⟩

theorem witness_TouchCommands_7 :
    ∃ (s : State) (p : Nat), p < 4 ∧ s.powered 6 = true ∧ (s.panel p).count ≠ 0 ∧ s.rd (R.TCH_PNL_CTRL_ENABLE p) = 0 ∧
    s.rd (R.TCH_PNL_STAT_STATE p) = 0 :=
  ⟨{ at_ [(R.PWR_STATUS_POWERED, 64)] with touch := { panels := [(3, { count := 1 })] } }, 3, by decide +kernel⟩

theorem witness_TouchCommands_8 :
    ∃ (s : State) (p : Nat) (y : List (List (List Int))) (single : List (List (List Nat))), p < 4 ∧
    s.rd (R.TCH_PNL_STAT_STATE p) = 5 ∧ 2 * scanNeeds s p ≤ scanPulses s p :=
  ⟨at_ [(R.TCH_PNL_STAT_STATE 3, 5)], 3, [], [], by decide +kernel⟩

theorem witness_TouchCommands_9 :
    ∃ (s : State) (p : Nat), p < 4 ∧ s.powered 6 = true ∧ (s.panel p).count ≠ 0 ∧ s.rd (R.TCH_PNL_CTRL_ENABLE p) = 0 ∧
    s.rd (R.TCH_PNL_STAT_STATE p) = 0 :=
  ⟨{ at_ [(R.PWR_STATUS_POWERED, 64)] with touch := { panels := [(3, { count := 1 })] } }, 3, by decide +kernel⟩

theorem witness_TouchCommands_10 :
    ∃ (s : State) (p : Nat) (drive caps : List Nat), p < 4 ∧ s.rd (R.TCH_PNL_STAT_STATE p) = 1 ∧
    s.rdb (R.TCH_PNL_CTRL_ENABLE p) = true :=
  ⟨at_ [(R.TCH_PNL_STAT_STATE 3, 1), (R.TCH_PNL_CTRL_ENABLE 3, 1)], 3, [], [], by decide +kernel⟩

theorem witness_TouchCommands_11 :
    ∃ (s : State) (p : Nat) (drive caps : List Nat), p < 4 ∧ s.rd (R.TCH_PNL_STAT_STATE p) = 1 ∧
    s.rdb (R.TCH_PNL_CTRL_ENABLE p) = false :=
  ⟨at_ [(R.TCH_PNL_STAT_STATE 3, 1)], 3, [], [], by decide +kernel⟩

theorem witness_ResetCommands_2 :
    ∃ (s : State) (b : Nat), b < 4 ∧ s.power.porst = true ∧ s.power.switching = [] ∧ s.power.toSwitch = [] :=
  ⟨at_ [], 3, by decide +kernel⟩

theorem witness_ResetCommands_3 :
    ∃ (s : State) (b : Nat), b < 4 ∧ s.power.porst = false :=
  ⟨{ at_ [] with power := { porst := false } }, 3, by decide +kernel⟩

theorem witness_ResetCommands_4 :
    ∃ (s : State), s.power.porst = false ∧ s.rdb R.PWR_STATUS_THERMTRIP = false :=
  ⟨{ at_ [(R.PWR_RST_CAUSE_WARM_COUNT, 65535)] with power := { porst := false } }, by decide +kernel⟩

theorem witness_ResetCommands_5 :
    ∃ (s : State), s.rdb R.PWR_STATUS_THERMTRIP = true :=
  ⟨at_ [(R.PWR_STATUS_THERMTRIP, 1)], by decide +kernel⟩

theorem witness_ResetCommands_6 :
    ∃ (s : State) (w : Nat), w < 2 ^ 32 ∧ w / 2 ^ 16 = 0x3C5A ∧ w % 2 = 1 ∧ s.power.porst = false ∧
    s.rdb R.PWR_STATUS_THERMTRIP = false :=
  ⟨{ at_ [] with power := { porst := false } }, 0x3C5A0001, by decide +kernel⟩

theorem witness_ResetCommands_7 :
    ∃ (s : State) (w : Nat), w < 2 ^ 32 ∧ (w / 2 ^ 16 ≠ 0x3C5A ∨ w % 2 = 0 ∨ s.rdb R.PWR_STATUS_THERMTRIP = true) :=
  ⟨at_ [], 0x3C5A0000, by decide +kernel⟩

theorem witness_PowerAndCheckCommands_1 :
    ∃ (s : State) (d : Nat), d < 17 ∧ s.power.switching = [d] ∧ s.power.toSwitch = [] ∧ domainRegion d = none :=
  ⟨{ at_ [] with power := { switching := [16] } }, 16, by decide +kernel⟩

theorem witness_PowerAndCheckCommands_2 :
    ∃ (s : State) (d : Nat), d < 17 ∧ s.power.switching.contains d = false :=
  ⟨at_ [], 16, by decide +kernel⟩

theorem witness_PowerAndCheckCommands_3 :
    ∃ (s : State) (d : Nat), d < 17 ∧ s.power.switching.contains d = true ∧
    s.power.switchNs.get (fun _ => 0) d + 200000 ≤ s.monoNs ∧ s.rd R.IMG_STATUS_LOAD_STATE ≠ 5 :=
  ⟨{ at_ [] with power := { switching := [16] }, time := { ns := 200000 } }, 16, by decide +kernel⟩

theorem witness_PowerAndCheckCommands_4 :
    ∃ (s : State) (m mv : Nat), m < 32 ∧ mv < 65536 ∧ s.rd (R.PWR_MON_CFG_LOW_MV m) ≤ mv ∧ mv ≤ s.rd (R.PWR_MON_CFG_HIGH_MV m) :=
  ⟨at_ [], 31, 1890, by decide +kernel⟩

theorem witness_PowerAndCheckCommands_5 :
    ∃ (s : State) (m mv : Nat), m < 32 ∧ mv < 65536 ∧
    (mv < s.rd (R.PWR_MON_CFG_LOW_MV m) ∨ s.rd (R.PWR_MON_CFG_HIGH_MV m) < mv) ∧
    (s.power.monitors.get (fun _ => {}) m).out = 0 :=
  ⟨at_ [], 31, 1891, by decide +kernel⟩

theorem witness_PowerAndCheckCommands_6 :
    ∃ (s : State) (m mv : Nat), 28 ≤ m ∧ m < 31 ∧ mv < s.rd (R.PWR_MON_CFG_LOW_MV m) ∧
    1 ≤ (s.power.monitors.get (fun _ => {}) m).out ∧ (s.power.monitors.get (fun _ => {}) m).tripped = false :=
  ⟨{ at_ [(R.PWR_MON_STAT_TRIPS 30, 127)] with power := { monitors := [(30, { out := 1 })] } }, 30, 3134, by decide +kernel⟩

theorem witness_PowerAndCheckCommands_8 :
    ∃ (s : State) (u : Nat), u < 16 ∧ s.rdb (R.CHK_CU_CFG_ENABLE u) = true ∧
    (s.rd (R.CHK_CU_CFG_POINT u) = 7 ∨ s.rd (R.CHK_CU_CFG_POINT u) = 8) :=
  ⟨at_ [(R.CHK_CU_CFG_ENABLE 15, 1), (R.CHK_CU_CFG_POINT 15, 8)], 15, by decide +kernel⟩

theorem witness_BallStates_1 :
    ∃ s : State, s.power.porst = true :=
  ⟨State.reset, by decide⟩

theorem witness_BallStates_2 :
    ∃ s : State, s.power.porst = false ∧ s.powered (2 + 127 / 32) = false ∧ s.powered (11 + 5 * 1) = false ∧
    s.powered 6 = false :=
  ⟨{ State.reset with power := { porst := false } }, by decide +kernel⟩

theorem witness_BallStates_3 :
    ∃ (_ : State) (k : Nat), k < 24 :=
  ⟨State.reset, 23, by decide⟩

theorem witness_BallStates_4 :
    ∃ s : State, s.power.porst = false ∧ s.powered 6 = true ∧ s.rdb R.WDN_STATUS_PKG_FAULT = true ∧
    s.rd (R.AUD_IEC_CFG_MODE 7) = 2 ∧ s.rdb (R.AUD_TDM_CFG_DIR 3) = true :=
  ⟨{ at_ [(R.PWR_STATUS_POWERED, 64), (R.WDN_STATUS_PKG_FAULT, 1), (R.AUD_IEC_CFG_MODE 7, 2), (R.AUD_TDM_CFG_DIR 3, 1)] with power := { porst := false } },
    by decide +kernel⟩

theorem witness_CommandOrder_1 :
    ∃ (s : State) (c : Nat) (o : Outstanding), commandNext s c = some o :=
  ⟨{ at_ [] with mem := { outstanding := [{ access := { src := 7, addr := 0, write := false, bytes := [], len := 1 }, epoch := 0, colour := false, arrival := 1 }] }, time := { sec := 0 } },
    0,
    { access := { src := 7, addr := 0, write := false, bytes := [], len := 1 }, epoch := 0, colour := false, arrival := 1 },
    by decide +kernel⟩

theorem witness_CommandOrder_2 :
    ∃ (s : State) (c : Nat) (o p : Outstanding), commandNext s c = some o ∧ p ∈ readyAt s c ∧ inPanic s p.access.src = true :=
  ⟨{ at_ [(R.HRT_RT_PORT_PANIC 63, 1)] with mem := { outstanding := [{ access := { src := 7, addr := 0, write := false, bytes := [], len := 1 }, epoch := 0, colour := false, arrival := 1 }, { access := { src := 151, addr := 64, write := false, bytes := [], len := 1 }, epoch := 0, colour := false, arrival := 2 }] }, time := { sec := 0 } },
    0,
    { access := { src := 151, addr := 64, write := false, bytes := [], len := 1 }, epoch := 0, colour := false, arrival := 2 },
    { access := { src := 151, addr := 64, write := false, bytes := [], len := 1 }, epoch := 0, colour := false, arrival := 2 },
    by decide +kernel⟩

theorem witness_CommandOrder_3 :
    ∃ (s : State) (c : Nat) (o p : Outstanding), commandNext s c = some o ∧ p ∈ readyAt s c ∧
    (∀ q ∈ readyAt s c, inPanic s q.access.src = false) ∧ p.arrivedNs + 100 * max 1 (s.rd R.HRT_SCHED_AGE_LIMIT) < s.monoNs :=
  ⟨{ at_ [] with mem := { outstanding := [{ access := { src := 7, addr := 0, write := false, bytes := [], len := 1 }, epoch := 0, colour := false, arrival := 1 }, { access := { src := 151, addr := 64, write := false, bytes := [], len := 1 }, epoch := 0, colour := false, arrival := 2 }] }, time := { sec := 1 } },
    0,
    { access := { src := 7, addr := 0, write := false, bytes := [], len := 1 }, epoch := 0, colour := false, arrival := 1 },
    { access := { src := 151, addr := 64, write := false, bytes := [], len := 1 }, epoch := 0, colour := false, arrival := 2 },
    by decide +kernel⟩

theorem witness_CommandOrder_4 :
    ∃ (s : State) (c : Nat) (o p : Outstanding), commandNext s c = some o ∧ p ∈ readyAt s c ∧
    (∀ q ∈ readyAt s c, inPanic s q.access.src = false) ∧
    (∀ q ∈ readyAt s c, s.monoNs ≤ q.arrivedNs + 100 * max 1 (s.rd R.HRT_SCHED_AGE_LIMIT)) :=
  ⟨{ at_ [] with mem := { outstanding := [{ access := { src := 7, addr := 0, write := false, bytes := [], len := 1 }, epoch := 0, colour := false, arrival := 1 }, { access := { src := 151, addr := 64, write := false, bytes := [], len := 1 }, epoch := 0, colour := false, arrival := 2 }] }, time := { sec := 0 } },
    0,
    { access := { src := 7, addr := 0, write := false, bytes := [], len := 1 }, epoch := 0, colour := false, arrival := 1 },
    { access := { src := 151, addr := 64, write := false, bytes := [], len := 1 }, epoch := 0, colour := false, arrival := 2 },
    by decide +kernel⟩

theorem witness_FrameBlocks_1 :
    ∃ m : List Byte, 7 ≤ m.length ∧ 1 < (m.length - 7) / 8 :=
  ⟨List.replicate 32 1, by decide⟩

theorem witness_SearchCandidates_2 :
    ∃ (cost : Vec → Nat) (l : List Vec) (v : Vec), leastBy cost l = some v :=
  ⟨fun v => v.1.toNat, [(5, 0), (3, 1), (3, 2)], (3, 1), by decide⟩

end Sys2Proof.Machine.Tests
end

/-!
PROOFS. The machine as a whole (chapter 00): every command answers through `checked`, the events of a command leave the command's
own list when they enter the queue (R533), and GLB_ID reads the part and its stepping (R7).
-/
namespace Sys2Proof.Machine

/-! ### The list of a command's events while they enter the queue -/

/-- The events that the present command has raised and not yet entered are `es`. -/
def CycleIs (es : List (Nat × Nat × Nat)) (s : State) : Prop := s.evq.cycle = es

section
variable {es : List (Nat × Nat × Nat)} {s : State}

theorem CycleIs.evq {o : EvqState} (h : o.cycle = es) : CycleIs es { s with evq := o } := h

theorem CycleIs.wr (h : CycleIs es s) (f : Fld) (v : Nat) : CycleIs es (s.wr f v) := h

theorem CycleIs.send (h : CycleIs es s) (m : Sent) : CycleIs es (s.send m) := h

theorem CycleIs.sendVector (h : CycleIs es s) (v : Nat) : CycleIs es (s.sendVector v) := by
  unfold State.sendVector; exact closed_ite (closed_ite (.evq h) (h.send _)) h

theorem CycleIs.makePending (h : CycleIs es s) (v : Nat) : CycleIs es (s.makePending v) := by
  unfold State.makePending; exact closed_ite h ((h.wr _ _).sendVector v)

theorem CycleIs.pushRecord (h : CycleIs es s) (stamp code object : Nat) : CycleIs es (s.pushRecord stamp code object) := by
  unfold State.pushRecord
  extract_lets i s1 s2 s3 s4 s5 s6 q s7 s8
  have h5 : CycleIs es s5 := ((((h.wr _ _).wr _ _).wr _ _).wr _ _).wr _ _
  have h6 : CycleIs es s6 := closed_ite (h5.wr _ _) h5
  have h7 : CycleIs es s7 := .evq h6
  have h8 : CycleIs es s8 := closed_ite (h7.makePending _) h7
  exact closed_ite (h8.makePending _) h8

theorem CycleIs.flushLost (h : CycleIs es s) : CycleIs es s.flushLost := by
  have hclear : CycleIs es { s with evq := { s.evq with lostSince := 0 } } := h
  unfold State.flushLost; exact closed_ite h (hclear.pushRecord _ _ _)

theorem CycleIs.enterEvent (h : CycleIs es s) (e : Nat × Nat × Nat) : CycleIs es (s.enterEvent e) := by
  unfold State.enterEvent
  have hlost : CycleIs es s.flushLost := h.flushLost
  exact closed_ite (.evq ((hlost.wr _ _).wr _ _)) (hlost.pushRecord _ _ _)

theorem CycleIs.reorderTail (h : CycleIs es s) (l : List (Nat × Nat × Nat)) : CycleIs es (s.reorderTail l) :=
  closed_foldl (fun _ _ ht => closed_foldl (fun _ _ hu => hu.wr _ _) ht) h

/-- The end of a command empties its list: the list is cleared first, and entering an event adds none to it (R533). -/
theorem CycleIs.flushEvents (s : State) : CycleIs [] s.flushEvents := by
  have hentered (l : List (Nat × Nat × Nat)) :
      CycleIs [] (l.foldl State.enterEvent { s with evq := { s.evq with cycle := [] } }) :=
    closed_foldl (fun _ e ht => ht.enterEvent e) rfl
  unfold State.flushEvents
  split
  · next hempty => exact List.isEmpty_iff.mp hempty
  · exact .evq (closed_ite (hentered _) ((hentered _).reorderTail _))

end

@[simp] theorem State.flushEvents_cycle (s : State) : s.flushEvents.evq.cycle = [] := CycleIs.flushEvents s

/-! ### What a command answers -/

/-- The meaning of every command is an effect on the state under the one check of the hardware that the command names. -/
theorem exec_eq_checked (c : Instr) (s : State) : ∃ u, exec c s = checked c u := by
  cases c <;> exact ⟨_, rfl⟩

theorem exec_of_wellFormed {c : Instr} (hc : WellFormed c) (s : State) : ∃ u : State, exec c s = .next u.flushEvents := by
  obtain ⟨u, hu⟩ := exec_eq_checked c s
  exact ⟨u, by rw [hu, checked, if_pos hc]⟩

theorem exec_of_not_wellFormed {c : Instr} (hc : ¬WellFormed c) (s : State) : exec c s = .fault .noSuchObject := by
  obtain ⟨u, hu⟩ := exec_eq_checked c s
  rw [hu, checked, if_neg hc]

/-- A next state is one whose command was well formed and has entered its events. -/
theorem exec_next {c : Instr} {s t : State} (h : exec c s = .next t) : WellFormed c ∧ ∃ u : State, t = u.flushEvents := by
  by_cases hc : WellFormed c
  · obtain ⟨u, hu⟩ := exec_of_wellFormed hc s
    rw [hu] at h
    cases h
    exact ⟨hc, u, rfl⟩
  · rw [exec_of_not_wellFormed hc s] at h
    cases h

/-- Settles O3: every arm of `exec` answers through `checked`, which enters the events of a well-formed command. -/
theorem everyCommandAnswers : Obligations.EveryCommandAnswers := by
  refine ⟨fun c s hc => ?_, fun c s hc => exec_of_not_wellFormed hc s, fun c s t h => ?_⟩
  · obtain ⟨u, hu⟩ := exec_of_wellFormed hc s
    exact ⟨u.flushEvents, hu⟩
  · obtain ⟨-, u, rfl⟩ := exec_next h
    exact u.flushEvents_cycle

/-! ### Reads of GLB_ID -/

@[simp] theorem State.reset_word (a : Nat) : State.reset.word a = resetWord a := rfl

/-- The word that GLB_ID holds at reset (R7). -/
theorem resetWord_glbId : resetWord 0 = 0x489600B1 := by decide

/-- GLB_ID has no shadow and no bit that reads as 0: on either path, in every state, a read answers its live word. -/
theorem readReg_glbId (bar0 : Bool) (s : State) : readReg bar0 0 s = (s.word 0).toNat := by
  have hshadow : accMask .rws 0 = 0 := by decide
  have hreads (w : Word) : w.toNat &&& readMask 0 = w.toNat := by
    rw [show readMask 0 = 2 ^ 32 - 1 by decide, Nat.and_two_pow_sub_one_of_lt_two_pow w.isLt]
  simp [readReg, hshadow, hreads]

/-- Settles O7: a read of GLB_ID answers its live word, which at reset is the register map's. -/
theorem resetIdentity : Obligations.ResetIdentity := by
  refine ⟨fun bar0 => ?_, ?_, ?_⟩
  · rw [readReg_glbId, State.reset_word, resetWord_glbId]
    rfl
  · change bits (resetWord 0).toNat 31 16 = 0x4896
    rw [resetWord_glbId]
    rfl
  · change bits (resetWord 0).toNat 7 0 = 0xB1
    rw [resetWord_glbId]
    rfl

end Sys2Proof.Machine

/-!
PROOFS. Frames, once for every command: what changes only the parts of a list, or only the fields of a list, and that raising
events and entering them changes the event queue alone (R530 to R535).
-/
namespace Sys2Proof.Machine

/-! ### What a command leaves alone: parts and fields -/

theorem ChangesOnly.refl (K : List Part) (s : State) : ChangesOnly K s s := fun p _ => by cases p <;> simp [Part.same]

theorem Part.same_trans {s t u : State} {p : Part} (h : p.same s t) (k : p.same t u) : p.same s u := by
  cases p <;> simp_all [Part.same]

theorem ChangesOnly.trans {K : List Part} {s t u : State} (h : ChangesOnly K s t) (k : ChangesOnly K t u) :
    ChangesOnly K s u := fun p hp => Part.same_trans (h p hp) (k p hp)

theorem ChangesOnly.mono {K L : List Part} {s t : State} (h : ChangesOnly K s t) (hKL : K ⊆ L) : ChangesOnly L s t :=
  fun p hp => h p fun hk => hp (hKL hk)

/-- An update that changes part `q` alone, after changes in `K`, which has `q`. -/
theorem ChangesOnly.then {K : List Part} {s t u : State} {q : Part} (h : ChangesOnly K s t) (hq : q ∈ K)
    (k : ∀ p, p ≠ q → p.same t u) : ChangesOnly K s u :=
  fun p hp => Part.same_trans (h p hp) (k p fun e => hp (e ▸ hq))

/-- A store of less than a line writes no line whole, so that it changes the bytes alone (R330). -/
theorem State.memWrite_short (s : State) (a : Nat) (bs : List Byte) (hb : bs.length < 64) :
    s.memWrite a bs = { s with mem := { s.mem with bytes := storeCells s.mem.bytes a bs } } := by
  have hlines : (s.mem.lines.filter fun (p : Nat × LineErr) =>
      !(decide (a ≤ 64 * p.1) && decide (64 * p.1 + 64 ≤ a + bs.length))) = s.mem.lines := by
    refine List.filter_eq_self.mpr fun p _ => ?_
    simp only [Bool.not_eq_true', Bool.and_eq_false_iff, decide_eq_false_iff_not]
    omega
  simp only [State.memWrite, hlines]

/-- What changes only the parts in `K` survives every update of a part in `K`. -/
theorem ChangesOnly.closed (K : List Part) (s : State) : Closed K (ChangesOnly K s) where
  word hk t a w h := h.then hk fun p hp => by cases p <;> simp [Part.same] at hp ⊢
  dropWords hk t r _ h := h.then hk fun p hp => by cases p <;> simp [Part.same] at hp ⊢
  shadowWord hk t a w h := h.then hk fun p hp => by cases p <;> simp [Part.same] at hp ⊢
  dropShadow hk t r _ h := h.then hk fun p hp => by cases p <;> simp [Part.same] at hp ⊢
  setSeal hk t h := h.then hk fun p hp => by cases p <;> simp [Part.same] at hp ⊢
  clearSeal hk t h := h.then hk fun p hp => by cases p <;> simp [Part.same] at hp ⊢
  setSecNs hk t _ _ _ _ h := h.then hk fun p hp => by cases p <;> simp [Part.same] at hp ⊢
  setFrac hk t _ _ h := h.then hk fun p hp => by cases p <;> simp [Part.same] at hp ⊢
  timers hk t o hsec hns hfrac h := h.then hk fun p hp => by cases p <;> simp [Part.same, hsec, hns, hfrac] at hp ⊢
  store hk t a bs hb h := by
    rcases hb with hm | hb
    · intro p hp
      refine Part.same_trans (h p hp) ?_
      cases p <;> simp_all [Part.same, State.memWrite]
    · rw [State.memWrite_short t a bs hb]
      exact h.then hk fun p hp => by cases p <;> simp [Part.same] at hp ⊢
  dropBytes hk t r _ h := h.then hk fun p hp => by cases p <;> simp [Part.same] at hp ⊢
  mem hk t o ho h := h.then hk fun p hp => by cases p <;> simp [Part.same, ho] at hp ⊢
  evq hk t o h := h.then hk fun p hp => by cases p <;> simp [Part.same] at hp ⊢
  tick hk t o h := h.then hk fun p hp => by cases p <;> simp [Part.same] at hp ⊢
  clap hk t o h := h.then hk fun p hp => by cases p <;> simp [Part.same] at hp ⊢
  permit hk t o h := h.then hk fun p hp => by cases p <;> simp [Part.same] at hp ⊢
  audio hk t o h := h.then hk fun p hp => by cases p <;> simp [Part.same] at hp ⊢
  touch hk t o h := h.then hk fun p hp => by cases p <;> simp [Part.same] at hp ⊢
  chk hk t o h := h.then hk fun p hp => by cases p <;> simp [Part.same] at hp ⊢
  power hk t o h := h.then hk fun p hp => by cases p <;> simp [Part.same] at hp ⊢
  comp hk t o h := h.then hk fun p hp => by cases p <;> simp [Part.same] at hp ⊢
  codec hk t o h := h.then hk fun p hp => by cases p <;> simp [Part.same] at hp ⊢
  faults hk t o h := h.then hk fun p hp => by cases p <;> simp [Part.same] at hp ⊢
  damper hk t o h := h.then hk fun p hp => by cases p <;> simp [Part.same] at hp ⊢
  inj hk t o h := h.then hk fun p hp => by cases p <;> simp [Part.same] at hp ⊢
  lanes hk t o h := h.then hk fun p hp => by cases p <;> simp [Part.same] at hp ⊢
  ports hk t o h := h.then hk fun p hp => by cases p <;> simp [Part.same] at hp ⊢
  links hk t o h := h.then hk fun p hp => by cases p <;> simp [Part.same] at hp ⊢
  crl hk t o h := h.then hk fun p hp => by cases p <;> simp [Part.same] at hp ⊢
  img hk t o h := h.then hk fun p hp => by cases p <;> simp [Part.same] at hp ⊢
  fuses hk t o h := h.then hk fun p hp => by cases p <;> simp [Part.same] at hp ⊢
  send hk t m h := h.then hk fun p hp => by cases p <;> simp [Part.same] at hp ⊢
  free hk t o h := h.then hk fun p hp => by cases p <;> simp [Part.same] at hp ⊢

/-- The parts that raising events and entering them changes. -/
abbrev queueParts : List Part := [.regs, .evq, .sent]

theorem ChangesOnly.queue {K : List Part} {s t u : State} (h : ChangesOnly K s t) (k : QueueOnly t u)
    (hK : queueParts ⊆ K) : ChangesOnly K s u := h.trans (k.same.mono hK)

theorem FieldsOnly.refl (l : List Fld) (s : State) : FieldsOnly l s s := fun _ _ _ => rfl

/-- What leaves the register words alone changes no field. -/
theorem FieldsOnly.of_regs {l : List Fld} {s t u : State} (h : FieldsOnly l s t) (hu : u.regs = t.regs) : FieldsOnly l s u :=
  fun g hg hq => by rw [← h g hg hq]; simp only [State.rd, State.word, hu]

theorem FieldsOnly.wr {l : List Fld} {s t : State} (h : FieldsOnly l s t) {f : Fld} (hf : f ∈ l) (hok : FldOk f) (v : Nat) :
    FieldsOnly l s (t.wr f v) :=
  fun g hg hq => (State.rd_wr_apart t f g v hok (hg f hf)).trans (h g hg hq)

theorem FieldsOnly.queue {l : List Fld} {s t u : State} (h : FieldsOnly l s t) (k : QueueOnly t u) : FieldsOnly l s u :=
  fun g hg hq => (k.rd g hq).trans (h g hg hq)

theorem FieldsOnly.mono {l m : List Fld} {s t : State} (h : FieldsOnly l s t) (hlm : l ⊆ m) : FieldsOnly m s t :=
  fun g hg hq => h g (fun f hf => hg f (hlm hf)) hq

/-! ### Raising an event changes what the queue keeps beside its registers -/

theorem QueueOnly.raiseAt (s : State) (st c o : Nat) : QueueOnly s (s.raiseAt st c o) := by
  unfold State.raiseAt; exact .ite (.refl _) (.evq _ _)

theorem QueueOnly.raise (s : State) (c o : Nat) : QueueOnly s (s.raise c o) := .raiseAt _ _ _ _

theorem QueueOnly.raiseOnce (s : State) (c o : Nat) : QueueOnly s (s.raiseOnce c o) := by
  unfold State.raiseOnce; exact .ite (.refl _) (.trans (.evq _ _) (.raise _ _ _))

theorem QueueOnly.tick {s t : State} (h : QueueOnly s t) : t.tick = s.tick := h.same .tick (by decide)
theorem QueueOnly.clap {s t : State} (h : QueueOnly s t) : t.clap = s.clap := h.same .clap (by decide)
theorem QueueOnly.touch {s t : State} (h : QueueOnly s t) : t.touch = s.touch := h.same .touch (by decide)
theorem QueueOnly.comp {s t : State} (h : QueueOnly s t) : t.comp = s.comp := h.same .comp (by decide)

@[simp] theorem State.flushEvents_tick (s : State) : s.flushEvents.tick = s.tick := (QueueOnly.flushEvents s).tick
@[simp] theorem State.flushEvents_clap (s : State) : s.flushEvents.clap = s.clap := (QueueOnly.flushEvents s).clap
@[simp] theorem State.flushEvents_touch (s : State) : s.flushEvents.touch = s.touch := (QueueOnly.flushEvents s).touch
@[simp] theorem State.flushEvents_comp (s : State) : s.flushEvents.comp = s.comp := (QueueOnly.flushEvents s).comp
@[simp] theorem State.raise_tick (s : State) (c o : Nat) : (s.raise c o).tick = s.tick := (QueueOnly.raise s c o).tick
@[simp] theorem State.raise_comp (s : State) (c o : Nat) : (s.raise c o).comp = s.comp := (QueueOnly.raise s c o).comp
@[simp] theorem State.raiseOnce_comp (s : State) (c o : Nat) : (s.raiseOnce c o).comp = s.comp :=
  (QueueOnly.raiseOnce s c o).comp

/-- A well-formed command answers the state of its effect `u` once its events have entered the queue. -/
theorem exec_of_wf {c : Instr} {s u : State} (hc : WellFormed c) (h : exec c s = checked c u) :
    exec c s = .next u.flushEvents := by rw [h, checked, if_pos hc]

end Sys2Proof.Machine

/-!
PROOFS. The commands of the tick (chapter 01): a sheet marked complete (R26), a resync (R16), the edges and the loss of the
tick's source (R14, R15).
-/
namespace Sys2Proof.Machine

/-- The parts that a command of the tick changes. -/
abbrev tickParts : List Part := queueParts ++ [.tick]

@[simp] theorem modTick_rd (g : TickState → TickState) (s : State) (f : Fld) : (modTick g s).rd f = s.rd f := rfl
@[simp] theorem modTick_tick (g : TickState → TickState) (s : State) : (modTick g s).tick = g s.tick := rfl

theorem FieldsOnly.modTick {l : List Fld} {s t : State} (h : FieldsOnly l s t) (g : TickState → TickState) :
    FieldsOnly l s (modTick g t) := h.of_regs rfl

theorem Closed.modTick {K : List Part} {P : State → Prop} (h : Closed K P) (hk : .tick ∈ K) (s : State)
    (g : TickState → TickState) (hs : P s) : P (modTick g s) := h.tick hk _ _ hs

/-- A good sheet in time: it is complete, and the time its building took is kept. -/
theorem cueSheetComplete_of_good {s : State} {sh : Sheet} (hb : s.tick.building = some sh) (hc : s.tick.complete = false)
    (hbad : s.tick.cueBad = false) (ht : s.nowNs + s.rd R.TICK_CFG_PUB_GUARD * 1000 ≤ s.tick.nextEdgeNs) :
    cueSheetComplete true s = (modTick (fun o => { o with
      building := some { sh with probes := signProbes s sh }, complete := true
      buildUs := (s.nowNs - s.tick.lastEdgeNs) / 1000 }) s).wr R.TICK_BUILD_COMPLETE 1 := by
  simp [cueSheetComplete, hb, hc, hbad, ht]

/-- The arrival of an edge is the newest of the source, whether it counts towards the lock or not. -/
theorem sourceEdgeAt_head (t : Nat) (s : State) : (sourceEdgeAt t s).tick.sourceEdges.head? = some t := by
  unfold sourceEdgeAt
  extract_lets es p next good es' run s1 s2 s3
  have hes : es'.head? = some t := by
    unfold es'
    split <;> simp
  have h1 : s1.tick.sourceEdges.head? = some t := hes
  clear_value s1
  have h3 : s3.tick = s1.tick := closed_ite (P := fun u => u.tick = s1.tick) (State.wr_tick _ _ _)
    ((State.wr_tick _ _ _).trans (State.wr_tick _ _ _))
  refine closed_ite (P := fun u => u.tick.sourceEdges.head? = some t) ?_ h1
  rw [State.raise_tick, modTick_tick, h3]
  exact h1

theorem sourceEdgeAt_fields (t : Nat) (s : State) :
    FieldsOnly [R.TICK_STATUS_LOCKED, R.TICK_STATUS_ACTIVE_SRC] s (sourceEdgeAt t s) := by
  unfold sourceEdgeAt
  extract_lets es p next good es' run s1 s2 s3
  have h1 : FieldsOnly [R.TICK_STATUS_LOCKED, R.TICK_STATUS_ACTIVE_SRC] s s1 := (FieldsOnly.refl _ s).modTick _
  have h2 := h1.wr (f := R.TICK_STATUS_LOCKED) (by simp) (by decide) 1
  have h3 : FieldsOnly [R.TICK_STATUS_LOCKED, R.TICK_STATUS_ACTIVE_SRC] s s3 :=
    closed_ite h2 (h2.wr (by simp) (by decide) _)
  exact closed_ite ((h3.modTick _).queue (.raise _ _ _)) h1

theorem sourceEdgeAt_parts (t : Nat) (s : State) : ChangesOnly tickParts s (sourceEdgeAt t s) := by
  have hc := ChangesOnly.closed tickParts s
  unfold sourceEdgeAt
  extract_lets es p next good es' run s1 s2 s3
  have h1 : ChangesOnly tickParts s s1 := hc.modTick (by decide) _ _ (.refl _ s)
  have h2 := hc.wr (by decide) _ R.TICK_STATUS_LOCKED 1 h1
  have h3 : ChangesOnly tickParts s s3 := closed_ite h2 (hc.wr (by decide) _ _ _ h2)
  exact closed_ite (hc.raise (by decide) _ _ _ (hc.modTick (by decide) _ _ h3)) h1

theorem FieldsOnly.freeRunFrom {l : List Fld} {s t : State} (hl : R.TICK_PERIOD_NS_PERIOD ∈ l) (h : FieldsOnly l s t) (b : Nat) :
    FieldsOnly l s (freeRunFrom b t) := by
  unfold Machine.freeRunFrom
  exact (h.modTick _).wr hl (by decide) _

theorem Closed.freeRunFrom {K : List Part} {P : State → Prop} (h : Closed K P) (hr : .regs ∈ K) (ht : .tick ∈ K) (s : State)
    (b : Nat) (hs : P s) : P (freeRunFrom b s) := by
  unfold Machine.freeRunFrom
  exact h.wr hr _ _ _ (h.modTick ht _ _ hs)

/-- The status register of a tick that has lost its source. -/
def holdoverStatus (s : State) : State :=
  (((s.wr R.TICK_STATUS_LOCKED 0).wr R.TICK_STATUS_HOLDOVER 1).wr R.TICK_STATUS_ACTIVE_SRC 0).wr R.TICK_STATUS_SLEWING 0

theorem holdoverStatus_rd (s : State) : (holdoverStatus s).rd R.TICK_STATUS_LOCKED = 0 ∧
    (holdoverStatus s).rd R.TICK_STATUS_HOLDOVER = 1 ∧ (holdoverStatus s).rd R.TICK_STATUS_ACTIVE_SRC = 0 ∧
    (holdoverStatus s).rd R.TICK_STATUS_SLEWING = 0 := by
  have same (t : State) (f : Fld) (v : Nat) (hf : FldOk f) := State.rd_wr t f v hf
  have apart (t : State) (f g : Fld) (v : Nat) (hf : FldOk f) (hd : FldApart f g) := State.rd_wr_apart t f g v hf hd
  unfold holdoverStatus
  refine ⟨?_, ?_, ?_, ?_⟩
  · rw [apart _ _ _ _ (by decide) (by decide), apart _ _ _ _ (by decide) (by decide), apart _ _ _ _ (by decide) (by decide),
      same _ _ _ (by decide)]
    rfl
  · rw [apart _ _ _ _ (by decide) (by decide), apart _ _ _ _ (by decide) (by decide), same _ _ _ (by decide)]
    rfl
  · rw [apart _ _ _ _ (by decide) (by decide), same _ _ _ (by decide)]
    rfl
  · rw [same _ _ _ (by decide)]
    rfl

/-- A lost source leaves the tick in holdover; where it was locked the tick first runs on from the timebase. -/
theorem tickSrcLost_of_lost {s : State} (h : sourceLost s = true) : ∃ (t : State) (code object : Nat), (t = s ∨ ∃ b, t = freeRunFrom b s) ∧
    tickSrcLost s = (holdoverStatus (modTick (fun o => { o with goodRun := 0, selectedPeriods := none }) t)).raise code object := by
  rw [tickSrcLost, if_pos h]
  refine ⟨_, _, _, ?_, rfl⟩
  unfold State.when
  split
  · exact .inr ⟨_, rfl⟩
  · exact .inl rfl

theorem FieldsOnly.holdoverStatus {l : List Fld} {s t : State} (h : FieldsOnly l s t) (hl : [R.TICK_STATUS_LOCKED,
    R.TICK_STATUS_HOLDOVER, R.TICK_STATUS_ACTIVE_SRC, R.TICK_STATUS_SLEWING] ⊆ l) : FieldsOnly l s (holdoverStatus t) := by
  unfold Machine.holdoverStatus
  exact (((h.wr (hl (by simp)) (by decide) _).wr (hl (by simp)) (by decide) _).wr (hl (by simp)) (by decide) _).wr
    (hl (by simp)) (by decide) _

theorem Closed.holdoverStatus {K : List Part} {P : State → Prop} (h : Closed K P) (hr : .regs ∈ K) (s : State) (hs : P s) :
    P (holdoverStatus s) := by
  unfold Machine.holdoverStatus
  exact h.wr hr _ _ _ (h.wr hr _ _ _ (h.wr hr _ _ _ (h.wr hr _ _ _ hs)))

@[simp] theorem holdoverStatus_tick (s : State) : (holdoverStatus s).tick = s.tick := by
  rw [holdoverStatus, State.wr_tick, State.wr_tick, State.wr_tick, State.wr_tick]

theorem cueSheetComplete_statement (s : State) (sh : Sheet) (hb : s.tick.building = some sh) (hc : s.tick.complete = false)
    (hbad : s.tick.cueBad = false) (ht : s.nowNs + s.rd R.TICK_CFG_PUB_GUARD * 1000 ≤ s.tick.nextEdgeNs) :
    ∃ t, exec (.cueSheetComplete true) s = .next t ∧ t.tick.complete = true ∧
      t.tick.buildUs = (s.nowNs - s.tick.lastEdgeNs) / 1000 ∧ t.rd R.TICK_BUILD_COMPLETE = 1 ∧
      FieldsOnly [R.TICK_BUILD_COMPLETE] s t ∧ ChangesOnly tickParts s t := by
  refine ⟨_, exec_of_wf rfl rfl, ?_⟩
  rw [cueSheetComplete_of_good hb hc hbad ht]
  have hclosed := ChangesOnly.closed tickParts s
  have htick : ∀ u : State, (u.wr R.TICK_BUILD_COMPLETE 1).flushEvents.tick = u.tick := fun u =>
    (State.flushEvents_tick _).trans (State.wr_tick _ _ _)
  refine ⟨by rw [htick, modTick_tick], by rw [htick, modTick_tick], ?_, ?_, ?_⟩
  · rw [State.flushEvents_rd _ _ (by decide), State.rd_wr _ _ _ (by decide)]
    rfl
  · exact (((FieldsOnly.refl _ s).modTick _).wr (by simp) (by decide) _).queue (.flushEvents _)
  · exact (hclosed.wr (by decide) _ _ _ (hclosed.modTick (by decide) _ _ (.refl _ s))).queue (.flushEvents _) (by decide)

/-- A resync is noted in the hidden state of the tick alone. -/
theorem resync_eq (s : State) : resync s = modTick (fun o => { o with resyncPending := true }) s := rfl

theorem resync_statement (s : State) : ∃ t, exec .resync s = .next t ∧ t.tick = { s.tick with resyncPending := true } ∧
    FieldsOnly [] s t ∧ ChangesOnly tickParts s t := by
  refine ⟨_, exec_of_wf rfl rfl, ?_⟩
  rw [resync_eq]
  refine ⟨by rw [State.flushEvents_tick, modTick_tick], ((FieldsOnly.refl _ s).modTick _).queue (.flushEvents _), ?_⟩
  exact ((ChangesOnly.closed tickParts s).modTick (by decide) s _ (.refl _ s)).queue (.flushEvents _) (by decide)

theorem tickSourceEdge_statement (s : State) (hsrc : tickSrc s = 1 ∨ tickSrc s = 2) : ∃ t, exec .tickSourceEdge s = .next t ∧
    t.tick.sourceEdges.head? = some s.nowNs ∧ FieldsOnly [R.TICK_STATUS_LOCKED, R.TICK_STATUS_ACTIVE_SRC] s t ∧
    ChangesOnly tickParts s t := by
  refine ⟨_, exec_of_wf rfl rfl, ?_⟩
  rw [tickSourceEdge, if_pos hsrc]
  refine ⟨?_, (sourceEdgeAt_fields _ s).queue (.flushEvents _), (sourceEdgeAt_parts _ s).queue (.flushEvents _) (by decide)⟩
  rw [State.flushEvents_tick]
  exact sourceEdgeAt_head _ s

theorem tickSrcLost_statement (s : State) (hlost : sourceLost s = true) : ∃ t, exec .tickSrcLost s = .next t ∧
    t.rd R.TICK_STATUS_LOCKED = 0 ∧ t.rd R.TICK_STATUS_HOLDOVER = 1 ∧ t.rd R.TICK_STATUS_ACTIVE_SRC = 0 ∧
    t.rd R.TICK_STATUS_SLEWING = 0 ∧ t.tick.goodRun = 0 ∧
    FieldsOnly [R.TICK_STATUS_LOCKED, R.TICK_STATUS_HOLDOVER, R.TICK_STATUS_ACTIVE_SRC, R.TICK_STATUS_SLEWING,
      R.TICK_PERIOD_NS_PERIOD] s t ∧ ChangesOnly tickParts s t := by
  refine ⟨_, exec_of_wf rfl rfl, ?_⟩
  obtain ⟨t, code, object, ht, heq⟩ := tickSrcLost_of_lost hlost
  have hfields : FieldsOnly [R.TICK_STATUS_LOCKED, R.TICK_STATUS_HOLDOVER, R.TICK_STATUS_ACTIVE_SRC, R.TICK_STATUS_SLEWING,
      R.TICK_PERIOD_NS_PERIOD] s t := by
    obtain rfl | ⟨b, rfl⟩ := ht
    · exact .refl _ _
    · exact (FieldsOnly.refl _ _).freeRunFrom (by simp) b
  have hclosed := ChangesOnly.closed tickParts s
  have hparts : ChangesOnly tickParts s t := by
    obtain rfl | ⟨b, rfl⟩ := ht
    · exact .refl _ _
    · exact hclosed.freeRunFrom (by decide) (by decide) _ b (.refl _ _)
  rw [heq]
  clear heq ht
  obtain ⟨hlocked, hholdover, hactive, hslewing⟩ :=
    holdoverStatus_rd (modTick (fun o => { o with goodRun := 0, selectedPeriods := none }) t)
  refine ⟨?_, ?_, ?_, ?_, by simp, ?_, ?_⟩
  · rw [State.flushEvents_rd _ _ (by decide), State.raise_rd, hlocked]
  · rw [State.flushEvents_rd _ _ (by decide), State.raise_rd, hholdover]
  · rw [State.flushEvents_rd _ _ (by decide), State.raise_rd, hactive]
  · rw [State.flushEvents_rd _ _ (by decide), State.raise_rd, hslewing]
  · exact (((hfields.modTick _).holdoverStatus (by simp)).queue (.raise _ _ _)).queue (.flushEvents _)
  · exact (hclosed.raise (by decide) _ _ _ (hclosed.holdoverStatus (by decide) _
      (hclosed.modTick (by decide) _ _ hparts))).queue (.flushEvents _) (by decide)

/-- Settles O18, command by command. -/
theorem tickCommands : Obligations.TickCommands := by
  unfold Obligations.TickCommands
  exact ⟨cueSheetComplete_statement, resync_statement, tickSourceEdge_statement, tickSrcLost_statement⟩

end Sys2Proof.Machine

/-!
PROOFS. The reload of a tick edge (R80 to R87). It writes its initial registers as ordinary writes (R86), so that a record of
CLAP_CTRL.DISCARD withdraws every arm (R225): a late arm does not always become an arm for the next edge.
-/
namespace Sys2Proof.Machine

/-! ### What the sections of an image leave alone -/

section
variable {K : List Part} {P : State → Prop}

theorem Closed.imgWord (h : Closed K P) (hr : .regs ∈ K) (hs : .shadow ∈ K) (a w : Nat) (s : State) (hp : P s) :
    P (imgWord a w s) := h.regs_shadow hr hs _ _ _ _ _ hp

theorem Closed.applyFlue (h : Closed K P) (hr : .regs ∈ K) (hs : .shadow ∈ K) (b : List Byte) (f : Nat) (s : State) (hp : P s) :
    P (applyFlue b f s) := by
  unfold Machine.applyFlue
  extract_lets o fl s1 s2 s3 on s4 s5
  have h2 : P s2 := h.wr hr _ _ _ (h.wr hr _ _ _ (h.wr hr _ _ _ (h.wr hr _ _ _ hp)))
  have h3 : P s3 := closed_foldl (fun t k ht => h.imgWord hr hs _ _ t ht) h2
  have h5 : P s5 := h.wr hr _ _ _ (h.wr hr _ _ _ (h.wr hr _ _ _ h3))
  exact h.wr hr _ _ _ (h.wr hr _ _ _ h5)

theorem Closed.emptyRing (h : Closed K P) (hr : .regs ∈ K) (hc : .comp ∈ K) (f : Nat) (s : State) (hp : P s) :
    P (emptyRing f s) := h.setFlue hc _ _ _ (h.wr hr _ _ _ (h.wr hr _ _ _ hp))

theorem Closed.clearUnoccupied (h : Closed K P) (hr : .regs ∈ K) (b : List Byte) (s : State) (hp : P s) :
    P (clearUnoccupied b s) := h.dropWords hr _ _ (List.filter_sublist ..) hp

theorem Closed.startTick (h : Closed K P) (hr : .regs ∈ K) (ht : .tick ∈ K) (s : State) (hp : P s) : P (startTick s) :=
  h.tick ht _ _ (h.wr hr _ _ _ (h.wr hr _ _ _ hp))

theorem Closed.applyWall (h : Closed K P) (hr : .regs ∈ K) (hs : .shadow ∈ K) (hc : .comp ∈ K) (ht : .tick ∈ K) (boot : Bool)
    (old b : List Byte) (s : State) (hp : P s) : P (applyWall boot old b s) := by
  unfold Machine.applyWall
  extract_lets s1 s2 s3 s4
  have h2 : P s2 := h.wr hr _ _ _ (h.wr hr _ _ _ (h.wr hr _ _ _ hp))
  have h3 : P s3 := closed_foldl
    (fun t f ht => closed_when (h.emptyRing hr hc f _) (h.applyFlue hr hs b f t ht)) h2
  have h4 : P s4 := h.clearUnoccupied hr b _ h3
  exact closed_ite (h.startTick hr ht _ h4) h4

end

/-- A tick that starts afresh does not run yet (R18). -/
theorem startTick_run (s : State) : (startTick s).rd R.TICK_STATUS_RUN = 0 := by
  have hrd (t : State) (o : TickState) : ({ t with tick := o } : State).rd R.TICK_STATUS_RUN = t.rd R.TICK_STATUS_RUN := rfl
  unfold startTick
  extract_lets src t
  rw [hrd]
  clear hrd
  have ht : t.rd R.TICK_STATUS_RUN = (s.wr { R.TICK_STATUS_RUN with lo := 26 } 0).rd R.TICK_STATUS_RUN :=
    State.rd_wr_apart _ _ _ _ (by decide) (by decide)
  have hx := (s.word R.TICK_STATUS_RUN.addr).isLt
  rw [ht, State.rd, State.word_wr, if_pos rfl, BitVec.toNat_ofNat]
  generalize (s.word _).toNat = x at hx
  change bits (putBits x 31 26 0 % 2 ^ 32) 31 31 = 0
  simp only [bits, putBits]
  omega

/-- A wall geometry that changes the rate, the guard or the package starts the tick afresh (R84). -/
theorem applyWall_run {old b : List Byte} (hb : (old.take 3 != b.take 3) = true) (s : State) :
    (applyWall false old b s).rd R.TICK_STATUS_RUN = 0 := by
  unfold applyWall
  rw [if_pos (by rw [hb]; rfl)]
  exact startTick_run _

/-! ### The reload of an edge -/

/-- The sections of the waiting image, applied in the order of R73. -/
def reloadApplied (write : Nat → Nat → Nat → State → State) (s : State) : State :=
  (applyOrder.filter (hasSection s.img.staging)).foldl
    (fun t k => applySection false write [] k (sectionBody s.img.staging k) t) (setLoadState 5 s)

/-- Clapper and RUN stand as in `u`. -/
def ClapRunAs (u t : State) : Prop := t.clap = u.clap ∧ t.rd R.TICK_STATUS_RUN = u.rd R.TICK_STATUS_RUN

theorem ClapRunAs.wr {u t : State} (h : ClapRunAs u t) {f : Fld} (hf : FldOk f) (hd : FldApart f R.TICK_STATUS_RUN) (v : Nat) :
    ClapRunAs u (t.wr f v) :=
  ⟨(State.wr_clap t f v).trans h.1, (State.rd_wr_apart t f _ v hf hd).trans h.2⟩

theorem ClapRunAs.modImg {u t : State} (h : ClapRunAs u t) (g : ImgState → ImgState) : ClapRunAs u (modImg g t) := h

theorem ClapRunAs.reloadDone {u t : State} (h : ClapRunAs u t) (m : Nat) : ClapRunAs u (reloadDone m t).2 :=
  (h.modImg _).wr (by decide) (by decide) _

/-- A reload that waits at an edge and finds its conditions met is applied; what follows it in the loader touches neither the
clapper nor RUN. -/
theorem imgTickEdge_of_ready (write : Nat → Nat → Nat → State → State) {s u : State} (h4 : loadState s = 4)
    (hw : ¬ max 1 s.img.wait ≤ s.img.waited) (hu : u = modImg (fun o => { o with waited := o.waited + 1 }) s)
    (hr : (faultsQuiet u && (applyOrder.filter (hasSection u.img.staging)).all
      fun t => reloadReady u t (sectionBody u.img.staging t)) = true)
    (hx : crossFault u u.img.staging = none) : ClapRunAs (reloadApplied write u) (imgTickEdge write s).2 := by
  unfold imgTickEdge
  rw [if_neg (not_not.mpr h4), if_neg hw, ← hu]
  extract_lets d staged ts s1 s2 s3 s4 s5
  have h1 : ClapRunAs (reloadApplied write u) s1 := ⟨rfl, rfl⟩
  clear_value s1
  have h4 : ClapRunAs (reloadApplied write u) s4 :=
    ((h1.wr (by decide) (by decide) _).wr (by decide) (by decide) _).wr (by decide) (by decide) _
  clear_value s4
  have h5 := h4.modImg fun o => { o with staging := [], applied := true }
  rw [if_pos hr, hx]
  change ClapRunAs _ (if _ then _ else _ : List (Nat × Nat) × State).2
  split
  · exact h5.modImg _
  · exact h5.reloadDone _

end Sys2Proof.Machine

/-!
PROOFS. The counterexample to O17: a late arm that the reload of the edge withdraws. The image that waits writes CLAP_CTRL.DISCARD;
its wall geometry stops the tick (R84), so that nothing of the edge follows the reload.
-/
namespace Sys2Proof.Machine

/-! ### A late arm and a reload that withdraws it -/

/-- A directory entry for section `t` of `n` bytes at offset `o` (R63). -/
def dirEntryBytes (t o n : Nat) : List Byte :=
  [BitVec.ofNat 8 t, 1, 0, 0] ++ leBytes 4 o ++ leBytes 4 n ++ [0, 0, 0, 0]

/-- An initial-register record that writes 1 to CLAP_CTRL.DISCARD: offset, mask, value (R64, R225). -/
def discardRecord : List Byte := leBytes 4 0x03001C ++ leBytes 4 2 ++ leBytes 4 2

/-- The head of a wall geometry of rate 1 without a flue (R553); what lies beyond it reads zero. -/
def flueless : List Byte := 1 :: List.replicate 63 0

/-- A partial image of two sections: the record, and the wall geometry. -/
def discardImage : List Byte :=
  List.replicate 7 0 ++ 1 :: List.replicate 152 0 ++ dirEntryBytes 14 0x200 12 ++ dirEntryBytes 3 0x240 64
    ++ (List.replicate 14 (0xFF :: List.replicate 15 0)).flatten ++ List.replicate 96 0
    ++ discardRecord ++ List.replicate 52 0 ++ flueless

/-- The power plan in force: every domain is powered (R503). -/
def allPowered : List Byte := List.replicate 4 0xFF

/-- An edge is due, a late arm waits for the edge after it, and the image waits as a reload. -/
def lateArm : State := { State.reset.wr R.IMG_STATUS_LOAD_STATE 4 with
  tick := { geometryApplied := true, firstEdge := false }
  clap := { armAfter := true }
  img := { staging := discardImage, sections := [(9, allPowered)] } }

/-- The state once the edge has begun: RUN is 1 and the tick counts. -/
def lateArmBegun : State := { lateArm with regs := [(0x010008, 0x80000000), (0x01000C, 1), (0x02000C, 0x40000000)] }

/-- The reload of the edge has waited for it. -/
def lateArmReload : State := modImg (fun o => { o with waited := o.waited + 1 }) lateArmBegun

/-! The image has no other section than the two. -/

theorem dirUsed_discardImage : dirUsed discardImage = [(0, 14, 0x200, 12), (1, 3, 0x240, 64)] := by decide +kernel

theorem imagePartial_discardImage : imagePartial discardImage = true := by decide +kernel

theorem hasSection_discardImage (t : Nat) : hasSection discardImage t = (t == 14 || t == 3) := by
  unfold hasSection dirEntry
  rw [dirUsed_discardImage, List.isSome_find?]
  simp [BEq.comm (b := t)]

/-- The bodies of the image's sections. -/
def discardBody (t : Nat) : List Byte := if t = 14 then discardRecord else if t = 3 then flueless else []

theorem sectionBody_discardImage (t : Nat) : sectionBody discardImage t = discardBody t := by
  have h14 : (discardImage.drop 0x200).take 12 = discardRecord := by decide +kernel
  have h3 : (discardImage.drop 0x240).take 64 = flueless := by decide +kernel
  unfold sectionBody dirEntry discardBody
  rw [dirUsed_discardImage]
  by_cases h : t = 14
  · subst h
    exact h14
  · rw [if_neg h, List.find?_cons_of_neg (by simpa using Ne.symm h)]
    by_cases h : t = 3
    · subst h
      exact h3
    · rw [if_neg h, List.find?_cons_of_neg (by simpa using Ne.symm h)]
      rfl

/-- The bodies that the reload is checked with: its own, and the power plan in force. -/
def reloadBody (t : Nat) : List Byte := if t = 9 then allPowered else discardBody t

theorem section_lateArmReload (t : Nat) : lateArmReload.section_ t = if t = 9 then allPowered else [] := by
  have h : lateArmReload.section_ t = if 9 = t then allPowered else [] := rfl
  simpa only [eq_comm] using h

theorem loadBody_lateArmReload : loadBody lateArmReload discardImage = reloadBody := by
  funext t
  unfold loadBody reloadBody discardBody
  rw [hasSection_discardImage, sectionBody_discardImage, imagePartial_discardImage, if_pos rfl, section_lateArmReload, discardBody]
  split_ifs <;> simp_all

/-- Without an image in force only disagreements within the image count, and there is none. -/
theorem crossFault_lateArmReload : crossFault lateArmReload discardImage = none := by
  have hall : (allCross (fun p => lateArmReload.rdb (R.PORT_CFG_ENABLE p)) reloadBody).filter
      (fun c => c.all fun x => x.1 == 14 || x.1 == 3) = [] := by decide +kernel
  have hconf : lateArmReload.rdb R.IMG_STATUS_CONFIGURED = false := by decide +kernel
  unfold crossFault
  simp only [loadBody_lateArmReload, hasSection_discardImage, imagePartial_discardImage, hconf, Bool.not_false, Bool.not_true, Bool.and_self,
    Bool.and_false, Bool.false_and, Bool.false_or, hall]
  rfl

theorem sections_discardImage : applyOrder.filter (hasSection discardImage) = [14, 3] := by
  rw [funext hasSection_discardImage]
  decide

theorem reloadReady_lateArmReload : (faultsQuiet lateArmReload && (applyOrder.filter (hasSection discardImage)).all
      fun t => reloadReady lateArmReload t (sectionBody discardImage t)) = true := by
  rw [sections_discardImage, funext sectionBody_discardImage]
  decide +kernel

/-- The reload's record withdraws the arm, and its wall geometry stops the tick. -/
theorem imgTickEdge_lateArm : ClapRunAs (reloadApplied regWriteTouched lateArmReload)
    (imgTickEdge regWriteTouched lateArmBegun).2 := by
  have hload : loadState lateArmBegun = 4 := by decide +kernel
  refine imgTickEdge_of_ready regWriteTouched hload (by decide) (by rw [lateArmReload]) ?_ crossFault_lateArmReload
  exact reloadReady_lateArmReload

/-- The state after the record: every arm is withdrawn. -/
def lateArmRecorded : State := applySection false regWriteTouched [] 14 discardRecord (setLoadState 5 lateArmReload)

theorem lateArmRecorded_clap : lateArmRecorded.clap = {} := by decide +kernel

theorem reloadApplied_lateArm :
    reloadApplied regWriteTouched lateArmReload = applySection false regWriteTouched [] 3 flueless lateArmRecorded := by
  have hs : lateArmReload.img.staging = discardImage := rfl
  unfold reloadApplied
  rw [hs, sections_discardImage, List.foldl_cons, List.foldl_cons, List.foldl_nil, sectionBody_discardImage,
    sectionBody_discardImage]
  rfl

/-- The wall geometry takes effect, and is in force from then on. -/
theorem applySection_wall (boot : Bool) (write : Nat → Nat → Nat → State → State) (failed : List Nat) (b : List Byte) (s : State) :
    applySection boot write failed 3 b s = applyWall boot (s.section_ 3) b
      { s with img := { s.img with sections := s.img.sections.set (fun _ => []) 3 b } } := rfl

theorem reloadApplied_lateArm_clap : (reloadApplied regWriteTouched lateArmReload).clap = {} := by
  have hwall (s : State) (old b : List Byte) (o : ImgState) : (applyWall false old b { s with img := o }).clap = s.clap := by
    have hclosed := ChangesOnly.closed [.regs, .shadow, .comp, .tick, .img] s
    exact hclosed.applyWall (by decide) (by decide) (by decide) (by decide) _ _ _ _ (hclosed.img (by decide) _ o (.refl _ _))
      .clap (by decide)
  rw [reloadApplied_lateArm, applySection_wall, hwall, lateArmRecorded_clap]

theorem reloadApplied_lateArm_run : (reloadApplied regWriteTouched lateArmReload).rd R.TICK_STATUS_RUN = 0 := by
  have hnew : ((lateArmRecorded.section_ 3).take 3 != flueless.take 3) = true := by decide +kernel
  rw [reloadApplied_lateArm, applySection_wall, applyWall_run hnew]

/-! ### The edge up to the reload finds nothing else to do -/

theorem foldl_eq_of_fixed {α β : Type} {f : β → α → β} {l : List α} {b : β} (h : ∀ a ∈ l, f b a = b) : l.foldl f b = b := by
  induction l with
  | nil => rfl
  | cons a l ih => rw [List.foldl_cons, h a (by simp), ih fun x hx => h x (by simp [hx])]

theorem settle_lateArm : (List.range 24).foldl (fun s f => settleScans f (settleFrames f s)) lateArm = lateArm :=
  foldl_eq_of_fixed (by decide +kernel)

theorem beginEdge_lateArm : beginEdge lateArm = lateArmBegun := by decide +kernel

theorem commitSeal_of_none {s : State} (hs : s.sealed = none) (ha : s.clap.armNext = false) : commitSeal s = (false, s) := by
  simp [commitSeal, State.when, hs, ha]

theorem wakeAction_of_none {s : State} (h : s.power.wakeMask = none) : wakeAction s = s := by
  simp [wakeAction, h]

/-- What was enabled before the edge: nothing. -/
def lateArmWas (f : Nat → Fld) (n : Nat) : Bool := !false && lateArm.rdb (f n)

/-- No object of the state is enabled, so that the commit starts and stops none. -/
theorem commitObjects_lateArm : commitObjects lateArm false lateArmBegun = lateArmBegun := by
  have hports : ((List.range 53).filter (· != 48)).foldl (portCommit (lateArmWas R.PORT_CFG_ENABLE)) lateArmBegun = lateArmBegun :=
    foldl_eq_of_fixed (by decide +kernel)
  have hlanes : lanesTickEdge lateArmBegun = lateArmBegun := foldl_eq_of_fixed (by decide +kernel)
  have hroutes : (List.range 32).foldl (audCommitRoute (lateArmWas R.AUD_RT_CTRL_ENABLE)) lateArmBegun = lateArmBegun :=
    foldl_eq_of_fixed (by decide +kernel)
  have hpanels : (List.range 4).foldl (tchCommitPanel (lateArmWas R.TCH_PNL_CTRL_ENABLE)) lateArmBegun = lateArmBegun :=
    foldl_eq_of_fixed (by decide +kernel)
  have hreels : (List.range 128).foldl (reelCommit (lateArmWas R.REEL_CFG_ENABLE)) lateArmBegun = lateArmBegun :=
    foldl_eq_of_fixed (by decide +kernel)
  have hencs : (List.range 128).foldl (encCommit (lateArmWas R.REEL_CFG_ENABLE)) lateArmBegun = lateArmBegun :=
    foldl_eq_of_fixed (by decide +kernel)
  have hmembers : (span 40 8).foldl membershipCommit lateArmBegun = lateArmBegun := foldl_eq_of_fixed (by decide +kernel)
  have hflues : (List.range 24).foldl (emptyRingAt (lateArmWas R.CMP_FLUE_CTRL_ENABLE)) lateArmBegun = lateArmBegun :=
    foldl_eq_of_fixed (by decide +kernel)
  have hunits : (List.range 16).foldl (chkStart (lateArmWas R.CHK_CU_CFG_ENABLE)) lateArmBegun = lateArmBegun :=
    foldl_eq_of_fixed (by decide +kernel)
  have hsigs : expStart (lateArmWas R.CRT_EXP_CTRL_ENABLE) lateArmBegun = lateArmBegun := by decide +kernel
  have hwas (f : Nat → Fld) : (fun n => !false && lateArm.rdb (f n)) = lateArmWas f := rfl
  unfold commitObjects
  simp only [hwas, hports, hlanes, hroutes, hpanels, hreels, hencs, hmembers, hflues, hunits, hsigs]

theorem tickSourceCommit_lateArm : tickSourceCommit (sourceChoice lateArm) lateArmBegun = lateArmBegun := by decide +kernel

/-! ### The end of an edge -/

theorem QueueOnly.raiseEdges (evs : List (Nat × Nat)) (s : State) : QueueOnly s (raiseEdges evs s) :=
  .foldl _ (fun _ _ => .raiseAt _ _ _ _) _ _

@[simp] theorem modTick_clap (g : TickState → TickState) (s : State) : (modTick g s).clap = s.clap := rfl

theorem clapAfterEdge_clap (s : State) : (clapAfterEdge s).clap =
    { s.clap with armNext := s.clap.armNext || s.clap.armAfter, armAfter := false, contentSince := [] } := State.wr_clap _ _ _

/-- An edge that commits nothing and whose reload stops the tick ends with the arms as the reload leaves them. -/
theorem tickEdge_of_stopped {e : Nat} {s b : State} (hnow : (!s.tick.geometryApplied || !edgeDue s) = false)
    (hfirst : s.tick.firstEdge = false)
    (hsettle : (List.range 24).foldl (fun s f => settleScans f (settleFrames f s)) s = s) (hbegin : beginEdge s = b)
    (hcommit : commitSeal b = (false, b)) (hwake : wakeAction b = b) (hobjects : commitObjects s false b = b)
    (hsource : tickSourceCommit (sourceChoice s) b = b)
    (hrun : (imgTickEdge regWriteTouched b).2.rd R.TICK_STATUS_RUN = 0) :
    (tickEdge e s).clap.armNext =
      ((imgTickEdge regWriteTouched b).2.clap.armNext || (imgTickEdge regWriteTouched b).2.clap.armAfter) := by
  have hstop : (imgTickEdge regWriteTouched b).2.rdb R.TICK_STATUS_RUN = false := by rw [State.rdb, hrun]; rfl
  have hmod (g : TickState → TickState) (t : State) (f : Fld) : (modTick g t).rdb f = t.rdb f := rfl
  unfold tickEdge
  simp only [hnow, hfirst, hsettle, hbegin, hcommit, hwake, hobjects, hsource, hmod, hstop, Bool.false_and, Bool.or_false,
    Bool.false_eq_true, if_false, clapAfterEdge_clap, (QueueOnly.raiseEdges _ _).clap, modTick_clap]

/-- The late arm is gone after the edge, and no arm for the next edge has taken its place. -/
theorem tickEdge_lateArm : (tickEdge 0 lateArm).clap.armNext = false := by
  have hnow : (!lateArm.tick.geometryApplied || !edgeDue lateArm) = false := by decide +kernel
  obtain ⟨hclap, hrun⟩ := imgTickEdge_lateArm
  rw [reloadApplied_lateArm_clap] at hclap
  rw [reloadApplied_lateArm_run] at hrun
  rw [tickEdge_of_stopped hnow rfl settle_lateArm beginEdge_lateArm (commitSeal_of_none rfl rfl) (wakeAction_of_none rfl)
    commitObjects_lateArm tickSourceCommit_lateArm hrun, hclap]
  rfl

/-- Refutes O17: the reload of the edge writes CLAP_CTRL.DISCARD, which withdraws the late arm (R86, R225). -/
theorem not_tickEdge : ¬ Obligations.TickEdge := by
  unfold Obligations.TickEdge
  rintro ⟨hdue, -⟩
  have hready : edgeDue lateArm = true := by decide +kernel
  obtain ⟨t, hexec, -, -, harm⟩ := hdue lateArm 0 rfl hready
  rw [exec_of_wf (u := tickEdge 0 lateArm) rfl rfl] at hexec
  have hnext := harm rfl
  rw [← Host.Outcome.next.inj hexec, State.flushEvents_clap, tickEdge_lateArm] at hnext
  cases hnext

end Sys2Proof.Machine

/-!
PROOFS. The commands of a touch panel (chapter on touch): its scans (R478 to R480, R490), its self-test (R486) and its survey
(R487).
-/
namespace Sys2Proof.Machine

/-- The parts that a command of a panel changes. -/
abbrev panelParts : List Part := queueParts ++ [.touch]

/-! ### The bits of TCH_STATUS.SCANNING, one for each panel -/

theorem State.rd_lt (s : State) (f : Fld) : s.rd f < 2 ^ (f.hi + 1 - f.lo) := Nat.mod_lt _ (by positivity)

theorem bitOf_set : ∀ x < 16, ∀ p < 4, bitOf x p = false → bitOf ((x + 2 ^ p) % 16) p = true := by decide

theorem bitOf_set_other : ∀ (x : Fin 16) (p q : Fin 4), bitOf x p = false → q ≠ p →
    bitOf ((x + 2 ^ p.val) % 16) q = bitOf x q := by decide

theorem bitOf_clear : ∀ x < 16, ∀ p < 4, bitOf x p = true → bitOf ((x - 2 ^ p) % 16) p = false := by decide

/-- A value of SCANNING written is read back in its four bits. -/
theorem scanning_wr (s : State) (v : Nat) : (s.wr R.TCH_STATUS_SCANNING v).rd R.TCH_STATUS_SCANNING = v % 16 :=
  State.rd_wr s _ v (by decide)

theorem scanning_lt (s : State) : s.rd R.TCH_STATUS_SCANNING < 16 := State.rd_lt s R.TCH_STATUS_SCANNING

/-! ### What writes of fields and the queue leave of a panel -/

theorem QueueOnly.panel {s t : State} (h : QueueOnly s t) (p : Nat) : t.panel p = s.panel p := by
  unfold State.panel; rw [h.touch]

@[simp] theorem State.flushEvents_panel (s : State) (p : Nat) : s.flushEvents.panel p = s.panel p := (QueueOnly.flushEvents s).panel p
@[simp] theorem State.raiseOnce_panel (s : State) (c o p : Nat) : (s.raiseOnce c o).panel p = s.panel p :=
  (QueueOnly.raiseOnce s c o).panel p
@[simp] theorem State.wr_panel (s : State) (f : Fld) (v p : Nat) : (s.wr f v).panel p = s.panel p := rfl
@[simp] theorem State.wr_monoNs (s : State) (f : Fld) (v : Nat) : (s.wr f v).monoNs = s.monoNs := rfl
@[simp] theorem State.setPanel_monoNs (s : State) (p : Nat) (o : PanelState) : (s.setPanel p o).monoNs = s.monoNs := rfl

theorem QueueOnly.monoNs {s t : State} (h : QueueOnly s t) : t.monoNs = s.monoNs := by
  unfold State.monoNs State.nowNs; rw [show t.time = s.time from (congrArg State.time h.2 :)]

@[simp] theorem State.raiseOnce_monoNs (s : State) (c o : Nat) : (s.raiseOnce c o).monoNs = s.monoNs :=
  (QueueOnly.raiseOnce s c o).monoNs

@[simp] theorem startPulses_rd (p : Nat) (s : State) (f : Fld) : (startPulses p s).rd f = s.rd f := rfl
@[simp] theorem startPulses_panel (p : Nat) (s : State) :
    (startPulses p s).panel p = { s.panel p with pulses := 0, scanNs := s.monoNs } := by simp [startPulses]

theorem FieldsOnly.setPanel {l : List Fld} {s t : State} (h : FieldsOnly l s t) (p : Nat) (o : PanelState) :
    FieldsOnly l s (t.setPanel p o) := h.of_regs rfl

theorem FieldsOnly.startPulses {l : List Fld} {s t : State} (h : FieldsOnly l s t) (p : Nat) :
    FieldsOnly l s (startPulses p t) := h.setPanel _ _

theorem Closed.startPulses {K : List Part} {P : State → Prop} (h : Closed K P) (hk : .touch ∈ K) (p : Nat) (s : State)
    (hs : P s) : P (startPulses p s) := h.setPanel hk _ _ _ hs

/-- No register above EVQ is one of the event queue. -/
theorem queueOffset_above {a : Nat} (h : 0xC000 ≤ a) : queueOffset a = false := by
  simp only [queueOffset, Bool.or_eq_false_iff, Bool.and_eq_false_iff, decide_eq_false_iff_not]
  omega

theorem panelState_ok (p : Nat) : FldOk (R.TCH_PNL_STAT_STATE p) := by simp [FldOk, R.TCH_PNL_STAT_STATE]
theorem panelTestDone_ok (p : Nat) : FldOk (R.TCH_PNL_TEST_TEST_DONE p) := by simp [FldOk, R.TCH_PNL_TEST_TEST_DONE]

theorem panelProv_apart (p : Nat) : queueOffset (R.TCH_PNL_STAT_PROVISIONAL p).addr = false :=
  queueOffset_above (by simp only [R.TCH_PNL_STAT_PROVISIONAL]; omega)

theorem panelTestDone_apart (p : Nat) : queueOffset (R.TCH_PNL_TEST_TEST_DONE p).addr = false :=
  queueOffset_above (by simp only [R.TCH_PNL_TEST_TEST_DONE]; omega)

theorem panelAborted_apart (p : Nat) : queueOffset (R.TCH_PNL_TEST_ABORTED p).addr = false :=
  queueOffset_above (by simp only [R.TCH_PNL_TEST_ABORTED]; omega)

theorem panelState_apart (p : Nat) : queueOffset (R.TCH_PNL_STAT_STATE p).addr = false :=
  queueOffset_above (by simp only [R.TCH_PNL_STAT_STATE]; omega)

/-! ### A scan falls due -/

/-- The panel `p` of state `s` once its next scan has begun: its thresholds and its mode are those of now (R490). -/
def begunScan (s : State) (p : Nat) : PanelState :=
  { s.panel p with
    scanJ := (s.panel p).nextScan, nextScan := (s.panel p).nextScan + 1, lpSlot := lpSlot s p
    thr := (s.word (R.TCH_PNL_THR_TOUCH_THR p).addr).toNat, scanLow := s.rdb (R.TCH_PNL_CTRL_MODE p)
    pulses := 0, scanNs := s.monoNs }

theorem tchScanDue_of_not_due {s : State} {p : Nat} (h : scanFallsDue s p = false) : tchScanDue p s = s := by
  simp [tchScanDue, h]

/-- Whatever became of the scan before, a scan that falls due begins. -/
theorem tchScanDue_of_due {s : State} {p : Nat} (h : scanFallsDue s p = true) : ∃ u : State,
    u = (if bitOf (s.rd R.TCH_STATUS_SCANNING) p then
        (s.wr (R.TCH_PNL_STAT_LATE p) (satTo 16 (s.rd (R.TCH_PNL_STAT_LATE p) + 1))).raiseOnce 0x1703 p
      else s.wr R.TCH_STATUS_SCANNING (s.rd R.TCH_STATUS_SCANNING + 2 ^ p)) ∧
    ∃ o : PanelState, o = { begunScan u p with pulses := (u.panel p).pulses, scanNs := (u.panel p).scanNs } ∧
      tchScanDue p s = startPulses p (u.setPanel p o) := by
  rw [tchScanDue, if_pos h]
  exact ⟨_, rfl, _, rfl, rfl⟩

theorem tchScanDue_begins (s : State) (p : Nat) (hp : p < 4) (hdue : scanFallsDue s p = true)
    (hfree : bitOf (s.rd R.TCH_STATUS_SCANNING) p = false) : ∃ t, exec (.tchScanDue p) s = .next t ∧
      bitOf (t.rd R.TCH_STATUS_SCANNING) p = true ∧
      (∀ q, q < 4 → q ≠ p → bitOf (t.rd R.TCH_STATUS_SCANNING) q = bitOf (s.rd R.TCH_STATUS_SCANNING) q) ∧
      t.panel p = begunScan s p ∧ FieldsOnly [R.TCH_STATUS_SCANNING] s t ∧ ChangesOnly panelParts s t := by
  refine ⟨_, exec_of_wf (decide_eq_true hp) rfl, ?_⟩
  obtain ⟨u, hu, o, ho, heq⟩ := tchScanDue_of_due hdue
  rw [hfree, if_neg (by decide)] at hu
  have hset := bitOf_set _ (scanning_lt s) p hp hfree
  have hother (q : Nat) (hq : q < 4) (hne : q ≠ p) := bitOf_set_other
    ⟨_, scanning_lt s⟩ ⟨p, hp⟩ ⟨q, hq⟩ hfree (by simpa using hne)
  have hrd : (tchScanDue p s).flushEvents.rd R.TCH_STATUS_SCANNING = (s.rd R.TCH_STATUS_SCANNING + 2 ^ p) % 16 := by
    rw [State.flushEvents_rd _ _ (by decide), heq, startPulses_rd, State.setPanel_rd, hu, scanning_wr]
  have hbegun : begunScan u p = begunScan s p := by
    have hword : u.word (R.TCH_PNL_THR_TOUCH_THR p).addr = s.word (R.TCH_PNL_THR_TOUCH_THR p).addr := by
      rw [hu]; exact State.word_wr_ne _ _ _ _ (by simp [R.TCH_PNL_THR_TOUCH_THR, R.TCH_STATUS_SCANNING]; omega)
    have hlp : u.rd (R.TCH_PNL_CTRL_LP_HZ p) = s.rd (R.TCH_PNL_CTRL_LP_HZ p) := by
      rw [hu]; exact State.rd_wr_apart _ _ _ _ (by decide) (.inl (by simp [R.TCH_PNL_CTRL_LP_HZ, R.TCH_STATUS_SCANNING]; omega))
    have hmode : u.rd (R.TCH_PNL_CTRL_MODE p) = s.rd (R.TCH_PNL_CTRL_MODE p) := by
      rw [hu]; exact State.rd_wr_apart _ _ _ _ (by decide) (.inl (by simp [R.TCH_PNL_CTRL_MODE, R.TCH_STATUS_SCANNING]; omega))
    have hpanel : u.panel p = s.panel p := by rw [hu, State.wr_panel]
    have htime : u.time = s.time := by rw [hu, State.wr_time]
    simp only [begunScan, lpSlot, State.rdb, State.monoNs, State.nowNs, hword, hlp, hmode, hpanel, htime]
  refine ⟨by rw [hrd, hset], fun q hq hne => by rw [hrd, hother q hq hne], ?_, ?_, ?_⟩
  · rw [State.flushEvents_panel, heq, startPulses_panel, State.setPanel_panel, if_pos rfl, State.setPanel_monoNs, ho, ← hbegun]
    rfl
  · rw [heq, hu]
    exact ((((FieldsOnly.refl _ s).wr (by simp) (by decide) _).setPanel _ _).startPulses _).queue (.flushEvents _)
  · have hc := ChangesOnly.closed panelParts s
    rw [heq, hu]
    exact (hc.startPulses (by decide) _ _ (hc.setPanel (by decide) _ _ _ (hc.wr (by decide) _ _ _ (.refl _ s)))).queue
      (.flushEvents _) (by decide)

theorem tchScanDue_abandons (s : State) (p : Nat) (hp : p < 4) (hdue : scanFallsDue s p = true)
    (hscan : bitOf (s.rd R.TCH_STATUS_SCANNING) p = true) : ∃ t, exec (.tchScanDue p) s = .next t ∧
      t.rd (R.TCH_PNL_STAT_LATE p) = min (s.rd (R.TCH_PNL_STAT_LATE p) + 1) 65535 ∧
      (t.panel p).nextScan = (s.panel p).nextScan + 1 ∧ FieldsOnly [R.TCH_PNL_STAT_LATE p] s t ∧
      ChangesOnly panelParts s t := by
  refine ⟨_, exec_of_wf (decide_eq_true hp) rfl, ?_⟩
  obtain ⟨u, hu, o, ho, heq⟩ := tchScanDue_of_due hdue
  rw [if_pos hscan] at hu
  have hok : FldOk (R.TCH_PNL_STAT_LATE p) := by simp [FldOk, R.TCH_PNL_STAT_LATE]
  have hq : queueOffset (R.TCH_PNL_STAT_LATE p).addr = false := queueOffset_above (by simp only [R.TCH_PNL_STAT_LATE]; omega)
  refine ⟨?_, ?_, ?_, ?_⟩
  · rw [State.flushEvents_rd _ _ hq, heq, startPulses_rd, State.setPanel_rd, hu, State.raiseOnce_rd, State.rd_wr _ _ _ hok]
    have := State.rd_lt s (R.TCH_PNL_STAT_LATE p)
    simp only [R.TCH_PNL_STAT_LATE, satTo] at this ⊢
    omega
  · rw [State.flushEvents_panel, heq, startPulses_panel, State.setPanel_panel, if_pos rfl, ho]
    simp [begunScan, hu]
  · rw [heq, hu]
    exact (((((FieldsOnly.refl _ s).wr (by simp) hok _).queue (.raiseOnce _ _ _)).setPanel _ _).startPulses _).queue
      (.flushEvents _)
  · have hc := ChangesOnly.closed panelParts s
    rw [heq, hu]
    exact (hc.startPulses (by decide) _ _ (hc.setPanel (by decide) _ _ _
      ((hc.wr (by decide) _ _ _ (.refl _ s)).queue (.raiseOnce _ _ _) (by decide)))).queue (.flushEvents _) (by decide)

theorem tchScanDue_not_due (s : State) (p : Nat) (hp : p < 4) (h : scanFallsDue s p = false) :
    ∃ t, exec (.tchScanDue p) s = .next t ∧ FieldsOnly [] s t ∧ ChangesOnly queueParts s t := by
  refine ⟨_, exec_of_wf (decide_eq_true hp) rfl, ?_⟩
  rw [tchScanDue_of_not_due h]
  exact ⟨(FieldsOnly.refl _ s).queue (.flushEvents _), (QueueOnly.flushEvents s).same⟩

/-! ### A scan completes -/

/-- The states differ in the counts and the baselines of the nodes alone. -/
def NodesOnly (s t : State) : Prop := ∃ raw base, t = { s with touch := { s.touch with raw := raw, base := base } }

theorem NodesOnly.refl (s : State) : NodesOnly s s := ⟨_, _, rfl⟩

theorem NodesOnly.trans {s t u : State} (h : NodesOnly s t) (k : NodesOnly t u) : NodesOnly s u := by
  obtain ⟨_, _, rfl⟩ := h
  obtain ⟨_, _, rfl⟩ := k
  exact ⟨_, _, rfl⟩

theorem NodesOnly.setRawNode (s : State) (i v : Nat) : NodesOnly s (s.setRawNode i v) := ⟨_, _, rfl⟩
theorem NodesOnly.setBaseline (s : State) (i v : Nat) : NodesOnly s (s.setBaseline i v) := ⟨_, _, rfl⟩

theorem NodesOnly.foldl {α : Type} {f : State → α → State} (hf : ∀ t x, NodesOnly t (f t x)) (l : List α) (s : State) :
    NodesOnly s (l.foldl f s) := closed_foldl (P := NodesOnly s) (fun t x h => h.trans (hf t x)) (.refl s)

theorem NodesOnly.rd {s t : State} (h : NodesOnly s t) (f : Fld) : t.rd f = s.rd f := by obtain ⟨_, _, rfl⟩ := h; rfl
theorem NodesOnly.panel {s t : State} (h : NodesOnly s t) (p : Nat) : t.panel p = s.panel p := by obtain ⟨_, _, rfl⟩ := h; rfl
theorem NodesOnly.monoNs {s t : State} (h : NodesOnly s t) : t.monoNs = s.monoNs := by obtain ⟨_, _, rfl⟩ := h; rfl

theorem NodesOnly.changes {s t : State} (h : NodesOnly s t) : ChangesOnly panelParts s t := by
  obtain ⟨_, _, rfl⟩ := h
  exact (ChangesOnly.closed _ s).touch (by decide) _ _ (.refl _ s)

/-- A scan among the first four: its counts go into the baselines (R480), and the fourth one sets the panel scanning. -/
theorem tchScanDone_of_baseline {s : State} {p : Nat} (y : List (List (List Int)))
    (hscan : bitOf (s.rd R.TCH_STATUS_SCANNING) p = true) (hdone : scanNeeds s p ≤ scanPulses s p)
    (hbase : (s.panel p).baseScans < 4) :
    ∃ u, NodesOnly (s.wr R.TCH_STATUS_SCANNING (s.rd R.TCH_STATUS_SCANNING - 2 ^ p)) u ∧
      ∃ v, v = u.setPanel p { s.panel p with baseScans := (s.panel p).baseScans + 1, provNs := s.monoNs } ∧
      tchScanDone p y s = if (s.panel p).baseScans = 3 then
        (v.wr (R.TCH_PNL_STAT_STATE p) (if v.rdb (R.TCH_PNL_CTRL_MODE p) then 4 else 3)).wr (R.TCH_PNL_STAT_PROVISIONAL p) 1
      else v := by
  rw [tchScanDone, if_pos ⟨hscan, hdone⟩]
  extract_lets now s1 raws s2 st s3 s4
  have hraw : NodesOnly s1 s2 := .foldl (fun t x => .setRawNode _ _ _) raws s1
  have hnodes : NodesOnly s1 s3 := hraw.trans (.foldl (fun t x => .setBaseline _ _ _) raws s2)
  have hst : st = s.panel p := (hraw.panel p).trans (State.wr_panel _ _ _ _)
  have htime : s3.monoNs = s.monoNs := hnodes.monoNs.trans (State.wr_monoNs _ _ _)
  refine ⟨s3, hnodes, s4, by unfold s4; rw [hst, htime], ?_⟩
  rw [if_pos (hst ▸ hbase), hst]

theorem tchScanDone_early {s : State} {p : Nat} (y : List (List (List Int))) (h : scanPulses s p < scanNeeds s p) :
    tchScanDone p y s = s := by
  rw [tchScanDone, if_neg fun ⟨_, hdone⟩ => absurd hdone (by omega)]

theorem tchScanDone_baseline (s : State) (p : Nat) (y : List (List (List Int))) (hp : p < 4)
    (hscan : bitOf (s.rd R.TCH_STATUS_SCANNING) p = true) (hdone : scanNeeds s p ≤ scanPulses s p)
    (hbase : (s.panel p).baseScans < 3) : ∃ t, exec (.tchScanDone p y) s = .next t ∧
      bitOf (t.rd R.TCH_STATUS_SCANNING) p = false ∧
      t.panel p = { s.panel p with baseScans := (s.panel p).baseScans + 1, provNs := s.monoNs } ∧
      ChangesOnly panelParts s t := by
  refine ⟨_, exec_of_wf (decide_eq_true hp) rfl, ?_⟩
  obtain ⟨u, hu, v, rfl, heq⟩ := tchScanDone_of_baseline y hscan hdone (by omega)
  rw [if_neg (by omega)] at heq
  rw [heq]
  refine ⟨?_, by rw [State.flushEvents_panel, State.setPanel_panel, if_pos rfl], ?_⟩
  · rw [State.flushEvents_rd _ _ (by decide), State.setPanel_rd, hu.rd, scanning_wr]
    exact bitOf_clear _ (scanning_lt s) p hp hscan
  · have hc := ChangesOnly.closed panelParts s
    exact (hc.setPanel (by decide) _ _ _ ((hc.wr (by decide) _ _ _ (.refl _ s)).trans hu.changes)).queue (.flushEvents _)
      (by decide)

theorem tchScanDone_fourth (s : State) (p : Nat) (y : List (List (List Int))) (hp : p < 4)
    (hscan : bitOf (s.rd R.TCH_STATUS_SCANNING) p = true) (hdone : scanNeeds s p ≤ scanPulses s p)
    (hbase : (s.panel p).baseScans = 3) : ∃ t, exec (.tchScanDone p y) s = .next t ∧
      t.rd (R.TCH_PNL_STAT_STATE p) = (if s.rdb (R.TCH_PNL_CTRL_MODE p) then 4 else 3) ∧
      t.rdb (R.TCH_PNL_STAT_PROVISIONAL p) = true ∧ (t.panel p).baseScans = 4 ∧ ChangesOnly panelParts s t := by
  refine ⟨_, exec_of_wf (decide_eq_true hp) rfl, ?_⟩
  obtain ⟨u, hu, v, hv, heq⟩ := tchScanDone_of_baseline y hscan hdone (by omega)
  have hc := ChangesOnly.closed panelParts s
  have hmode : v.rdb (R.TCH_PNL_CTRL_MODE p) = s.rdb (R.TCH_PNL_CTRL_MODE p) := by
    unfold State.rdb
    rw [hv, State.setPanel_rd, hu.rd, State.rd_wr_apart _ _ _ _ (by decide)
      (.inl (by simp [R.TCH_PNL_CTRL_MODE, R.TCH_STATUS_SCANNING]; omega))]
  have hpanel : v.panel p = { s.panel p with baseScans := (s.panel p).baseScans + 1, provNs := s.monoNs } := by
    rw [hv, State.setPanel_panel, if_pos rfl]
  have hparts : ChangesOnly panelParts s v := by
    rw [hv]
    exact hc.setPanel (by decide) _ _ _ ((hc.wr (by decide) _ _ _ (.refl _ s)).trans hu.changes)
  have hprov : FldOk (R.TCH_PNL_STAT_PROVISIONAL p) := by simp [FldOk, R.TCH_PNL_STAT_PROVISIONAL]
  rw [if_pos hbase, hmode] at heq
  rw [heq]
  clear heq hv hu
  refine ⟨?_, ?_, ?_, ?_⟩
  · rw [State.flushEvents_rd _ _ (panelState_apart p), State.rd_wr_apart _ _ _ _ hprov
      (.inr (.inl (by simp [R.TCH_PNL_STAT_STATE, R.TCH_PNL_STAT_PROVISIONAL]))), State.rd_wr _ _ _ (panelState_ok p)]
    split <;> rfl
  · unfold State.rdb
    rw [State.flushEvents_rd _ _ (panelProv_apart p), State.rd_wr _ _ _ hprov]
    rfl
  · rw [State.flushEvents_panel, State.wr_panel, State.wr_panel, hpanel, hbase]
  · exact (hc.wr (by decide) _ _ _ (hc.wr (by decide) _ _ _ hparts)).queue (.flushEvents _) (by decide)

theorem tchScanDone_waits (s : State) (p : Nat) (y : List (List (List Int))) (hp : p < 4) (h : scanPulses s p < scanNeeds s p) :
    ∃ t, exec (.tchScanDone p y) s = .next t ∧ t.touch = s.touch ∧ FieldsOnly [] s t ∧ ChangesOnly queueParts s t := by
  refine ⟨_, exec_of_wf (decide_eq_true hp) rfl, ?_⟩
  rw [tchScanDone_early y h]
  exact ⟨State.flushEvents_touch s, (FieldsOnly.refl _ s).queue (.flushEvents _), (QueueOnly.flushEvents s).same⟩

/-! ### The self-test and the survey -/

theorem tchTest_begins (s : State) (p : Nat) (hp : p < 4) (hpow : s.powered 6 = true) (hcount : (s.panel p).count ≠ 0)
    (hoff : s.rd (R.TCH_PNL_CTRL_ENABLE p) = 0) (hidle : s.rd (R.TCH_PNL_STAT_STATE p) = 0) :
    ∃ t, exec (.tchTest p) s = .next t ∧ t.rd (R.TCH_PNL_STAT_STATE p) = 5 ∧ t.rdb (R.TCH_PNL_TEST_TEST_DONE p) = false ∧
      t.rdb (R.TCH_PNL_TEST_ABORTED p) = false ∧ t.panel p = { s.panel p with pulses := 0, scanNs := s.monoNs } ∧
      FieldsOnly [R.TCH_PNL_STAT_STATE p, R.TCH_PNL_TEST_TEST_DONE p, R.TCH_PNL_TEST_ABORTED p] s t ∧
      ChangesOnly panelParts s t := by
  refine ⟨_, exec_of_wf (decide_eq_true hp) rfl, ?_⟩
  rw [tchTest, if_pos ⟨hpow, hcount, hoff, hidle⟩]
  have habort : FldOk (R.TCH_PNL_TEST_ABORTED p) := by simp [FldOk, R.TCH_PNL_TEST_ABORTED]
  have hda : FldApart (R.TCH_PNL_TEST_ABORTED p) (R.TCH_PNL_TEST_TEST_DONE p) :=
    .inr (.inl (by simp [R.TCH_PNL_TEST_ABORTED, R.TCH_PNL_TEST_TEST_DONE]))
  have hsd : FldApart (R.TCH_PNL_STAT_STATE p) (R.TCH_PNL_TEST_TEST_DONE p) :=
    .inl (by simp [R.TCH_PNL_STAT_STATE, R.TCH_PNL_TEST_TEST_DONE])
  have hsa : FldApart (R.TCH_PNL_STAT_STATE p) (R.TCH_PNL_TEST_ABORTED p) :=
    .inl (by simp [R.TCH_PNL_STAT_STATE, R.TCH_PNL_TEST_ABORTED])
  refine ⟨?_, ?_, ?_, ?_, ?_, ?_⟩
  · rw [State.flushEvents_rd _ _ (panelState_apart p), startPulses_rd, State.rd_wr _ _ _ (panelState_ok p)]
    rfl
  · unfold State.rdb
    rw [State.flushEvents_rd _ _ (panelTestDone_apart p), startPulses_rd, State.rd_wr_apart _ _ _ _ (panelState_ok p) hsd,
      State.rd_wr_apart _ _ _ _ habort hda, State.rd_wr _ _ _ (panelTestDone_ok p)]
    rfl
  · unfold State.rdb
    rw [State.flushEvents_rd _ _ (panelAborted_apart p), startPulses_rd, State.rd_wr_apart _ _ _ _ (panelState_ok p) hsa,
      State.rd_wr _ _ _ habort]
    rfl
  · rw [State.flushEvents_panel, startPulses_panel, State.wr_panel, State.wr_panel, State.wr_panel, State.wr_monoNs,
      State.wr_monoNs, State.wr_monoNs]
  · exact (((((FieldsOnly.refl _ s).wr (by simp) (panelTestDone_ok p) _).wr (by simp) habort _).wr (by simp) (panelState_ok p) _).startPulses
      _).queue (.flushEvents _)
  · have hc := ChangesOnly.closed panelParts s
    exact (hc.startPulses (by decide) _ _ (hc.wr (by decide) _ _ _ (hc.wr (by decide) _ _ _ (hc.wr (by decide) _ _ _
      (.refl _ s))))).queue (.flushEvents _) (by decide)

/-- The findings of a self-test: every one is a bit of a line register, and its end is TEST_DONE with the panel idle. -/
theorem tchTestDone_of_done {s : State} {p : Nat} (y : List (List (List Int))) (single : List (List (List Nat)))
    (htest : s.rd (R.TCH_PNL_STAT_STATE p) = 5) (hdone : 2 * scanNeeds s p ≤ scanPulses s p) :
    ∃ u v, ChangesOnly queueParts s u ∧ QueueOnly ((u.wr (R.TCH_PNL_TEST_TEST_DONE p) 1).wr (R.TCH_PNL_STAT_STATE p) 0) v ∧
      tchTestDone p y single s = v := by
  have hc := ChangesOnly.closed queueParts s
  rw [tchTestDone, if_pos ⟨htest, hdone⟩]
  extract_lets lines chans om sm raw n lineOpen chanOpen shorted chanShort reads lineShort s1 s2 bad s3
  have hbits (f g : Nat → Fld) (i : Nat) (v w : Bool) (t : State) (h : ChangesOnly queueParts s t) :
      ChangesOnly queueParts s (setLineBit f i v (setLineBit g i w t)) := by
    unfold setLineBit
    exact hc.wr (by decide) _ _ _ (hc.wr (by decide) _ _ _ h)
  have h1 : ChangesOnly queueParts s s1 := closed_foldl (fun t x h => hbits _ _ _ _ _ t h) (.refl _ s)
  have h2 : ChangesOnly queueParts s s2 := closed_foldl (fun t x h => hbits _ _ _ _ _ t h) h1
  exact ⟨s2, _, h2, .ite (.raise _ _ _) (.refl _), rfl⟩

theorem tchTestDone_ends (s : State) (p : Nat) (y : List (List (List Int))) (single : List (List (List Nat))) (hp : p < 4)
    (htest : s.rd (R.TCH_PNL_STAT_STATE p) = 5) (hdone : 2 * scanNeeds s p ≤ scanPulses s p) :
    ∃ t, exec (.tchTestDone p y single) s = .next t ∧ t.rd (R.TCH_PNL_STAT_STATE p) = 0 ∧
      t.rdb (R.TCH_PNL_TEST_TEST_DONE p) = true ∧ ChangesOnly queueParts s t := by
  refine ⟨_, exec_of_wf (decide_eq_true hp) rfl, ?_⟩
  obtain ⟨u, v, hu, hv, heq⟩ := tchTestDone_of_done y single htest hdone
  rw [heq]
  have hv' := hv.trans (.flushEvents v)
  refine ⟨?_, ?_, ?_⟩
  · rw [hv'.rd _ (panelState_apart p), State.rd_wr _ _ _ (panelState_ok p)]
    rfl
  · unfold State.rdb
    rw [hv'.rd _ (panelTestDone_apart p), State.rd_wr_apart _ _ _ _ (panelState_ok p)
      (.inl (by simp [R.TCH_PNL_STAT_STATE, R.TCH_PNL_TEST_TEST_DONE])), State.rd_wr _ _ _ (panelTestDone_ok p)]
    rfl
  · have hc := ChangesOnly.closed queueParts s
    exact (hc.wr (by decide) _ _ _ (hc.wr (by decide) _ _ _ hu)).queue hv' (by decide)

theorem tchSurvey_begins (s : State) (p : Nat) (hp : p < 4) (hpow : s.powered 6 = true) (hcount : (s.panel p).count ≠ 0)
    (hoff : s.rd (R.TCH_PNL_CTRL_ENABLE p) = 0) (hidle : s.rd (R.TCH_PNL_STAT_STATE p) = 0) :
    ∃ t, exec (.tchSurvey p) s = .next t ∧ t.rd (R.TCH_PNL_STAT_STATE p) = 1 ∧ FieldsOnly [R.TCH_PNL_STAT_STATE p] s t ∧
      ChangesOnly queueParts s t := by
  refine ⟨_, exec_of_wf (decide_eq_true hp) rfl, ?_⟩
  rw [tchSurvey, if_pos ⟨hpow, hcount, hoff, hidle⟩]
  refine ⟨?_, ?_, ?_⟩
  · rw [State.flushEvents_rd _ _ (panelState_apart p), State.rd_wr _ _ _ (panelState_ok p)]
    rfl
  · exact ((FieldsOnly.refl _ s).wr (by simp) (panelState_ok p) _).queue (.flushEvents _)
  · exact ((ChangesOnly.closed queueParts s).wr (by decide) _ _ _ (.refl _ s)).queue (.flushEvents _) (by decide)

/-- What a survey finds for an overlay stands in the overlay's own registers. -/
theorem surveyOverlay_fields (p : Nat) (drive caps : List Nat) (s : State) (o : Nat) :
    FieldsOnly [R.TCH_OVL_SURVEY_IDENT o, R.TCH_OVL_SURVEY_SENSE_PF10 o, R.TCH_OVL_SURVEY_DRIVE_PF10 o, R.TCH_OVL_STAT_STATE o] s
      (surveyOverlay p drive caps s o) := by
  unfold surveyOverlay
  extract_lets sense want ok ident s1
  have h1 : FieldsOnly [R.TCH_OVL_SURVEY_IDENT o, R.TCH_OVL_SURVEY_SENSE_PF10 o, R.TCH_OVL_SURVEY_DRIVE_PF10 o,
      R.TCH_OVL_STAT_STATE o] s s1 :=
    (((FieldsOnly.refl _ s).wr (by simp) (by simp [FldOk, R.TCH_OVL_SURVEY_IDENT]) _).wr (by simp)
      (by simp [FldOk, R.TCH_OVL_SURVEY_SENSE_PF10]) _).wr (by simp) (by simp [FldOk, R.TCH_OVL_SURVEY_DRIVE_PF10]) _
  have h2 (v : Nat) := h1.wr (f := R.TCH_OVL_STAT_STATE o) (by simp) (by simp [FldOk, R.TCH_OVL_STAT_STATE]) v
  exact closed_ite (h2 1) ((h2 2).queue (.raise _ _ _))

theorem Closed.surveyOverlay {K : List Part} {P : State → Prop} (h : Closed K P) (hr : .regs ∈ K) (he : .evq ∈ K) (p : Nat)
    (drive caps : List Nat) (s : State) (o : Nat) (hs : P s) : P (surveyOverlay p drive caps s o) := by
  unfold Machine.surveyOverlay
  extract_lets sense want ok ident s1
  have h1 : P s1 := h.wr hr _ _ _ (h.wr hr _ _ _ (h.wr hr _ _ _ hs))
  exact closed_ite (h.wr hr _ _ _ h1) (h.raise he _ _ _ (h.wr hr _ _ _ h1))

/-- The overlays' findings leave the panel's ENABLE and its hidden state. -/
theorem surveyOverlays_keep (p : Nat) (drive caps : List Nat) (s : State) (hp : p < 4) (os : List Nat) :
    (os.foldl (surveyOverlay p drive caps) s).rd (R.TCH_PNL_CTRL_ENABLE p) = s.rd (R.TCH_PNL_CTRL_ENABLE p) ∧
      ChangesOnly queueParts s (os.foldl (surveyOverlay p drive caps) s) := by
  refine closed_foldl (P := fun u => u.rd (R.TCH_PNL_CTRL_ENABLE p) = s.rd (R.TCH_PNL_CTRL_ENABLE p) ∧ ChangesOnly queueParts s u)
    (fun t o ⟨hen, hparts⟩ => ⟨?_, ?_⟩) ⟨rfl, .refl _ s⟩
  · rw [← hen]
    refine surveyOverlay_fields p drive caps t o _ (fun f hf => .inl ?_)
      (queueOffset_above (by simp only [R.TCH_PNL_CTRL_ENABLE]; omega))
    simp only [List.mem_cons, List.not_mem_nil, or_false] at hf
    rcases hf with rfl | rfl | rfl | rfl <;>
      simp [R.TCH_PNL_CTRL_ENABLE, R.TCH_OVL_SURVEY_IDENT, R.TCH_OVL_SURVEY_SENSE_PF10, R.TCH_OVL_SURVEY_DRIVE_PF10,
        R.TCH_OVL_STAT_STATE] <;> omega
  · exact (ChangesOnly.closed queueParts s).surveyOverlay (by decide) (by decide) p drive caps t o hparts

/-- A survey that completes: the overlays' findings, then the panel goes on to its baseline if it is enabled, else it is idle. -/
theorem tchSurveyDone_of_survey {s : State} {p : Nat} (drive caps : List Nat) (hp : p < 4)
    (hsurvey : s.rd (R.TCH_PNL_STAT_STATE p) = 1) : ∃ u, ChangesOnly queueParts s u ∧
      tchSurveyDone p drive caps s = if s.rdb (R.TCH_PNL_CTRL_ENABLE p) then
        (u.wr (R.TCH_PNL_STAT_STATE p) 2).setPanel p { s.panel p with baseScans := 0 }
      else u.wr (R.TCH_PNL_STAT_STATE p) 0 := by
  obtain ⟨hen, hparts⟩ := surveyOverlays_keep p drive caps s hp (panelOverlays s p)
  generalize hu : (panelOverlays s p).foldl (surveyOverlay p drive caps) s = u at hen hparts
  have hpanel : u.panel p = s.panel p := by
    unfold State.panel
    rw [show u.touch = s.touch from hparts .touch (by decide)]
  have henb : u.rdb (R.TCH_PNL_CTRL_ENABLE p) = s.rdb (R.TCH_PNL_CTRL_ENABLE p) := by rw [State.rdb, State.rdb, hen]
  refine ⟨u, hparts, ?_⟩
  rw [tchSurveyDone, if_pos hsurvey, hu]
  dsimp only
  rw [henb, hpanel]

theorem tchSurveyDone_enabled (s : State) (p : Nat) (drive caps : List Nat) (hp : p < 4)
    (hsurvey : s.rd (R.TCH_PNL_STAT_STATE p) = 1) (hen : s.rdb (R.TCH_PNL_CTRL_ENABLE p) = true) :
    ∃ t, exec (.tchSurveyDone p drive caps) s = .next t ∧ t.rd (R.TCH_PNL_STAT_STATE p) = 2 ∧
      t.panel p = { s.panel p with baseScans := 0 } ∧ ChangesOnly panelParts s t := by
  refine ⟨_, exec_of_wf (decide_eq_true hp) rfl, ?_⟩
  obtain ⟨u, hu, heq⟩ := tchSurveyDone_of_survey drive caps hp hsurvey
  rw [heq, if_pos hen]
  refine ⟨?_, by rw [State.flushEvents_panel, State.setPanel_panel, if_pos rfl], ?_⟩
  · rw [State.flushEvents_rd _ _ (panelState_apart p), State.setPanel_rd, State.rd_wr _ _ _ (panelState_ok p)]
    rfl
  · have hc := ChangesOnly.closed panelParts s
    exact (hc.setPanel (by decide) _ _ _ (hc.wr (by decide) _ _ _ (hu.mono (by decide)))).queue (.flushEvents _) (by decide)

theorem tchSurveyDone_disabled (s : State) (p : Nat) (drive caps : List Nat) (hp : p < 4)
    (hsurvey : s.rd (R.TCH_PNL_STAT_STATE p) = 1) (hen : s.rdb (R.TCH_PNL_CTRL_ENABLE p) = false) :
    ∃ t, exec (.tchSurveyDone p drive caps) s = .next t ∧ t.rd (R.TCH_PNL_STAT_STATE p) = 0 ∧ ChangesOnly queueParts s t := by
  refine ⟨_, exec_of_wf (decide_eq_true hp) rfl, ?_⟩
  obtain ⟨u, hu, heq⟩ := tchSurveyDone_of_survey drive caps hp hsurvey
  rw [heq, if_neg (by simp [hen])]
  refine ⟨?_, ?_⟩
  · rw [State.flushEvents_rd _ _ (panelState_apart p), State.rd_wr _ _ _ (panelState_ok p)]
    rfl
  · exact ((ChangesOnly.closed queueParts s).wr (by decide) _ _ _ hu).queue (.flushEvents _) (by decide)

/-- Settles O52, command by command. -/
theorem touchCommands : Obligations.TouchCommands := by
  unfold Obligations.TouchCommands
  exact ⟨tchScanDue_begins, tchScanDue_abandons, tchScanDue_not_due, tchScanDone_baseline, tchScanDone_fourth, tchScanDone_waits,
    tchTest_begins, tchTestDone_ends, tchSurvey_begins, tchSurveyDone_enabled, tchSurveyDone_disabled⟩

end Sys2Proof.Machine

/-!
PROOFS. The start of a frame and a direct underrun (R34, R120, R146, R199). A flue with one frame under way keeps that frame
through all that a start and an underrun do besides: the completion of frames, the revision of tiles, decisions of votes and the
held copy.
-/
namespace Sys2Proof.Machine

/-! ### A flue with one frame -/

/-- Flue `f` has one frame under way, and `G` holds of it. -/
def OneFrame (f : Nat) (G : FrameRun → Prop) (s : State) : Prop := ∃ q, (s.flue f).frames = [q] ∧ G q

/-- A property of a frame that rests on its serial number, on whether it has started or was underrun, and on its members. -/
def RestsOnStart (G : FrameRun → Prop) : Prop :=
  ∀ q q' : FrameRun, q'.serial = q.serial → q'.started = q.started → q'.underrun = q.underrun → q'.members = q.members → G q → G q'

@[simp] theorem modFrame_flue (f serial : Nat) (g : FrameRun → FrameRun) (s : State) : (modFrame f serial g s).flue f =
    { s.flue f with frames := (s.flue f).frames.map fun r => if r.serial = serial then g r else r } := by simp [modFrame]

section
variable {f : Nat} {G H : FrameRun → Prop} {s t : State}

theorem OneFrame.of_flue (h : OneFrame f G s) (ht : t.flue f = s.flue f) : OneFrame f G t := by
  unfold OneFrame; rw [ht]; exact h

theorem OneFrame.of_comp (h : OneFrame f G s) (ht : t.comp = s.comp) : OneFrame f G t :=
  h.of_flue (by unfold State.flue; rw [ht])

theorem OneFrame.wr (h : OneFrame f G s) (x : Fld) (v : Nat) : OneFrame f G (s.wr x v) := h.of_comp (State.wr_comp _ _ _)

theorem OneFrame.setFlue (h : OneFrame f G s) (o : FlueState) (ho : o.frames = (s.flue f).frames) :
    OneFrame f G (s.setFlue f o) := by
  obtain ⟨q, hq, hG⟩ := h
  exact ⟨q, by rw [State.setFlue_flue, if_pos rfl, ho, hq], hG⟩

theorem OneFrame.modFrame (h : OneFrame f G s) (serial : Nat) {g : FrameRun → FrameRun} (hg : ∀ q, G q → G (g q)) :
    OneFrame f G (modFrame f serial g s) := by
  obtain ⟨q, hq, hG⟩ := h
  refine ⟨if q.serial = serial then g q else q, by rw [modFrame_flue, hq]; rfl, ?_⟩
  split
  · exact hg q hG
  · exact hG

/-- A change of the frame itself. -/
theorem OneFrame.modFrame_same (h : OneFrame f G s) {serial : Nat} {g : FrameRun → FrameRun} (hs : ∀ q, G q → q.serial = serial)
    (hg : ∀ q, G q → H (g q)) : OneFrame f H (Machine.modFrame f serial g s) := by
  obtain ⟨q, hq, hG⟩ := h
  exact ⟨g q, by rw [modFrame_flue, hq]; simp [hs q hG], hg q hG⟩

theorem OneFrame.frameOf (h : OneFrame f G s) {serial : Nat} (hs : ∀ q, G q → q.serial = serial) :
    ∃ q, frameOf s f serial = some q ∧ G q := by
  obtain ⟨q, hq, hG⟩ := h
  exact ⟨q, by simp [Machine.frameOf, hq, hs q hG], hG⟩

end

/-! ### Frames complete -/

/-- `P` survives all that the completion of a frame of flue `f` does: writes of registers other than WDN_STATUS, events, the
records of encode reels, of panels and of sources, and the mark on the frame. -/
structure CompletionKeeps (f : Nat) (P : State → Prop) : Prop where
  wr : ∀ (s : State) (x : Fld) (v : Nat), FldOk x → x.addr ≠ R.WDN_STATUS_PKG_FAULT.addr → P s → P (s.wr x v)
  raiseOnce : ∀ (s : State) (c o : Nat), P s → P (s.raiseOnce c o)
  setEnc : ∀ (s : State) (e : Nat) (o : EncState), P s → P (s.setEnc e o)
  setPanel : ∀ (s : State) (p : Nat) (o : PanelState), P s → P (s.setPanel p o)
  setSource : ∀ (s : State) (k : Nat) (o : SourceState), P s → P (s.setSource k o)
  complete : ∀ (s : State) (serial : Nat), P s → P (modFrame f serial (fun r => { r with complete := true }) s)

theorem OneFrame.completion (f : Nat) {G : FrameRun → Prop} (hG : ∀ q, G q → G { q with complete := true }) :
    CompletionKeeps f (OneFrame f G) where
  wr _ _ _ _ _ h := h.wr _ _
  raiseOnce _ _ _ h := h.of_comp (State.raiseOnce_comp _ _ _)
  setEnc _ _ _ h := h.of_comp rfl
  setPanel _ _ _ h := h.of_comp rfl
  setSource _ _ _ h := h.of_flue rfl
  complete _ serial h := h.modFrame serial hG

theorem dark_completion (f : Nat) (d : Bool) : CompletionKeeps f fun s => (s.flue f).dark = d where
  wr _ _ _ _ _ h := h
  raiseOnce s c o h := by unfold State.flue at h ⊢; rw [State.raiseOnce_comp]; exact h
  setEnc _ _ _ h := h
  setPanel _ _ _ h := h
  setSource _ _ _ h := h
  complete _ _ h := by rw [modFrame_flue]; exact h

theorem pkgFault_completion (f n : Nat) : CompletionKeeps f fun s => s.rd R.WDN_STATUS_PKG_FAULT = n where
  wr s x v hok hx h := (State.rd_wr_apart s x _ v hok (.inl hx)).trans h
  raiseOnce _ _ _ h := (State.raiseOnce_rd _ _ _ _).trans h
  setEnc _ _ _ h := h
  setPanel _ _ _ h := h
  setSource _ _ _ h := h
  complete _ _ h := h

theorem monoNs_completion (f n : Nat) : CompletionKeeps f fun s => s.monoNs = n where
  wr _ _ _ _ _ h := h
  raiseOnce _ _ _ h := (State.raiseOnce_monoNs _ _ _).trans h
  setEnc _ _ _ h := h
  setPanel _ _ _ h := h
  setSource _ _ _ h := h
  complete _ _ h := h

section
variable {f : Nat} {P : State → Prop} (hP : CompletionKeeps f P)
include hP

theorem CompletionKeeps.encReady (at_ : Nat) (r : FrameRun) (s : State) (hs : P s) : P (encReady at_ f r s) := by
  refine closed_foldl (fun t e ht => ?_) hs
  extract_lets st
  split
  · exact ht
  next d _ =>
  refine closed_ite ?_ ht
  extract_lets st'
  refine closed_ite ?_ (closed_ite ?_ ?_)
  · exact hP.wr _ _ _ (by decide) (by decide) (hP.setEnc _ _ _ ht)
  · exact hP.raiseOnce _ _ _ (hP.wr _ _ _ (by simp [FldOk, R.ENC_FRAMES_SKIPPED])
      (by simp only [R.ENC_FRAMES_SKIPPED, R.WDN_STATUS_PKG_FAULT]; omega) (hP.setEnc _ _ _ ht))
  · exact hP.setEnc _ _ _ ht

theorem CompletionKeeps.completeSourceAt (at_ k : Nat) (fr : Frame) (s : State) (hs : P s) : P (completeSourceAt at_ k fr s) :=
  hP.setSource _ _ _ hs

theorem CompletionKeeps.completeAt (at_ serial : Nat) (s : State) (hs : P s) : P (completeAt at_ f serial s) := by
  unfold Machine.completeAt
  split
  · exact hs
  next r _ =>
  extract_lets s1 s2
  have h1 : P s1 := hP.complete _ _ hs
  refine hP.encReady _ _ _ ?_
  unfold s2
  split
  · exact h1
  · exact hP.wr _ _ _ (by simp [FldOk, R.CMP_FLUE_HELD_IDX_WRITING])
      (by simp only [R.CMP_FLUE_HELD_IDX_WRITING, R.WDN_STATUS_PKG_FAULT]; omega)
      (hP.wr _ _ _ (by simp [FldOk, R.CMP_FLUE_HELD_IDX_NEWEST])
        (by simp only [R.CMP_FLUE_HELD_IDX_NEWEST, R.WDN_STATUS_PKG_FAULT]; omega) (hP.completeSourceAt _ _ _ _ h1))

theorem CompletionKeeps.completeFrame (serial : Nat) (s : State) (hs : P s) : P (completeFrame f serial s) := by
  unfold Machine.completeFrame
  split
  · exact hs
  · exact closed_ite (hP.completeAt _ _ _ hs) hs

theorem CompletionKeeps.settleFrames (s : State) (hs : P s) : P (settleFrames f s) :=
  closed_foldl (fun _ _ ht => closed_ite (hP.completeAt _ _ _ ht) ht) hs

theorem CompletionKeeps.settleScans (s : State) (hs : P s) : P (settleScans f s) := by
  refine closed_foldl (fun t p ht => closed_when (fun ht => ?_) ht) hs
  exact closed_ite ht (hP.setPanel _ _ _ ht)

theorem CompletionKeeps.encFrameStart (serial : Nat) (s : State) (hs : P s) : P (encFrameStart f serial s) :=
  closed_foldl (fun _ _ ht => closed_ite (hP.setEnc _ _ _ ht) ht) hs

theorem CompletionKeeps.clearChecked (r : FrameRun) (s : State) (hs : P s) : P (clearChecked f r s) :=
  closed_foldl (fun _ _ ht => closed_ite (hP.wr _ _ _ (by simp [FldOk, R.CRT_EXP_STAT_CHECKED])
    (by simp only [R.CRT_EXP_STAT_CHECKED, R.WDN_STATUS_PKG_FAULT]; omega) ht) ht) hs

end

/-! ### The frame before it starts -/

/-- The frame `r`, completed or not. -/
def UpToComplete (r q : FrameRun) : Prop := ∃ b, q = { r with complete := b }

theorem UpToComplete.serial {r q : FrameRun} (h : UpToComplete r q) : q.serial = r.serial := by obtain ⟨_, rfl⟩ := h; rfl
theorem UpToComplete.endNs {r q : FrameRun} (h : UpToComplete r q) : q.endNs = r.endNs := by obtain ⟨_, rfl⟩ := h; rfl

/-- `s` and `u` agree on whether a frame of flue `f` is dark, and `u` has frame `r` alone. -/
structure AtStart (f : Nat) (r : FrameRun) (s u : State) : Prop where
  frame : OneFrame f (UpToComplete r) u
  dark : (u.flue f).dark = (s.flue f).dark
  pkgFault : u.rd R.WDN_STATUS_PKG_FAULT = s.rd R.WDN_STATUS_PKG_FAULT
  monoNs : u.monoNs = s.monoNs

theorem AtStart.refl {f : Nat} {r : FrameRun} {s : State} (h : (s.flue f).frames = [r]) : AtStart f r s s :=
  ⟨⟨r, h, r.complete, rfl⟩, rfl, rfl, rfl⟩

theorem AtStart.keep {f : Nat} {r : FrameRun} {s u v : State} (h : AtStart f r s u)
    (hv : ∀ P : State → Prop, CompletionKeeps f P → P u → P v) : AtStart f r s v where
  frame := hv _ (OneFrame.completion f fun q ⟨_, hq⟩ => ⟨true, by rw [hq]⟩) h.frame
  dark := hv _ (dark_completion f _) h.dark
  pkgFault := hv _ (pkgFault_completion f _) h.pkgFault
  monoNs := hv _ (monoNs_completion f _) h.monoNs

theorem AtStart.frameDark {f : Nat} {r : FrameRun} {s u : State} (h : AtStart f r s u) : frameDark u f r = frameDark s f r := by
  unfold Machine.frameDark State.rdb; rw [h.dark, h.pkgFault]

/-- A frame that is still to be scanned out stays when the frames that have been are retired. -/
theorem AtStart.retireFrames {f : Nat} {r : FrameRun} {s u : State} (h : AtStart f r s u) (hend : s.monoNs < r.endNs) :
    AtStart f r s (retireFrames f u) := by
  have hset : AtStart f r s (settleScans f (settleFrames f u)) :=
    h.keep fun _ hP hu => hP.settleScans _ (hP.settleFrames _ hu)
  unfold Machine.retireFrames
  extract_lets w gone p w'
  have hw : AtStart f r s w := hset
  clear_value w
  obtain ⟨q, hq, hqr⟩ := hw.frame
  have hgone : gone = [] := by
    unfold gone
    rw [hq]
    simp [hqr.endNs, hw.monoNs, hend]
  have hw' : w' = w := by unfold w'; rw [hgone]; rfl
  rw [hw']
  have hkept : (pruneFrames f w).flue f = { w.flue f with failPrev := (w.flue f).failPrev } := by
    simp [pruneFrames, hq, hqr.endNs, hw.monoNs, hend]
  exact ⟨⟨q, by rw [hkept, hq], hqr⟩, by rw [hkept]; exact hw.dark, hw.pkgFault, hw.monoNs⟩

/-- The state in which a frame starts: the frames before it retired, its encode reels told, its comparisons to begin again. -/
theorem atStart_frameStart {f : Nat} {r : FrameRun} {s : State} (h : (s.flue f).frames = [r]) (hend : s.monoNs < r.endNs) :
    AtStart f r s (clearChecked f r (encFrameStart f r.serial (retireFrames f s))) :=
  ((AtStart.refl h).retireFrames hend).keep fun _ hP hu => hP.clearChecked _ _ (hP.encFrameStart _ _ hu)

/-! ### What a frame keeps while its tiles are revised and decided -/

theorem writeEntry_comp (i gen : Nat) (e : TileEval) (badge : Bool) (s : State) : (writeEntry i gen e badge none s).comp = s.comp := by
  unfold writeEntry
  refine closed_ite (P := fun u => u.comp = s.comp) ?_ ?_
  · rw [State.wr_comp, State.wr_comp, State.wr_comp, State.wr_comp]
  · dsimp only
    rw [State.wr_comp, State.wr_comp, State.wr_comp]

theorem countStates_comp (sh : Sheet) (f : Nat) (s : State) : (countStates sh f s).comp = s.comp := by
  unfold countStates
  extract_lets n
  clear_value n
  rw [State.wr_comp, State.wr_comp, State.wr_comp, State.wr_comp]

theorem writeHeld_comp (sh : Sheet) (f b t : Nat) (h : HeldWord) (s : State) : (writeHeld sh f b t h s).comp = s.comp := rfl

theorem storeTile_comp (sh : Sheet) (f b t : Nat) (px : List Nat) (s : State) : (storeTile sh f b t px s).comp = s.comp :=
  closed_foldl (P := fun u => u.comp = s.comp) (fun _ _ hu => hu) rfl

@[simp] theorem State.wr_flue (s : State) (x : Fld) (v f : Nat) : (s.wr x v).flue f = s.flue f := by
  unfold State.flue; rw [State.wr_comp]

theorem refreshWdn_flue (f : Nat) (s : State) : (refreshWdn s).flue f = s.flue f := by
  rw [refreshWdn, State.wr_flue, State.wr_flue]

theorem setRecState_flue (i st f : Nat) (s : State) : (setRecState i st s).flue f = s.flue f := by
  unfold setRecState
  extract_lets s1 o s2
  have h1 : s1.flue f = s.flue f := State.wr_flue _ _ _ _
  have h2 : s2.flue f = s1.flue f := closed_when (P := fun u => u.flue f = s1.flue f) (fun hu => hu) rfl
  clear_value s2
  exact (refreshWdn_flue f _).trans (h2.trans h1)

theorem restoreRect_flue (n f : Nat) (s : State) : (restoreRect n s).flue f = s.flue f := by
  unfold restoreRect
  extract_lets o s1
  refine closed_ite (P := fun u => u.flue f = s.flue f) ?_ rfl
  split
  · exact setRecState_flue _ _ _ _
  · rfl

section
variable {f : Nat} {G : FrameRun → Prop} (hG : RestsOnStart G)
include hG

theorem OneFrame.modBand (serial k : Nat) (g : BandRun → BandRun) {s : State} (h : OneFrame f G s) :
    OneFrame f G (modBand f serial k g s) := h.modFrame _ fun q hq => hG q _ rfl rfl rfl rfl hq

theorem OneFrame.setVote (serial t : Nat) (v : TileVote) {s : State} (h : OneFrame f G s) : OneFrame f G (setVote f serial t v s) :=
  h.modFrame _ fun q hq => hG q _ rfl rfl rfl rfl hq

theorem OneFrame.reviseTile (serial t : Nat) (ctx : TileCtx) {s : State} (h : OneFrame f G s) :
    OneFrame f G (reviseTile f serial t ctx s) := by
  unfold Machine.reviseTile
  split
  · exact h
  extract_lets e badge s1
  have h1 : OneFrame f G s1 := h.modFrame serial fun q hq => hG q _ rfl rfl rfl rfl hq
  exact h1.of_comp (writeEntry_comp _ _ _ _ _)

theorem OneFrame.writeSig (serial t sig : Nat) {s : State} (h : OneFrame f G s) : OneFrame f G (writeSig f serial t sig s) := by
  unfold Machine.writeSig
  split
  · exact h
  · refine closed_ite h (OneFrame.wr ?_ _ _)
    exact h.modFrame serial fun q hq => hG q _ rfl rfl rfl rfl hq

theorem OneFrame.ensureBuffer (serial : Nat) {s : State} (h : OneFrame f G s) : OneFrame f G (ensureBuffer f serial s) := by
  unfold Machine.ensureBuffer
  split
  · exact h
  refine closed_ite h ?_
  split
  · exact h
  extract_lets fl s1
  have h1 : OneFrame f G s1 := h.setFlue _ rfl
  refine OneFrame.wr ?_ _ _
  exact h1.modFrame serial fun q hq => hG q _ rfl rfl rfl rfl hq

theorem OneFrame.writeBand (serial k : Nat) {s : State} (h : OneFrame f G s) : OneFrame f G (writeBand f serial k s) := by
  unfold Machine.writeBand
  extract_lets s1
  have h1 : OneFrame f G s1 := h.ensureBuffer hG serial
  split
  · exact h1
  next r _ =>
  split
  · exact h1.modBand hG _ _ _
  next b _ =>
  extract_lets s2
  have h2 : OneFrame f G s2 := closed_foldl (P := OneFrame f G)
    (fun u t hu => (hu.of_comp (storeTile_comp _ _ _ _ _ _)).of_comp (writeHeld_comp _ _ _ _ _ _)) h1
  have h3 : OneFrame f G (markBand r f b k s2) := h2.setFlue _ rfl
  exact h3.modBand hG _ _ _

theorem OneFrame.finishBand (serial k : Nat) {s : State} (h : OneFrame f G s) : OneFrame f G (finishBand f serial k s) := by
  unfold Machine.finishBand
  split
  · exact h
  · exact closed_ite ((OneFrame.completion f fun q hq => hG q _ rfl rfl rfl rfl hq).completeFrame _ _ (h.writeBand hG serial k)) h

theorem OneFrame.decideFail (t serial : Nat) {s : State} (h : OneFrame f G s) : OneFrame f G (decideFail f t serial s) := by
  unfold Machine.decideFail
  split
  · exact h
  split
  · exact h
  next r _ _ n _ =>
  extract_lets v s1 first s2 s3 s4 s5 k px s6
  have h2 : OneFrame f G s2 := (h.setVote hG _ _ _).modFrame serial fun q hq => hG q _ rfl rfl rfl rfl hq
  have h4 : OneFrame f G s4 := (closed_when (fun hu => OneFrame.wr hu _ _) h2 : OneFrame f G s3).wr _ _
  have h5 : OneFrame f G s5 := closed_ite (h4.of_comp (State.raise_comp _ _ _)) h4
  refine closed_ite h5 ?_
  have h6 : OneFrame f G s6 := h5.modBand hG _ _ _
  split
  · exact h6
  · exact (((h6.reviseTile hG _ _ _).writeSig hG _ _ _).of_comp (countStates_comp _ _ _)).finishBand hG _ _

theorem OneFrame.startDecision (serial t : Nat) {s : State} (h : OneFrame f G s) : OneFrame f G (startDecision f serial t s) := by
  unfold Machine.startDecision
  split
  · exact h
  split
  · exact h
  · exact closed_ite (h.decideFail hG _ _) h

theorem OneFrame.reviseLost (serial : Nat) {s : State} (h : OneFrame f G s) : OneFrame f G (reviseLost f serial s) := by
  unfold Machine.reviseLost
  split
  · exact h
  · exact (closed_foldl (fun u t hu => OneFrame.reviseTile hG _ _ _ hu) h).of_comp (countStates_comp _ _ _)

theorem OneFrame.underTile (serial t : Nat) {s : State} (h : OneFrame f G s) : OneFrame f G (underTile f serial s t) := by
  unfold Machine.underTile
  split
  · exact h
  extract_lets k s1
  have h1 : OneFrame f G s1 := h.reviseTile hG _ _ _
  split
  · exact h1
  extract_lets old px s2
  refine closed_ite h1 ?_
  have h2 : OneFrame f G s2 := h1.modBand hG _ _ _
  split
  · exact h2
  · exact (h2.of_comp (storeTile_comp _ _ _ _ _ _)).of_comp (writeHeld_comp _ _ _ _ _ _)

end

/-! ### The two commands -/

/-- The frame that falls due on a flue with one frame. -/
theorem find_due {s : State} {f : Nat} {r : FrameRun} (hf : (s.flue f).frames = [r]) (hnew : r.started = false)
    (hdue : r.startNs ≤ s.monoNs) : (s.flue f).frames.find? (fun r => !r.started && decide (r.startNs ≤ s.monoNs)) = some r := by
  simp [hf, hnew, hdue]

theorem frameStart_dark (s : State) (f : Nat) (r : FrameRun) (hf : f < 24) (hone : (s.flue f).frames = [r])
    (hnew : r.started = false) (hdue : r.startNs ≤ s.monoNs) (hend : s.monoNs < r.endNs) (hdark : r.dark = true) :
    ∃ t, exec (.frameStart f) s = .next t ∧ ∃ b, (t.flue f).frames = [{ r with started := true, complete := b }] := by
  refine ⟨_, exec_of_wf (decide_eq_true hf) rfl, ?_⟩
  have h0 := atStart_frameStart hone hend
  have hs : OneFrame f (fun q => ∃ b, q = { r with started := true, complete := b }) (frameStart f s) := by
    unfold frameStart
    split
    next hnone => rw [find_due hone hnew hdue] at hnone; cases hnone
    next r' hr' =>
    obtain rfl : r = r' := Option.some.inj ((find_due hone hnew hdue).symm.trans hr')
    extract_lets u
    have hu : AtStart f r s u := h0
    rw [if_pos (show frameDark u f r = true by simp [frameDark, hdark])]
    exact hu.frame.modFrame_same (fun q hq => hq.serial) fun q ⟨b, hq⟩ => ⟨b, by rw [hq]⟩
  obtain ⟨q, hq, b, rfl⟩ := hs.of_comp (State.flushEvents_comp _)
  exact ⟨b, hq⟩

/-- Frame `r` of flue `f` has started, with the members that its rectangles have. -/
def Started (r : FrameRun) (f : Nat) (q : FrameRun) : Prop :=
  q.serial = r.serial ∧ q.started = true ∧ q.members = (rectsOf r.sheet f).map fun n => (n, presentMembers r.sheet n)

theorem Started.restsOnStart (r : FrameRun) (f : Nat) : RestsOnStart (Started r f) := by
  intro q q' hserial hstarted _ hmembers h
  unfold Started
  rw [hserial, hstarted, hmembers]
  exact h

theorem frameStart_started {s : State} {f : Nat} {r : FrameRun} (hone : (s.flue f).frames = [r])
    (hnew : r.started = false) (hdue : r.startNs ≤ s.monoNs) (hend : s.monoNs < r.endNs) (hlit : frameDark s f r = false) :
    OneFrame f (Started r f) (frameStart f s) := by
  have hG := Started.restsOnStart r f
  have h0 := atStart_frameStart hone hend
  unfold frameStart
  split
  next hnone => rw [find_due hone hnew hdue] at hnone; cases hnone
  next r' hr' =>
  obtain rfl : r = r' := Option.some.inj ((find_due hone hnew hdue).symm.trans hr')
  extract_lets s0 ns s1 members lost s2 s3 s4 s5
  have h0 : AtStart f r s s0 := h0
  rw [if_neg (by rw [h0.frameDark, hlit]; decide)]
  clear_value s0
  have h1 : OneFrame f (UpToComplete r) s1 :=
    closed_foldl (fun u n hu => closed_ite (OneFrame.of_flue hu (restoreRect_flue _ _ _)) hu) h0.frame
  have h2 : OneFrame f (Started r f) s2 := h1.modFrame_same (fun q hq => hq.serial) fun q ⟨b, hq⟩ => by
    subst hq; exact ⟨rfl, rfl, rfl⟩
  have h3 : OneFrame f (Started r f) s3 := (h2.reviseLost hG _).ensureBuffer hG _
  have h4 : OneFrame f (Started r f) s4 := closed_when (fun hu => OneFrame.setFlue hu _ rfl) h3
  have h5 : OneFrame f (Started r f) s5 := closed_foldl (fun u n hu => OneFrame.wr hu _ _) h4
  exact closed_foldl (fun u t hu => OneFrame.startDecision hG _ _ hu) h5

theorem frameStart_lit (s : State) (f : Nat) (r : FrameRun) (hf : f < 24) (hone : (s.flue f).frames = [r])
    (hnew : r.started = false) (hdue : r.startNs ≤ s.monoNs) (hend : s.monoNs < r.endNs) (hlit : frameDark s f r = false) :
    ∃ t, exec (.frameStart f) s = .next t ∧ ∃ q, frameOf t f r.serial = some q ∧ q.started = true ∧
      q.members = (rectsOf r.sheet f).map fun n => (n, presentMembers r.sheet n) := by
  refine ⟨_, exec_of_wf (decide_eq_true hf) rfl, ?_⟩
  have hs := (frameStart_started hone hnew hdue hend hlit).of_comp (State.flushEvents_comp _)
  obtain ⟨q, hq, hserial, hstarted, hmembers⟩ := hs.frameOf fun q hq => hq.1
  exact ⟨q, hq, hstarted, hmembers⟩

/-- Frame `r` has been underrun. -/
def Underrun (r q : FrameRun) : Prop := q.serial = r.serial ∧ q.underrun = true

theorem Underrun.restsOnStart (r : FrameRun) : RestsOnStart (Underrun r) := by
  intro q q' hserial _ hunder _ h
  unfold Underrun
  rw [hserial, hunder]
  exact h

theorem directUnderrun_marks {s : State} {f l : Nat} {r : FrameRun} (hone : (s.flue f).frames = [r]) (hrun : r.started = true)
    (hfresh : r.underrun = false) (hlit : frameDark s f r = false) (hend : s.monoNs < r.endNs)
    (hdirect : directLayer r.sheet f = some l) : OneFrame f (Underrun r) (directUnderrun f s) ∧
      ((directUnderrun f s).source (r.sheet.layerKey l)).sinceUnder = 0 := by
  have hG := Underrun.restsOnStart r
  have hfind : (s.flue f).frames.find? (fun r => r.started && !r.underrun && !frameDark s f r && decide (s.monoNs < r.endNs))
      = some r := by simp [hone, hrun, hfresh, hlit, hend]
  unfold directUnderrun
  split
  next hnone => rw [hfind] at hnone; cases hnone
  next r' hr' =>
  obtain rfl : r = r' := Option.some.inj (hfind.symm.trans hr')
  split
  next hnone => rw [hdirect] at hnone; cases hnone
  next l' hl' =>
  obtain rfl : l = l' := Option.some.inj (hdirect.symm.trans hl')
  extract_lets left s1 s2 key o s3
  have h1 : OneFrame f (Underrun r) s1 := (show OneFrame f (fun q => q = r) s from ⟨r, hone, rfl⟩).modFrame_same
    (fun q hq => by rw [hq]) fun q hq => by subst hq; exact ⟨rfl, rfl⟩
  have h2 : OneFrame f (Underrun r) s2 := closed_foldl (fun u t hu => OneFrame.underTile hG _ _ hu) h1
  have h3 : OneFrame f (Underrun r) s3 := h2.of_flue rfl
  have hend3 : ((countStates r.sheet f s3).raise 0x0502 f).comp = s3.comp := (State.raise_comp _ _ _).trans (countStates_comp _ _ _)
  refine ⟨h3.of_comp hend3, ?_⟩
  have hsrc : (s3.source key).sinceUnder = 0 := by unfold s3; rw [State.setSource_source, if_pos rfl]
  unfold State.source at hsrc ⊢
  rw [hend3]
  exact hsrc

theorem directUnderrun_statement (s : State) (f l : Nat) (r : FrameRun) (hf : f < 24) (hone : (s.flue f).frames = [r])
    (hrun : r.started = true) (hfresh : r.underrun = false) (hlit : frameDark s f r = false) (hend : s.monoNs < r.endNs)
    (hdirect : directLayer r.sheet f = some l) : ∃ t, exec (.directUnderrun f) s = .next t ∧
      (∃ q, (t.flue f).frames = [q] ∧ q.serial = r.serial ∧ q.underrun = true) ∧
      (t.source (r.sheet.layerKey l)).sinceUnder = 0 := by
  refine ⟨_, exec_of_wf (decide_eq_true hf) rfl, ?_⟩
  obtain ⟨hframe, hsource⟩ := directUnderrun_marks hone hrun hfresh hlit hend hdirect
  refine ⟨hframe.of_comp (State.flushEvents_comp _), ?_⟩
  unfold State.source at hsource ⊢
  rw [State.flushEvents_comp]
  exact hsource

/-- Settles O21: the one frame of the flue is followed through the command. -/
theorem frameCommands : Obligations.FrameCommands := by
  unfold Obligations.FrameCommands
  exact ⟨frameStart_dark, frameStart_lit, directUnderrun_statement⟩

end Sys2Proof.Machine

/-!
PROOFS. The counterexample to O20: BAND_DEADLINE where the flue has two frames of one serial number. The command finds its frame by
its band (R41), and marks the band held in every frame of that serial number; the statement looks the frame up by its number, and
finds the other, which has no such band.
-/
namespace Sys2Proof.Machine

/-- A frame begun at time 0 whose one band is still waiting. -/
def lateFrame : FrameRun :=
  { serial := 7, tick := 0, now := 0, index := 0, startNs := 0, periodNs := 16000000, sheet := {}, bands := [{}] }

/-- Flue 0 a second later: `lateFrame`, and before it a frame of the same serial number that has no band. -/
def twinFrames : State :=
  { State.reset with comp := { flues := [(0, { frames := [{ lateFrame with bands := [] }, lateFrame] })] }, time := { sec := 1 } }

/-- Neither frame has all its bands in a held copy, so that none is left to complete. -/
theorem settleFrames_twinFrames : settleFrames 0 twinFrames = twinFrames := by decide +kernel

theorem frameAtDeadline_twinFrames : frameAtDeadline twinFrames 0 0 = some lateFrame := by decide +kernel

/-- After the deadline the serial number still names the frame without a band, which no command can have held. -/
theorem bandDeadline_twinFrames :
    (frameOf (bandDeadline' 0 0 twinFrames) 0 lateFrame.serial).map (fun q => (q.band 0).phase) = some .waiting := by
  decide +kernel

@[simp] theorem State.flushEvents_frameOf (s : State) (f serial : Nat) : frameOf s.flushEvents f serial = frameOf s f serial := by
  unfold frameOf State.flue; rw [State.flushEvents_comp]

/-- Refutes O20: the last clause does not ask that the frames of the flue have different serial numbers. -/
theorem not_bandCommands : ¬ Obligations.BandCommands := by
  unfold Obligations.BandCommands
  rintro ⟨-, -, -, hdeadline⟩
  have hlit : frameDark twinFrames 0 lateFrame = false := by decide +kernel
  have hunready : bandReady lateFrame 0 0 = false := by decide
  have hserved : (twinFrames.unit (lateFrame.band 0).unit).stopped = false := by decide
  obtain ⟨t, hexec, -, q, hframe, hheld⟩ := hdeadline twinFrames 0 0 lateFrame (by decide) (by decide) settleFrames_twinFrames
    frameAtDeadline_twinFrames hlit hunready (by decide) hserved
  rw [exec_of_wf (u := bandDeadline' 0 0 twinFrames) rfl rfl] at hexec
  rw [← Host.Outcome.next.inj hexec, State.flushEvents_frameOf] at hframe
  have hwaiting := bandDeadline_twinFrames
  rw [hframe, Option.map_some, hheld] at hwaiting
  cases hwaiting

end Sys2Proof.Machine

/-!
PROOFS. The canary of a unit (R42, R43, R46, R57): a signature passes it, or it fails. A canary that has failed stays so through all that
logging the fault does: the stop of cues, the hold of bands, the end of direct streams, the records and the rectangles lost.
-/
namespace Sys2Proof.Machine

/-! ### The failed canary of a unit stands while the fault is logged -/

/-- The canary of unit `u` is done, and has failed. -/
def CanaryFailed (u : Nat) (s : State) : Prop := (s.unit u).canaryDone = true ∧ (s.unit u).canaryFailed = true

section
variable {u : Nat} {s t : State}

theorem CanaryFailed.of_units (h : CanaryFailed u s) (ht : t.comp.units = s.comp.units) : CanaryFailed u t := by
  unfold CanaryFailed State.unit; rw [ht]; exact h

theorem CanaryFailed.of_comp (h : CanaryFailed u s) (ht : t.comp = s.comp) : CanaryFailed u t := h.of_units (by rw [ht])

theorem CanaryFailed.wr (h : CanaryFailed u s) (x : Fld) (v : Nat) : CanaryFailed u (s.wr x v) := h.of_comp (State.wr_comp _ _ _)

theorem CanaryFailed.raise (h : CanaryFailed u s) (c o : Nat) : CanaryFailed u (s.raise c o) := h.of_comp (State.raise_comp _ _ _)

theorem CanaryFailed.setFlue (h : CanaryFailed u s) (f : Nat) (o : FlueState) : CanaryFailed u (s.setFlue f o) := h.of_units rfl

theorem CanaryFailed.setFrec (h : CanaryFailed u s) (i : Nat) (o : RecState) : CanaryFailed u (s.setFrec i o) := h.of_comp rfl

theorem CanaryFailed.faults (h : CanaryFailed u s) (o : FaultState) : CanaryFailed u { s with faults := o } := h

theorem CanaryFailed.setFrect (h : CanaryFailed u s) (n : Nat) (o : RectState) : CanaryFailed u (s.setFrect n o) := h.of_units rfl

/-- A change of a unit that leaves its canary alone. -/
theorem CanaryFailed.setUnit (h : CanaryFailed u s) (v : Nat) (o : UnitState) (hd : o.canaryDone = (s.unit v).canaryDone)
    (hf : o.canaryFailed = (s.unit v).canaryFailed) : CanaryFailed u (s.setUnit v o) := by
  unfold CanaryFailed
  rw [State.setUnit_unit]
  split
  next huv => rw [hd, hf, ← huv]; exact h
  next => exact h

/-! What a fault does to the frames that its units compose. -/

theorem CanaryFailed.modFrame (h : CanaryFailed u s) (f serial : Nat) (g : FrameRun → FrameRun) :
    CanaryFailed u (modFrame f serial g s) := h.setFlue _ _

theorem CanaryFailed.modBand (h : CanaryFailed u s) (f serial k : Nat) (g : BandRun → BandRun) :
    CanaryFailed u (modBand f serial k g s) := h.modFrame _ _ _

theorem CanaryFailed.reviseTile (h : CanaryFailed u s) (f serial t : Nat) (ctx : TileCtx) :
    CanaryFailed u (reviseTile f serial t ctx s) := by
  unfold Machine.reviseTile
  split
  · exact h
  · exact (h.modFrame _ _ _).of_comp (writeEntry_comp _ _ _ _ _)

theorem CanaryFailed.writeSig (h : CanaryFailed u s) (f serial t sig : Nat) : CanaryFailed u (writeSig f serial t sig s) := by
  unfold Machine.writeSig
  split
  · exact h
  · exact closed_ite h ((h.modFrame _ _ _).wr _ _)

theorem CanaryFailed.reviseHeld (h : CanaryFailed u s) (f serial k : Nat) : CanaryFailed u (reviseHeld f serial k s) := by
  unfold Machine.reviseHeld
  split
  · exact h
  · refine (closed_foldl (fun t x ht => ?_) h).of_comp (countStates_comp _ _ _)
    have hrevised := CanaryFailed.reviseTile ht
    split
    · exact hrevised _ _ _ _
    · exact (hrevised _ _ _ _).writeSig _ _ _ _

theorem CanaryFailed.faultHoldBand (h : CanaryFailed u s) (f serial k : Nat) : CanaryFailed u (faultHoldBand f serial k s) :=
  (h.modBand _ _ _ _).reviseHeld _ _ _

theorem CanaryFailed.holdBandsOf (h : CanaryFailed u s) (v : Nat) (taints : Bool) : CanaryFailed u (holdBandsOf v taints s) :=
  closed_foldl (fun _ _ h1 => closed_foldl (fun _ _ h2 => closed_foldl (fun _ _ h3 =>
    closed_ite (CanaryFailed.faultHoldBand h3 _ _ _) h3) h2) h1) h

theorem CanaryFailed.underTile (h : CanaryFailed u s) (f serial t : Nat) : CanaryFailed u (underTile f serial s t) := by
  unfold Machine.underTile
  split
  · exact h
  extract_lets k s1
  have h1 : CanaryFailed u s1 := h.reviseTile _ _ _ _
  split
  · exact h1
  refine closed_ite h1 ?_
  extract_lets px s2
  have h2 : CanaryFailed u s2 := h1.modBand _ _ _ _
  split
  · exact h2
  · exact (h2.of_comp (storeTile_comp _ _ _ _ _ _)).of_comp (writeHeld_comp _ _ _ _ _ _)

theorem CanaryFailed.directUnderrun (h : CanaryFailed u s) (f : Nat) : CanaryFailed u (directUnderrun f s) := by
  unfold Machine.directUnderrun
  split
  · exact h
  split
  · exact h
  next r _ _ l _ =>
  extract_lets left s1 s2 key o s3
  have h2 : CanaryFailed u s2 := closed_foldl (fun t x ht => CanaryFailed.underTile ht _ _ _) (h.modFrame _ _ _)
  have h3 : CanaryFailed u s3 := h2.of_units rfl
  exact (h3.of_comp (countStates_comp _ _ _)).raise _ _

/-! What a fault does to the cues of its units. -/

theorem CanaryFailed.dropWork (h : CanaryFailed u s) (v : Nat) : CanaryFailed u (dropWork v s) := h.setUnit _ _ rfl rfl

theorem CanaryFailed.releaseItem (h : CanaryFailed u s) (v : Nat) : CanaryFailed u (releaseItem v s) := by
  unfold Machine.releaseItem
  split
  · split
    · exact h.modBand _ _ _ _
    · exact h
  · exact h

theorem CanaryFailed.endDirectOf (h : CanaryFailed u s) (v : Nat) : CanaryFailed u (endDirectOf v s) := by
  unfold Machine.endDirectOf
  exact closed_foldl (fun t f ht => CanaryFailed.directUnderrun ht f) (h.of_comp rfl)

theorem CanaryFailed.stopUnit (h : CanaryFailed u s) (taints : Bool) (v : Nat) : CanaryFailed u (stopUnit taints s v) := by
  have hstopped := h.setUnit v { s.unit v with stopped := true } rfl rfl
  exact closed_ite h ((((hstopped.releaseItem v).holdBandsOf v taints).dropWork v).endDirectOf v)

theorem CanaryFailed.refreshHold (h : CanaryFailed u s) : CanaryFailed u (refreshHold s) := (h.wr _ _).wr _ _

theorem CanaryFailed.stopCues (h : CanaryFailed u s) (i : Nat) (us : List Nat) (taints : Bool) :
    CanaryFailed u (stopCues i us taints s).2 := by
  unfold Machine.stopCues
  extract_lets vs begins s1 r
  have h1 : CanaryFailed u s1 := closed_foldl (fun t v ht => CanaryFailed.stopUnit ht taints v) h
  exact (h1.setFrec _ _).refreshHold

/-! What is logged. -/

theorem CanaryFailed.refreshHier (h : CanaryFailed u s) : CanaryFailed u (refreshHier s) := ((h.wr _ _).wr _ _).wr _ _

theorem CanaryFailed.unpowerRegion (h : CanaryFailed u s) (r : Nat) : CanaryFailed u (unpowerRegion r s) := by
  unfold Machine.unpowerRegion
  extract_lets d p s1 s2 s3
  have h2 : CanaryFailed u s2 := CanaryFailed.wr (h.wr _ _) _ _
  have h3 : CanaryFailed u s3 := closed_foldl (fun t v ht => CanaryFailed.setUnit ht v _ rfl rfl) h2
  exact CanaryFailed.refreshHier (h3.of_comp rfl)

theorem CanaryFailed.escalate (h : CanaryFailed u s) (i : Nat) (taints : Bool) : CanaryFailed u (escalate i taints s).2 := by
  unfold Machine.escalate
  extract_lets r level object a rg dead o s1 s2 fs s3
  have h1 : CanaryFailed u s1 := closed_ite (h.faults _) h
  have h3 : CanaryFailed u s3 := (h1.setFrec _ _).faults _
  clear_value s1 s3
  split
  · exact closed_ite (h1.unpowerRegion _) h1
  · exact h3.stopCues _ _ _

theorem CanaryFailed.refreshWdn (h : CanaryFailed u s) : CanaryFailed u (refreshWdn s) := (h.wr _ _).wr _ _

theorem CanaryFailed.setRecState (h : CanaryFailed u s) (i st : Nat) : CanaryFailed u (setRecState i st s) := by
  unfold Machine.setRecState
  extract_lets s1 o s2 fs
  have h2 : CanaryFailed u s2 := closed_when (fun h1 => CanaryFailed.of_units h1 rfl) (h.wr _ _)
  clear_value s2
  exact (h2.faults _).refreshWdn

theorem CanaryFailed.writeRecord (h : CanaryFailed u s) (code level object action st : Nat) (prev : Option Nat) (injected : Bool) :
    CanaryFailed u (writeRecord code level object action st prev injected s).2.2 := by
  unfold Machine.writeRecord
  extract_lets wr slot used unread full s1 s2 s3 s4 s5 s6 s7 s8 s9 s10 fs s11
  have h2 : CanaryFailed u s2 := (h.wr _ _).wr _ _
  have h3 : CanaryFailed u s3 := closed_ite (((h2.wr _ _).wr _ _).wr _ _) h2
  have h6 : CanaryFailed u s6 := ((((h3.wr _ _).wr _ _).wr _ _).wr _ _).wr _ _
  have h9 : CanaryFailed u s9 := (((((h6.wr _ _).wr _ _).wr _ _).wr _ _).wr _ _).wr _ _
  have h11 : CanaryFailed u s11 := (h9.setFrec _ _).faults _
  clear_value s11
  exact h11.setRecState _ _

theorem CanaryFailed.raiseAll (h : CanaryFailed u s) (evs : List (Nat × Nat)) : CanaryFailed u (raiseAll evs s) :=
  closed_foldl (fun _ _ ht => CanaryFailed.raise ht _ _) h

theorem CanaryFailed.detect (h : CanaryFailed u s) (code level object : Nat) (injected : Bool) :
    CanaryFailed u (detect code level object injected s) := by
  unfold Machine.detect
  extract_lets a opens
  split
  · exact (h.writeRecord _ _ _ _ _ _ _).raiseAll _
  split
  · exact ((h.writeRecord _ _ _ _ _ _ _).escalate _ _).raiseAll _
  · exact ((h.writeRecord _ _ _ _ _ _ _).stopCues _ _ _).raiseAll _

theorem CanaryFailed.checkLost (h : CanaryFailed u s) : CanaryFailed u (checkLost s) :=
  closed_foldl (fun _ _ ht => closed_ite (((ht.setFrect _ _).detect _ _ _ _).setFrect _ _) ht) h

theorem CanaryFailed.logFault (h : CanaryFailed u s) (code level object : Nat) (injected : Bool) :
    CanaryFailed u (logFault code level object injected s) := (h.detect _ _ _ _).checkLost

end

/-! ### The commands -/

theorem canaryFail_failed (u : Nat) (s : State) : CanaryFailed u (canaryFail u s) := by
  unfold canaryFail
  extract_lets other o s1 s2
  have h1 : CanaryFailed u s1 := by unfold CanaryFailed s1; rw [State.setUnit_unit, if_pos rfl]; exact ⟨rfl, rfl⟩
  have h2 : CanaryFailed u s2 := h1.raise _ _
  exact closed_ite (h2.logFault _ _ _ _) (h2.logFault _ _ _ _)

theorem canarySigned_wellFormed {u sig : Nat} (hu : u < 32) (hsig : sig < 2 ^ 32) : WellFormed (.canarySigned u sig) := by
  simpa [WellFormed, Instr.wf, hu] using hsig

@[simp] theorem State.flushEvents_unit (s : State) (v : Nat) : s.flushEvents.unit v = s.unit v := by
  unfold State.unit; rw [State.flushEvents_comp]

theorem FieldsOnly.setUnit {l : List Fld} {s t : State} (h : FieldsOnly l s t) (v : Nat) (o : UnitState) :
    FieldsOnly l s (t.setUnit v o) := h.of_regs rfl

/-- A canary that is owed passes with the ROM's signature in time, and fails otherwise. -/
theorem canarySigned_of_owed {s : State} {u : Nat} (sig : Nat) (h : canaryOwed s u = true) : canarySigned u sig s =
    if (s.rdb R.TICK_STATUS_RUN = true ∧ s.tick.nextEdgeNs < s.nowNs + 100000) ∨
        sig ≠ (Config.canaryRom (s.rd R.TICK_COUNT_COUNT % 16)).toNat
    then canaryFail u s else s.setUnit u { s.unit u with canaryDone := true } := by
  rw [canarySigned, h]
  by_cases hlate : s.rdb R.TICK_STATUS_RUN = true ∧ s.tick.nextEdgeNs < s.nowNs + 100000
  · simp [hlate]
  · by_cases hsig : sig = (Config.canaryRom (s.rd R.TICK_COUNT_COUNT % 16)).toNat
    · simp [hsig, hlate]
    · simp [hsig]

theorem canarySigned_passes (s : State) (u : Nat) (hu : u < 32) (howed : canaryOwed s u = true)
    (hearly : s.rdb R.TICK_STATUS_RUN = false ∨ s.nowNs + 100000 ≤ s.tick.nextEdgeNs) :
    ∃ t, exec (.canarySigned u (Config.canaryRom (s.rd R.TICK_COUNT_COUNT % 16)).toNat) s = .next t ∧
      t.unit u = { s.unit u with canaryDone := true } ∧ (∀ v, v ≠ u → t.unit v = s.unit v) ∧ FieldsOnly [] s t ∧
      ChangesOnly [.regs, .evq, .sent, .comp] s t := by
  refine ⟨_, exec_of_wf (canarySigned_wellFormed hu (BitVec.isLt _)) rfl, ?_⟩
  have hontime : ¬(s.rdb R.TICK_STATUS_RUN = true ∧ s.tick.nextEdgeNs < s.nowNs + 100000) := by
    rintro ⟨hrun, hlate⟩
    rcases hearly with hstopped | hearly
    · rw [hrun] at hstopped; cases hstopped
    · omega
  rw [canarySigned_of_owed _ howed, if_neg (by simp [hontime])]
  refine ⟨by simp, fun v hv => by simp [hv], ?_, ?_⟩
  · exact ((FieldsOnly.refl [] s).setUnit _ _).queue (.flushEvents _)
  · exact ((ChangesOnly.closed _ s).setUnit (by decide) _ _ _ (.refl _ s)).queue (.flushEvents _) (by decide)

/-- A command whose effect fails the canary of unit `u` leaves it failed. -/
theorem exec_canaryFail {c : Instr} {s : State} {u : Nat} (hc : WellFormed c) (h : exec c s = checked c (canaryFail u s)) :
    ∃ t, exec c s = .next t ∧ (t.unit u).canaryDone = true ∧ (t.unit u).canaryFailed = true :=
  ⟨_, exec_of_wf hc h, (canaryFail_failed u s).of_comp (State.flushEvents_comp _)⟩

theorem canarySigned_fails (s : State) (u sig : Nat) (hu : u < 32) (hsig : sig < 2 ^ 32) (howed : canaryOwed s u = true)
    (hbad : (s.rdb R.TICK_STATUS_RUN = true ∧ s.tick.nextEdgeNs < s.nowNs + 100000) ∨
      sig ≠ (Config.canaryRom (s.rd R.TICK_COUNT_COUNT % 16)).toNat) :
    ∃ t, exec (.canarySigned u sig) s = .next t ∧ (t.unit u).canaryDone = true ∧ (t.unit u).canaryFailed = true := by
  refine exec_canaryFail (canarySigned_wellFormed hu hsig) ?_
  change checked _ (canarySigned u sig s) = _
  rw [canarySigned_of_owed _ howed, if_pos hbad]

theorem canaryDeadline_fails (s : State) (u : Nat) (hu : u < 32) (hrun : s.rdb R.TICK_STATUS_RUN = true)
    (howed : canaryOwed s u = true) (hdue : s.tick.nextEdgeNs ≤ s.nowNs + 100000) :
    ∃ t, exec (.canaryDeadline u) s = .next t ∧ (t.unit u).canaryDone = true ∧ (t.unit u).canaryFailed = true := by
  refine exec_canaryFail (decide_eq_true hu) ?_
  change checked _ (canaryDeadline u s) = _
  rw [canaryDeadline, if_pos (by simp [hrun, howed, hdue])]

/-- Settles O22: a canary in time and with the ROM's signature passes; any other fails, and nothing that logs the fault takes that
back. -/
theorem canaryCommands : Obligations.CanaryCommands := by
  unfold Obligations.CanaryCommands
  exact ⟨canarySigned_passes, fun s u sig hu hsig hne howed => canarySigned_fails s u sig hu hsig howed (.inr hne),
    fun s u sig hu hsig howed hrun hlate => canarySigned_fails s u sig hu hsig howed (.inl ⟨hrun, hlate⟩), canaryDeadline_fails⟩

end Sys2Proof.Machine

/-!
PROOFS. Frames of a command in one predicate, and the fuse operations (R69): each is `fuseOp`, which either blows its fuses and shows
them in the status registers, or reports the refusal and changes nothing else.
-/
namespace Sys2Proof.Machine

/-! ### Fields, parts and the event queue in one frame -/

/-- From `s` to `t` nothing changes but the fields in `l`, the event queue, what leaves the device, and the parts in `q`. -/
def Within (l : List Fld) (q : List Part) (s t : State) : Prop := FieldsOnly l s t ∧ ChangesOnly (queueParts ++ q) s t

section
variable {l : List Fld} {q : List Part} {s t u : State}

theorem Within.refl (l : List Fld) (q : List Part) (s : State) : Within l q s s := ⟨.refl l s, .refl _ s⟩

theorem Within.wr (h : Within l q s t) {f : Fld} (hf : f ∈ l) (hok : FldOk f) (v : Nat) : Within l q s (t.wr f v) :=
  ⟨h.1.wr hf hok v, (ChangesOnly.closed _ s).wr (by simp) t f v h.2⟩

theorem Within.queue (h : Within l q s t) (k : QueueOnly t u) : Within l q s u := ⟨h.1.queue k, h.2.queue k (by simp)⟩

theorem Within.fuses (h : Within l q s t) (hq : .fuses ∈ q) (o : Fuses) : Within l q s { t with fuses := o } :=
  ⟨h.1.of_regs rfl, (ChangesOnly.closed _ s).fuses (by simp [hq]) t o h.2⟩

end

theorem QueueOnly.fuses {s t : State} (h : QueueOnly s t) : t.fuses = s.fuses := h.same .fuses (by decide)

@[simp] theorem State.flushEvents_fuses (s : State) : s.flushEvents.fuses = s.fuses := (QueueOnly.flushEvents s).fuses

/-! ### The registers that show the fuses -/

/-- The fields that a fuse operation writes. -/
abbrev fuseFields : List Fld := [R.IMG_FUSE_STAT_LAST_RESULT, R.IMG_FUSE_STAT_SLOT0_PROG, R.IMG_FUSE_STAT_SLOT0_REVOKED,
  R.IMG_FUSE_STAT_SLOT1_PROG, R.IMG_FUSE_STAT_SLOT1_REVOKED, R.IMG_FUSE_STAT_INJ_FORBID, R.IMG_SVN_FUSE_SVN]

/-- IMG_FUSE_STAT and IMG_SVN show the fuses `p`. -/
structure FusesShown (p : Fuses) (t : State) : Prop where
  slot0Prog : t.rd R.IMG_FUSE_STAT_SLOT0_PROG = b2n p.hash0.isSome
  slot0Revoked : t.rd R.IMG_FUSE_STAT_SLOT0_REVOKED = b2n p.revoked0
  slot1Prog : t.rd R.IMG_FUSE_STAT_SLOT1_PROG = b2n p.hash1.isSome
  slot1Revoked : t.rd R.IMG_FUSE_STAT_SLOT1_REVOKED = b2n p.revoked1
  injForbid : t.rd R.IMG_FUSE_STAT_INJ_FORBID = b2n p.injForbid
  svn : t.rd R.IMG_SVN_FUSE_SVN = p.svn % 256

theorem b2n_lt (b : Bool) : b2n b < 2 := by cases b <;> decide

@[simp] theorem refreshFuses_fuses (s : State) : (refreshFuses s).fuses = s.fuses := by simp [refreshFuses]

/-- The six fields that are written share no bit. -/
theorem refreshFuses_shown {p : Fuses} {s : State} (hp : s.fuses = p) : FusesShown p (refreshFuses s) := by
  subst hp
  constructor <;> unfold refreshFuses <;> simp (disch := decide) only [State.rd_wr, State.rd_wr_apart]
  case svn => rfl
  all_goals exact Nat.mod_eq_of_lt (b2n_lt _)

theorem refreshFuses_lastResult (s : State) :
    (refreshFuses s).rd R.IMG_FUSE_STAT_LAST_RESULT = s.rd R.IMG_FUSE_STAT_LAST_RESULT := by
  unfold refreshFuses
  simp (disch := decide) only [State.rd_wr_apart]

theorem FusesShown.queue {p : Fuses} {s t : State} (h : FusesShown p s) (k : QueueOnly s t) : FusesShown p t := by
  constructor <;> rw [k.rd _ (by decide)]
  exacts [h.slot0Prog, h.slot0Revoked, h.slot1Prog, h.slot1Revoked, h.injForbid, h.svn]

theorem Within.refreshFuses {q : List Part} {s t : State} (h : Within fuseFields q s t) : Within fuseFields q s (refreshFuses t) := by
  unfold Machine.refreshFuses
  exact (((((h.wr (by simp) (by decide) _).wr (by simp) (by decide) _).wr (by simp) (by decide) _).wr (by simp) (by decide)
    _).wr (by simp) (by decide) _).wr (by simp) (by decide) _

/-! ### An operation allowed, an operation refused -/

theorem fuseOp_allowed (g : Fuses → Fuses) (s : State) :
    fuseOp true g s = refreshFuses ({ s with fuses := g s.fuses }.wr R.IMG_FUSE_STAT_LAST_RESULT 0) := rfl

@[simp] theorem fuseOp_refused (g : Fuses → Fuses) (s : State) : fuseOp false g s = s.wr R.IMG_FUSE_STAT_LAST_RESULT 1 := rfl

section
variable {c : Instr} {s u : State} {f : Fld} {v : Nat}

/-- A fuse operation that R69 lets happen blows its fuses and reports result 0; `f` is a field that shows them. -/
theorem exec_fuseOp_allowed (g : Fuses → Fuses) (hc : WellFormed c) (h : exec c s = checked c u) (hu : u = fuseOp true g s)
    (hf : ∀ t, FusesShown (g s.fuses) t → t.rd f = v) :
    ∃ t, exec c s = .next t ∧ t.fuses = g s.fuses ∧ t.rd R.IMG_FUSE_STAT_LAST_RESULT = 0 ∧ t.rd f = v ∧
      FieldsOnly fuseFields s t ∧ ChangesOnly (queueParts ++ [.fuses]) s t := by
  refine ⟨_, exec_of_wf hc h, ?_⟩
  rw [hu, fuseOp_allowed]
  refine ⟨?_, ?_, hf _ (.queue (refreshFuses_shown ?_) (.flushEvents _)),
    (((Within.refl _ _ s).fuses (by simp) _).wr (by simp) (by decide) _).refreshFuses.queue (.flushEvents _)⟩
  · rw [State.flushEvents_fuses, refreshFuses_fuses, State.wr_fuses]
  · rw [State.flushEvents_rd _ _ (by decide), refreshFuses_lastResult, State.rd_wr _ _ _ (by decide)]
    rfl
  · rw [State.wr_fuses]

/-- Any other leaves every fuse and reports result 1. -/
theorem exec_fuseOp_refused (hc : WellFormed c) (h : exec c s = checked c u) (hu : u = s.wr R.IMG_FUSE_STAT_LAST_RESULT 1) :
    ∃ t, exec c s = .next t ∧ t.fuses = s.fuses ∧ t.rd R.IMG_FUSE_STAT_LAST_RESULT = 1 ∧
      FieldsOnly [R.IMG_FUSE_STAT_LAST_RESULT] s t ∧ ChangesOnly queueParts s t := by
  refine ⟨_, exec_of_wf hc h, ?_⟩
  rw [hu]
  refine ⟨by rw [State.flushEvents_fuses, State.wr_fuses], ?_,
    ((Within.refl _ [] s).wr (by simp) (by decide) _).queue (.flushEvents _)⟩
  rw [State.flushEvents_rd _ _ (by decide), State.rd_wr _ _ _ (by decide)]
  rfl

end

/-- An advanced version stays within its field: it does not pass the image's, which has eight bits. -/
theorem FusesShown.svn_advanced {p : Fuses} {s t : State} (h : FusesShown { p with svn := p.svn + 1 } t)
    (hsvn : p.svn < s.rd R.IMG_SVN_IMAGE_SVN) : t.rd R.IMG_SVN_FUSE_SVN = p.svn + 1 :=
  h.svn.trans (Nat.mod_eq_of_lt (Nat.lt_of_le_of_lt hsvn (State.rd_lt s R.IMG_SVN_IMAGE_SVN)))

/-- Settles O32: the six operations where R69 lets them happen, then five where it refuses them. -/
theorem fuseCommands : Obligations.FuseCommands := by
  unfold Obligations.FuseCommands
  refine ⟨fun s happ hempty => ?_, fun s happ hempty => ?_, fun s happ hprog0 hrev0 hprog1 hrev1 => ?_,
    fun s happ hprog0 hrev0 hprog1 hrev1 => ?_, fun s hconf hsvn => ?_, fun s => ?_,
    fun s h => exec_fuseOp_refused rfl rfl ?_, fun s h => exec_fuseOp_refused rfl rfl ?_,
    fun s h => exec_fuseOp_refused rfl rfl ?_, fun s h => exec_fuseOp_refused rfl rfl ?_,
    fun s h => exec_fuseOp_refused rfl rfl ?_⟩
  · exact exec_fuseOp_allowed (fun p => { p with hash0 := some (fuseData s) }) rfl rfl
      (by simp [fuseProgramSlot0, happ, hempty]) fun _ h => h.slot0Prog
  · exact exec_fuseOp_allowed (fun p => { p with hash1 := some (fuseData s) }) rfl rfl
      (by simp [fuseProgramSlot1, happ, hempty]) fun _ h => h.slot1Prog
  · exact exec_fuseOp_allowed (fun p => { p with revoked0 := true }) rfl rfl
      (by simp [fuseRevokeSlot0, happ, hprog0, hrev0, hprog1, hrev1]) fun _ h => h.slot0Revoked
  · exact exec_fuseOp_allowed (fun p => { p with revoked1 := true }) rfl rfl
      (by simp [fuseRevokeSlot1, happ, hprog0, hrev0, hprog1, hrev1]) fun _ h => h.slot1Revoked
  · exact exec_fuseOp_allowed (fun p => { p with svn := p.svn + 1 }) rfl rfl
      (by simp [fuseAdvanceSvn, hconf, hsvn]) fun _ h => h.svn_advanced hsvn
  · exact exec_fuseOp_allowed (fun p => { p with injForbid := true }) rfl rfl rfl fun _ h => h.injForbid
  · rcases h with happ | hprog
    · simp [fuseProgramSlot0, happ]
    · simp [fuseProgramSlot0, Option.isNone_eq_false_iff.mpr hprog]
  · rcases h with happ | hprog
    · simp [fuseProgramSlot1, happ]
    · simp [fuseProgramSlot1, Option.isNone_eq_false_iff.mpr hprog]
  · rcases h with hempty | hrev
    · simp [fuseRevokeSlot0, hempty]
    · simp [fuseRevokeSlot0, hrev]
  · rcases h with hempty | hrev
    · simp [fuseRevokeSlot1, hempty]
    · simp [fuseRevokeSlot1, hrev]
  · simp [fuseAdvanceSvn, Nat.not_lt.mpr h]

end Sys2Proof.Machine

/-!
PROOFS. The load of a structure image (R62 to R82, R552). What a stage does is an equation for each of its branches; a refusal is one
operation for all of them, and a stage that goes on writes LOAD_STATE once.
-/
namespace Sys2Proof.Machine

/-! ### The loader's hidden state -/

theorem QueueOnly.img {s t : State} (h : QueueOnly s t) : t.img = s.img := h.same .img (by decide)

@[simp] theorem State.flushEvents_img (s : State) : s.flushEvents.img = s.img := (QueueOnly.flushEvents s).img
@[simp] theorem State.raise_img (s : State) (c o : Nat) : (s.raise c o).img = s.img := (QueueOnly.raise s c o).img
@[simp] theorem modImg_img (g : ImgState → ImgState) (s : State) : (modImg g s).img = g s.img := rfl
@[simp] theorem modImg_rd (g : ImgState → ImgState) (s : State) (f : Fld) : (modImg g s).rd f = s.rd f := rfl
@[simp] theorem setLoadState_img (v : Nat) (s : State) : (setLoadState v s).img = s.img := by
  rw [setLoadState, State.wr_img]

theorem QueueOnly.readImage (src addr n : Nat) (s : State) : QueueOnly s (readImage src addr n s) := by
  unfold Machine.readImage; exact .ite (.send _ _) (.refl _)

@[simp] theorem readImage_img (src addr n : Nat) (s : State) : (readImage src addr n s).img = s.img :=
  (QueueOnly.readImage src addr n s).img

section
variable {l : List Fld} {q : List Part} {s t : State}

theorem Within.modImg (h : Within l q s t) (hq : .img ∈ q) (g : ImgState → ImgState) : Within l q s (modImg g t) :=
  ⟨h.1.of_regs rfl, (ChangesOnly.closed _ s).img (by simp [hq]) t _ h.2⟩

theorem Within.setLoadState (h : Within l q s t) (hl : R.IMG_STATUS_LOAD_STATE ∈ l) (v : Nat) :
    Within l q s (setLoadState v t) := h.wr hl (by decide) v

end

/-! ### A load that goes on -/

section
variable {c : Instr} {s u x : State}

/-- A stage that ends in state `v` of the load. -/
theorem exec_setLoadState {v : Nat} {o : ImgState} (hc : WellFormed c) (h : exec c s = checked c x) (hx : x = setLoadState v u)
    (hv : v < 16) (hu : Within [R.IMG_STATUS_LOAD_STATE] [.img] s u) (ho : u.img = o) :
    ∃ t, exec c s = .next t ∧ t.rd R.IMG_STATUS_LOAD_STATE = v ∧ t.img = o ∧
      FieldsOnly [R.IMG_STATUS_LOAD_STATE] s t ∧ ChangesOnly (queueParts ++ [.img]) s t := by
  refine ⟨_, exec_of_wf hc h, ?_⟩
  rw [hx]
  refine ⟨?_, by rw [State.flushEvents_img, setLoadState_img, ho], (hu.setLoadState (by simp) v).queue (.flushEvents _)⟩
  rw [State.flushEvents_rd _ _ (by decide), setLoadState, State.rd_wr _ _ _ (by decide)]
  exact Nat.mod_eq_of_lt hv

/-- A stage that leaves the state of the load as it is. -/
theorem exec_sameLoadState {o : ImgState} (hc : WellFormed c) (h : exec c s = checked c x) (hx : x = u)
    (hu : Within [] [.img] s u) (ho : u.img = o) :
    ∃ t, exec c s = .next t ∧ t.img = o ∧ FieldsOnly [] s t ∧ ChangesOnly (queueParts ++ [.img]) s t := by
  subst hx
  exact ⟨_, exec_of_wf hc h, (State.flushEvents_img x).trans ho, hu.queue (.flushEvents x)⟩

end

/-! ### A load that is refused (R70) -/

/-- The fields that a refusal writes. -/
abbrev refusalFields : List Fld := [R.IMG_STATUS_LOAD_STATE, R.IMG_STATUS_CODE, R.IMG_STATUS_SECTION, R.IMG_DETAIL_OFFSET]

theorem imgRefused_eq (code sec off : Nat) (s : State) : imgRefused code sec off s =
    setLoadState 7 (modImg (fun o => { o with staging := [], todo := [] })
      (((s.wr R.IMG_STATUS_CODE code).wr R.IMG_STATUS_SECTION sec).wr R.IMG_DETAIL_OFFSET off)) := rfl

theorem imgRefused_img (code sec off : Nat) (s : State) :
    (imgRefused code sec off s).img = { s.img with staging := [], todo := [] } := by
  rw [imgRefused_eq, setLoadState_img, modImg_img, State.wr_img, State.wr_img, State.wr_img]

/-- The four fields that are written share no bit. -/
theorem imgRefused_rd (code sec off : Nat) (s : State) (hcode : code < 256) (hsec : sec < 16) :
    (imgRefused code sec off s).rd R.IMG_STATUS_LOAD_STATE = 7 ∧ (imgRefused code sec off s).rd R.IMG_STATUS_CODE = code ∧
      (imgRefused code sec off s).rd R.IMG_STATUS_SECTION = sec ∧
      (imgRefused code sec off s).rd R.IMG_DETAIL_OFFSET = off % 2 ^ 32 := by
  have same (t : State) (f : Fld) (v : Nat) (hf : FldOk f) := State.rd_wr t f v hf
  have apart (t : State) (f g : Fld) (v : Nat) (hf : FldOk f) (hd : FldApart f g) := State.rd_wr_apart t f g v hf hd
  rw [imgRefused_eq, setLoadState]
  refine ⟨?_, ?_, ?_, ?_⟩
  · rw [same _ _ _ (by decide)]
    rfl
  · rw [apart _ _ _ _ (by decide) (by decide), modImg_rd, apart _ _ _ _ (by decide) (by decide),
      apart _ _ _ _ (by decide) (by decide), same _ _ _ (by decide)]
    exact Nat.mod_eq_of_lt hcode
  · rw [apart _ _ _ _ (by decide) (by decide), modImg_rd, apart _ _ _ _ (by decide) (by decide), same _ _ _ (by decide)]
    exact Nat.mod_eq_of_lt hsec
  · rw [apart _ _ _ _ (by decide) (by decide), modImg_rd, same _ _ _ (by decide)]
    rfl

theorem Within.imgRefused {q : List Part} {s t : State} (h : Within refusalFields q s t) (hq : .img ∈ q) (code sec off : Nat) :
    Within refusalFields q s (imgRefused code sec off t) := by
  rw [imgRefused_eq]
  exact ((((h.wr (by simp) (by decide) _).wr (by simp) (by decide) _).wr (by simp) (by decide) _).modImg hq _).setLoadState
    (by simp) _

/-- Outside the boot load a refusal ends the load: no other copy follows (R72). -/
theorem imgRefuse_of_not_boot {s : State} (hboot : s.img.boot = false) (code sec off : Nat) :
    imgRefuse code sec off s = modImg (fun o => { o with boot := false }) ((imgRefused code sec off s).raise 0x0202 code) := by
  simp [imgRefuse, imgRefused_img, hboot]

/-- A command that refuses a load other than the boot load. -/
theorem exec_imgRefuse {c : Instr} {s u x : State} {code sec off : Nat} (hc : WellFormed c) (h : exec c s = checked c x)
    (hx : x = imgRefuse code sec off u) (hcode : code < 256) (hsec : sec < 16) (hboot : u.img.boot = false)
    (hu : Within refusalFields [.img] s u) :
    ∃ t, exec c s = .next t ∧ t.rd R.IMG_STATUS_LOAD_STATE = 7 ∧ t.rd R.IMG_STATUS_CODE = code ∧
      t.rd R.IMG_STATUS_SECTION = sec ∧ t.rd R.IMG_DETAIL_OFFSET = off % 2 ^ 32 ∧
      t.img = { u.img with staging := [], todo := [] } ∧ Within refusalFields [.img] s t := by
  refine ⟨_, exec_of_wf hc h, ?_⟩
  rw [hx, imgRefuse_of_not_boot hboot]
  obtain ⟨hstate, hcode', hsec', hoff⟩ := imgRefused_rd code sec off u hcode hsec
  refine ⟨?_, ?_, ?_, ?_, ?_, (((hu.imgRefused (by simp) _ _ _).queue (.raise _ _ _)).modImg (by simp) _).queue (.flushEvents _)⟩
  · rw [State.flushEvents_rd _ _ (by decide), modImg_rd, State.raise_rd, hstate]
  · rw [State.flushEvents_rd _ _ (by decide), modImg_rd, State.raise_rd, hcode']
  · rw [State.flushEvents_rd _ _ (by decide), modImg_rd, State.raise_rd, hsec']
  · rw [State.flushEvents_rd _ _ (by decide), modImg_rd, State.raise_rd, hoff]
  · rw [State.flushEvents_img, modImg_img, State.raise_img, imgRefused_img, ← hboot]

/-! ### IMG_GO (R77) -/

theorem imgGo_of_busy {s : State} (h : 1 ≤ loadState s ∧ loadState s ≤ 5) : imgGo s = s.wr R.IMG_STATUS_BUSY_HIT 1 := by
  rw [imgGo, if_pos h]

theorem imgGo_of_idle {s : State} (h : ¬(1 ≤ loadState s ∧ loadState s ≤ 5)) (hsrc : s.rd R.IMG_CTRL_SRC = 0)
    (halign : s.rd R.IMG_SRC_LO_ADDR % 64 = 0) :
    imgGo s = imgStart 0 (s.rd R.IMG_SRC_LO_ADDR) false false
      (modImg (fun o => { o with wait := s.rd R.IMG_CTRL_WAIT_TICKS, boot := false, secondary := false }) s) := by
  rw [imgGo, if_neg h]
  simp [hsrc, halign]

theorem imgGo_begins (s : State) (hidle : s.rd R.IMG_STATUS_LOAD_STATE = 0 ∨ 6 ≤ s.rd R.IMG_STATUS_LOAD_STATE)
    (hsrc : s.rd R.IMG_CTRL_SRC = 0) (halign : s.rd R.IMG_SRC_LO_ADDR % 64 = 0) :
    ∃ t, exec .imgGo s = .next t ∧ t.rd R.IMG_STATUS_LOAD_STATE = 1 ∧
      t.img = { s.img with
        staging := [], src := 0, addr := s.rd R.IMG_SRC_LO_ADDR, boot := false, secondary := false, headerRead := false
        wait := s.rd R.IMG_CTRL_WAIT_TICKS, waited := 0, todo := [] } ∧
      FieldsOnly [R.IMG_STATUS_LOAD_STATE] s t ∧ ChangesOnly (queueParts ++ [.img]) s t := by
  have hnot : ¬(1 ≤ loadState s ∧ loadState s ≤ 5) := by unfold loadState; omega
  refine exec_setLoadState rfl rfl (imgGo_of_idle hnot hsrc halign) (by decide) ?_ ?_
  · exact (((Within.refl _ _ s).modImg (by simp) _).queue (.readImage _ _ _ _)).modImg (by simp) _
  · rw [modImg_img, readImage_img, modImg_img]

theorem imgGo_busy (s : State) (hlow : 1 ≤ s.rd R.IMG_STATUS_LOAD_STATE) (hhigh : s.rd R.IMG_STATUS_LOAD_STATE ≤ 5) :
    ∃ t, exec .imgGo s = .next t ∧ t.rdb R.IMG_STATUS_BUSY_HIT = true ∧ t.img = s.img ∧
      FieldsOnly [R.IMG_STATUS_BUSY_HIT] s t ∧ ChangesOnly queueParts s t := by
  refine ⟨_, exec_of_wf rfl rfl, ?_⟩
  rw [imgGo_of_busy ⟨hlow, hhigh⟩]
  refine ⟨?_, by rw [State.flushEvents_img, State.wr_img],
    ((Within.refl _ [] s).wr (by simp) (by decide) _).queue (.flushEvents _)⟩
  rw [State.rdb, State.flushEvents_rd _ _ (by decide), State.rd_wr _ _ _ (by decide)]
  rfl

/-! ### IMG_READ_DONE (R552) -/

section
variable {s : State} {bs : List Byte} (hstate : loadState s = 1)
include hstate

theorem imgReadDone_of_failed (o : Nat) : imgReadDone bs (some o) s = imgRefuse 1 0 o s := by
  rw [imgReadDone, if_neg (not_not.mpr hstate)]

theorem imgReadDone_of_header (hread : s.img.headerRead = false) (hlen : bs.length = 0x200) (hgood : headerFaults bs = []) :
    imgReadDone bs none s = readImage s.img.src (s.img.addr + 0x200) (imageSize bs - 0x200)
      (modImg (fun o => { o with staging := bs, headerRead := true }) s) := by
  simp [imgReadDone, hstate, hread, hlen, hgood]

theorem imgReadDone_of_body (hread : s.img.headerRead = true) (hlen : bs.length + 0x200 = imageSize s.img.staging) :
    imgReadDone bs none s = setLoadState 2 (modImg (fun o => { o with staging := o.staging ++ bs }) s) := by
  simp [imgReadDone, hstate, hread, hlen]

end

theorem imgReadDone_header (s : State) (bs : List Byte) (hstate : s.rd R.IMG_STATUS_LOAD_STATE = 1)
    (hread : s.img.headerRead = false) (hlen : bs.length = 0x200) (hgood : headerFaults bs = []) :
    ∃ t, exec (.imgReadDone bs none) s = .next t ∧ t.img = { s.img with staging := bs, headerRead := true } ∧
      FieldsOnly [] s t ∧ ChangesOnly (queueParts ++ [.img]) s t := by
  refine exec_sameLoadState rfl rfl (imgReadDone_of_header hstate hread hlen hgood) ?_ ?_
  · exact ((Within.refl _ _ s).modImg (by simp) _).queue (.readImage _ _ _ _)
  · rw [readImage_img, modImg_img]

theorem imgReadDone_body (s : State) (bs : List Byte) (hstate : s.rd R.IMG_STATUS_LOAD_STATE = 1)
    (hread : s.img.headerRead = true) (hlen : bs.length + 0x200 = imageSize s.img.staging) :
    ∃ t, exec (.imgReadDone bs none) s = .next t ∧ t.img = { s.img with staging := s.img.staging ++ bs } ∧
      t.rd R.IMG_STATUS_LOAD_STATE = 2 ∧ FieldsOnly [R.IMG_STATUS_LOAD_STATE] s t ∧ ChangesOnly (queueParts ++ [.img]) s t := by
  obtain ⟨t, ht, hnew, himg, hframe⟩ := exec_setLoadState (c := .imgReadDone bs none) rfl rfl
    (imgReadDone_of_body hstate hread hlen) (by decide) ((Within.refl _ _ s).modImg (by simp) _) rfl
  exact ⟨t, ht, himg, hnew, hframe⟩

theorem imgReadDone_failed (s : State) (bs : List Byte) (o : Nat) (ho : o < 2 ^ 22)
    (hstate : s.rd R.IMG_STATUS_LOAD_STATE = 1) (hboot : s.img.boot = false) :
    ∃ t, exec (.imgReadDone bs (some o)) s = .next t ∧ t.rd R.IMG_STATUS_LOAD_STATE = 7 ∧ t.rd R.IMG_STATUS_CODE = 1 ∧
      t.rd R.IMG_DETAIL_OFFSET = o ∧ t.img.staging = [] ∧ FieldsOnly refusalFields s t ∧
      ChangesOnly (queueParts ++ [.img]) s t := by
  obtain ⟨t, ht, hnew, hcode, -, hoff, himg, hframe⟩ := exec_imgRefuse (c := .imgReadDone bs (some o)) (decide_eq_true ho) rfl
    (imgReadDone_of_failed hstate o) (by decide) (by decide) hboot (.refl _ _ s)
  exact ⟨t, ht, hnew, hcode, hoff.trans (Nat.mod_eq_of_lt (by omega)), by rw [himg], hframe⟩

/-! ### IMG_VERIFY_DONE (R65 to R68) -/

/-- The public key that an image is signed with (R65). -/
def imageKey (d : List Byte) : List Byte := (d.drop 0x40).take 96

theorem imgVerifyDone_of_unknown {s : State} (hstate : loadState s = 2)
    (hprov : (s.fuses.hash0.isSome || s.fuses.hash1.isSome) = true)
    (hkey : keyKnown s.fuses (sha384 (imageKey s.img.staging)) = false) :
    imgVerifyDone s = imgRefuse 6 0 0x40 s := by
  rw [imgVerifyDone, if_neg (not_not.mpr hstate)]
  extract_lets d n key provisioned sig
  rw [if_pos]
  rw [Bool.and_eq_true, Bool.not_eq_true']
  exact ⟨hprov, hkey⟩

theorem imgVerifyDone_of_good {s : State} {n : Nat} {q sg : List Byte} (hstate : loadState s = 2)
    (hn : n = s.img.staging.length - 96) (hq : q = imageKey s.img.staging) (hsg : sg = s.img.staging.drop n)
    (hprov : (s.fuses.hash0.isSome || s.fuses.hash1.isSome) = false)
    (hsig : ecdsaVerify (ofBeBytes (q.take 48)) (ofBeBytes (q.drop 48)) (s.img.staging.take n) (ofBeBytes (sg.take 48))
      (ofBeBytes (sg.drop 48)) = true)
    (hsvn : s.fuses.svn ≤ imageSvn s.img.staging) (hfull : imagePartial s.img.staging = false) :
    imgVerifyDone s = setLoadState 3 (modImg (fun o => { o with unprov := true }) s) := by
  subst hn hq hsg
  rw [imgVerifyDone, if_neg (not_not.mpr hstate)]
  extract_lets d n key provisioned sig
  have hprov' : provisioned = false := hprov
  have hsig' : ecdsaVerify (ofBeBytes (key.take 48)) (ofBeBytes (key.drop 48)) (d.take n) (ofBeBytes (sig.take 48))
      (ofBeBytes (sig.drop 48)) = true := hsig
  have hfull' : imagePartial d = false := hfull
  rw [hprov', hsig', hfull', if_neg (by simp), if_neg (by simp), if_neg]
  · rfl
  · simpa using hsvn

theorem imgVerifyDone_unknown (s : State) (h : List Byte) (hstate : s.rd R.IMG_STATUS_LOAD_STATE = 2)
    (hboot : s.img.boot = false) (hhash : s.fuses.hash0 = some h)
    (hkey : keyKnown s.fuses (sha384 ((s.img.staging.drop 0x40).take 96)) = false) :
    ∃ t, exec .imgVerifyDone s = .next t ∧ t.rd R.IMG_STATUS_LOAD_STATE = 7 ∧ t.rd R.IMG_STATUS_CODE = 6 ∧
      t.rd R.IMG_DETAIL_OFFSET = 0x40 ∧ FieldsOnly refusalFields s t ∧ ChangesOnly (queueParts ++ [.img]) s t := by
  obtain ⟨t, ht, hnew, hcode, -, hoff, -, hframe⟩ := exec_imgRefuse (c := .imgVerifyDone) rfl rfl
    (imgVerifyDone_of_unknown hstate (by simp [hhash]) hkey) (by decide) (by decide) hboot (.refl _ _ s)
  exact ⟨t, ht, hnew, hcode, hoff, hframe⟩

theorem imgVerifyDone_good (s : State) (n : Nat) (q sg : List Byte) (hstate : s.rd R.IMG_STATUS_LOAD_STATE = 2)
    (hn : n = s.img.staging.length - 96) (hq : q = (s.img.staging.drop 0x40).take 96) (hsg : sg = s.img.staging.drop n)
    (hhash0 : s.fuses.hash0 = none) (hhash1 : s.fuses.hash1 = none)
    (hsig : ecdsaVerify (ofBeBytes (q.take 48)) (ofBeBytes (q.drop 48)) (s.img.staging.take n) (ofBeBytes (sg.take 48))
      (ofBeBytes (sg.drop 48)) = true)
    (hsvn : s.fuses.svn ≤ imageSvn s.img.staging) (hfull : imagePartial s.img.staging = false) :
    ∃ t, exec .imgVerifyDone s = .next t ∧ t.rd R.IMG_STATUS_LOAD_STATE = 3 ∧ t.img = { s.img with unprov := true } ∧
      FieldsOnly [R.IMG_STATUS_LOAD_STATE] s t ∧ ChangesOnly (queueParts ++ [.img]) s t :=
  exec_setLoadState rfl rfl (imgVerifyDone_of_good hstate hn hq hsg (by simp [hhash0, hhash1]) hsig hsvn hfull) (by decide)
    ((Within.refl _ _ s).modImg (by simp) _) rfl

/-! ### IMG_VALIDATE_DONE (R70) -/

theorem imgValidateDone_of_partial {s : State} (hstate : loadState s = 3) (hgood : validateFault s s.img.staging = none)
    (hpart : imagePartial s.img.staging = true) :
    imgValidateDone s = setLoadState 4 (modImg (fun o => { o with waited := 0 }) s) := by
  rw [imgValidateDone, if_neg (not_not.mpr hstate)]
  simp only [hgood, hpart, if_true]

theorem imgValidateDone_partial (s : State) (hstate : s.rd R.IMG_STATUS_LOAD_STATE = 3)
    (hgood : validateFault s s.img.staging = none) (hpart : imagePartial s.img.staging = true) :
    ∃ t, exec .imgValidateDone s = .next t ∧ t.rd R.IMG_STATUS_LOAD_STATE = 4 ∧ t.img = { s.img with waited := 0 } ∧
      FieldsOnly [R.IMG_STATUS_LOAD_STATE] s t ∧ ChangesOnly (queueParts ++ [.img]) s t :=
  exec_setLoadState rfl rfl (imgValidateDone_of_partial hstate hgood hpart) (by decide)
    ((Within.refl _ _ s).modImg (by simp) _) rfl

/-! ### IMG_APPLY_STEP_DONE (R73, R75) -/

section
variable {write : Nat → Nat → Nat → State → State} {fails ts : List Nat} {s : State}

/-- The power step was made when the image was accepted, so that its end changes only what is still to be applied. -/
theorem imgApplyStepDone_of_power (hstate : loadState s = 5) (htodo : s.img.todo = 9 :: ts) (hmore : ts ≠ [])
    (hready : stepReady s 9 = true) :
    imgApplyStepDone write true fails s = modImg (fun o => { o with todo := ts }) s := by
  rw [imgApplyStepDone, if_neg (not_not.mpr hstate), htodo]
  simp [hready, hmore]

theorem imgApplyStepDone_of_failed {k : Nat} (hstate : loadState s = 5) (htodo : s.img.todo = k :: ts) :
    imgApplyStepDone write false fails s = imgRefuse 0x11 k (imageOffset s.img.staging k 0)
      (modImg (fun o => { o with failed := some (k, imageOffset s.img.staging k 0) }) s) := by
  rw [imgApplyStepDone, if_neg (not_not.mpr hstate), htodo]
  dsimp only
  rw [if_pos (by simp), applyFail]

end

theorem imgApplyStepDone_power (s : State) (fails ts : List Nat) (hstate : s.rd R.IMG_STATUS_LOAD_STATE = 5)
    (htodo : s.img.todo = 9 :: ts) (hmore : ts ≠ []) (hready : stepReady s 9 = true) :
    ∃ t, exec (.imgApplyStepDone true fails) s = .next t ∧ t.img = { s.img with todo := ts } ∧
      FieldsOnly [] s t ∧ ChangesOnly (queueParts ++ [.img]) s t :=
  exec_sameLoadState rfl rfl (imgApplyStepDone_of_power hstate htodo hmore hready)
    ((Within.refl _ _ s).modImg (by simp) _) rfl

theorem imgApplyStepDone_failed (s : State) (fails ts : List Nat) (k : Nat) (hstate : s.rd R.IMG_STATUS_LOAD_STATE = 5)
    (htodo : s.img.todo = k :: ts) (hk : k < 16) (hboot : s.img.boot = false) :
    ∃ t, exec (.imgApplyStepDone false fails) s = .next t ∧ t.rd R.IMG_STATUS_LOAD_STATE = 7 ∧
      t.rd R.IMG_STATUS_CODE = 0x11 ∧ t.rd R.IMG_STATUS_SECTION = k ∧
      t.img.failed = some (k, imageOffset s.img.staging k 0) ∧ FieldsOnly refusalFields s t ∧
      ChangesOnly (queueParts ++ [.img]) s t := by
  obtain ⟨t, ht, hnew, hcode, hsec, -, himg, hframe⟩ := exec_imgRefuse (c := .imgApplyStepDone false fails) rfl rfl
    (imgApplyStepDone_of_failed hstate htodo) (by decide) hk hboot ((Within.refl _ _ s).modImg (by simp) _)
  exact ⟨t, ht, hnew, hcode, hsec, by rw [himg, modImg_img], hframe⟩

/-! ### IMG_CANCEL and IMG_IDLE_TIMEOUT (R82) -/

theorem imgCancel_of_waiting {s : State} (hstate : loadState s = 4) : imgCancel s = imgRefuse 0x10 0 0 s := by
  rw [imgCancel, if_pos hstate]

theorem imgIdleTimeout_of_waited {s : State} (hstate : loadState s = 4) (hwait : max 1 s.img.wait ≤ s.img.waited) :
    imgIdleTimeout s = imgRefuse 0x0F 0 0 s := by
  rw [imgIdleTimeout, if_pos (by rw [hstate, decide_eq_true hwait]; rfl)]

theorem imgCancel_refuses (s : State) (hstate : s.rd R.IMG_STATUS_LOAD_STATE = 4) (hboot : s.img.boot = false) :
    ∃ t, exec .imgCancel s = .next t ∧ t.rd R.IMG_STATUS_LOAD_STATE = 7 ∧ t.rd R.IMG_STATUS_CODE = 0x10 ∧
      t.img.staging = [] ∧ FieldsOnly refusalFields s t ∧ ChangesOnly (queueParts ++ [.img]) s t := by
  obtain ⟨t, ht, hnew, hcode, -, -, himg, hframe⟩ := exec_imgRefuse (c := .imgCancel) rfl rfl (imgCancel_of_waiting hstate)
    (by decide) (by decide) hboot (.refl _ _ s)
  exact ⟨t, ht, hnew, hcode, by rw [himg], hframe⟩

theorem imgIdleTimeout_refuses (s : State) (hstate : s.rd R.IMG_STATUS_LOAD_STATE = 4) (hboot : s.img.boot = false)
    (hwait : max 1 s.img.wait ≤ s.img.waited) :
    ∃ t, exec .imgIdleTimeout s = .next t ∧ t.rd R.IMG_STATUS_LOAD_STATE = 7 ∧ t.rd R.IMG_STATUS_CODE = 0x0F ∧
      t.img.staging = [] ∧ FieldsOnly refusalFields s t ∧ ChangesOnly (queueParts ++ [.img]) s t := by
  obtain ⟨t, ht, hnew, hcode, -, -, himg, hframe⟩ := exec_imgRefuse (c := .imgIdleTimeout) rfl rfl
    (imgIdleTimeout_of_waited hstate hwait) (by decide) (by decide) hboot (.refl _ _ s)
  exact ⟨t, ht, hnew, hcode, by rw [himg], hframe⟩

/-- Settles O31, command by command and branch by branch. -/
theorem imageLoad : Obligations.ImageLoad := by
  unfold Obligations.ImageLoad
  exact ⟨imgGo_begins, imgGo_busy, imgReadDone_header, imgReadDone_body, imgReadDone_failed, imgVerifyDone_unknown,
    imgVerifyDone_good, imgValidateDone_partial, imgApplyStepDone_power, imgApplyStepDone_failed, imgCancel_refuses,
    imgIdleTimeout_refuses⟩

end Sys2Proof.Machine

/-!
PROOFS. The counterexample to O33: SINK_LINK_LOSS of an unplugged source while a touch panel scans. The port leaves UP, and before
its STATE changes the scans of the panels attached to its flues are counted up to now (R478, R490), which changes the touch block;
the statement's frame for that command leaves the touch block out. A flue that no image defines reads PORT 0, which is a sink.
-/
namespace Sys2Proof.Machine

/-- Sink 0 is up; panel 0, which is attached to flue 0 and drives at 100 kHz, began a scan of eight drive lines a second ago. -/
def scanAtUnplug : State :=
  { (((State.reset.wr (R.PORT_CFG_ENABLE 0) 1).wr (R.PORT_STATUS_STATE 0) 3).wr R.TCH_STATUS_SCANNING 1).wr
      (R.TCH_PNL_DRIVE_F_TX_KHZ 0) 100 with
    touch := { panels := [(0, { count := 8 })] }, time := { sec := 1 } }

theorem portUp_scanAtUnplug : portUp scanAtUnplug 0 = true := by decide +kernel

/-- The loss settles the scan: the pulses of the second so far are counted, and those to come count from now. -/
theorem sinkLinkLoss_scanAtUnplug_panel :
    (sinkLinkLoss 0 0 scanAtUnplug).panel 0 = { count := 8, pulses := 100000, scanNs := 1000000000 } := by decide +kernel

/-- Refutes O33: the clause of an unplugged source does not let the touch block change, and the loss settles the scans of the
panels attached to the port's flues. -/
theorem not_sinkCommands : ¬ Obligations.SinkCommands := by
  unfold Obligations.SinkCommands
  rintro ⟨-, -, -, hunplug, -⟩
  obtain ⟨t, hexec, -, -, -, -, hparts⟩ := hunplug scanAtUnplug 0 (by decide) portUp_scanAtUnplug
  rw [exec_of_wf (u := sinkLinkLoss 0 0 scanAtUnplug) rfl rfl] at hexec
  have htouch : t.touch = scanAtUnplug.touch := hparts .touch (by decide)
  have hbegun : t.panel 0 = { count := 8 } := by rw [State.panel, htouch]; rfl
  rw [← Host.Outcome.next.inj hexec, State.flushEvents_panel, sinkLinkLoss_scanAtUnplug_panel] at hbegun
  cases hbegun

end Sys2Proof.Machine

/-!
PROOFS. The glass sentinel's commands (chapter 07): an evaluation of a code period that does not confirm and one that does (R184,
R185, R187), and a confirmation that is overdue (R186).
-/
namespace Sys2Proof.Machine

/-! ### The fields that a sentinel writes -/

section
variable (f : Nat)

/-- The fields that show the STATE of flue `f`'s sentinel. -/
abbrev glassFields : List Fld := [R.SNT_FLUE_STAT_STATE f, R.SNT_GLASS_SUMMARY_UNCONFIRMED]

/-- The fields that show the lag and the latency of flue `f` (R187). -/
abbrev latencyFields : List Fld := [R.SNT_FLUE_STAT_LAG f, R.SNT_FLUE_LAT_LAT_US f]

/-- The fields that show a confirmation (R185). -/
abbrev resultFields : List Fld := [R.SNT_FLUE_STAT_RHO f, R.SNT_FLUE_STAT_STATE f, R.SNT_FLUE_LAST_LAST_CONFIRM f]

/-- The fields that a confirming evaluation writes (R185, R187). -/
abbrev confirmFields : List Fld :=
  [R.SNT_FLUE_STAT_RHO f, R.SNT_FLUE_LAST_LAST_CONFIRM f] ++ glassFields f ++ latencyFields f

theorem resultFields_subset : resultFields f ⊆ confirmFields f := by simp

theorem confirmFields_ok : ∀ g ∈ confirmFields f, FldOk g := by
  simp [FldOk, R.SNT_FLUE_STAT_RHO, R.SNT_FLUE_LAST_LAST_CONFIRM, R.SNT_FLUE_STAT_STATE, R.SNT_GLASS_SUMMARY_UNCONFIRMED,
    R.SNT_FLUE_STAT_LAG, R.SNT_FLUE_LAT_LAT_US]

/-- The sentinels' registers lie above the event window. -/
theorem confirmFields_notQueue : ∀ g ∈ confirmFields f, queueOffset g.addr = false := by
  have habove (a : Nat) (ha : 0xA0000 ≤ a) : queueOffset a = false := by
    simp only [queueOffset, Bool.or_eq_false_iff, Bool.and_eq_false_iff, decide_eq_false_iff_not]
    omega
  have hlow : ∀ g ∈ confirmFields f, 0xA0000 ≤ g.addr := by
    simp [R.SNT_FLUE_STAT_RHO, R.SNT_FLUE_LAST_LAST_CONFIRM, R.SNT_FLUE_STAT_STATE, R.SNT_GLASS_SUMMARY_UNCONFIRMED,
      R.SNT_FLUE_STAT_LAG, R.SNT_FLUE_LAT_LAT_US]
    omega
  exact fun g hg => habove _ (hlow g hg)

/-- The lag and the latency share no bit with the other results of an evaluation. -/
theorem latencyFields_apart : ∀ g ∈ resultFields f, ∀ x ∈ latencyFields f, FldApart x g := by
  simp [FldApart, R.SNT_FLUE_STAT_RHO, R.SNT_FLUE_LAST_LAST_CONFIRM, R.SNT_FLUE_STAT_STATE, R.SNT_FLUE_STAT_LAG,
    R.SNT_FLUE_LAT_LAT_US]

/-- STATE and its summary share no bit with ρ and the tick of the last confirmation. -/
theorem glassFields_apart : ∀ g ∈ [R.SNT_FLUE_STAT_RHO f, R.SNT_FLUE_LAST_LAST_CONFIRM f],
    ∀ x ∈ glassFields f, FldApart x g := by
  simp [FldApart, R.SNT_FLUE_STAT_RHO, R.SNT_FLUE_LAST_LAST_CONFIRM, R.SNT_FLUE_STAT_STATE, R.SNT_GLASS_SUMMARY_UNCONFIRMED]
  omega

/-- ρ shares no bit with the last confirmation, the threshold and the tick's count. -/
theorem rho_apart : ∀ g ∈ [R.SNT_FLUE_LAST_LAST_CONFIRM f, R.SNT_FLUE_CFG_THRESH f, R.TICK_COUNT_COUNT],
    FldApart (R.SNT_FLUE_STAT_RHO f) g ∧ FldApart g (R.SNT_FLUE_STAT_RHO f) := by
  simp [FldApart, R.SNT_FLUE_STAT_RHO, R.SNT_FLUE_LAST_LAST_CONFIRM, R.SNT_FLUE_CFG_THRESH, R.TICK_COUNT_COUNT]
  omega

end

/-! ### A bit of a field -/

theorem bitOf_eq_bits (x i : Nat) : bitOf x i = (bits x i i == 1) := by
  simp [bitOf, bits]

/-- A bit set in a field is read there. -/
theorem bitOf_setBit_same (s : State) {g : Fld} {i : Nat} (hg : FldOk g) (hi : g.lo + i ≤ g.hi) (b : Bool) :
    bitOf ((setBit g i b s).rd g) i = b := by
  have hfits : putBits (s.rd g) i i (b2n b) < 2 ^ (g.hi + 1 - g.lo) :=
    putBits_lt _ _ _ _ _ (s.rd_lt g) le_rfl (by omega)
  rw [setBit, State.rd_wr _ _ _ hg, Nat.mod_eq_of_lt hfits, bitOf_eq_bits, bits_putBits_same _ _ _ _ le_rfl]
  cases b <;> simp [b2n]

/-! ### STATE and its bit of the summary -/

section
variable {f : Nat} {l : List Fld} {q : List Part} {s t : State}

theorem setGlass_state (f st : Nat) (s : State) : (setGlass f st s).rd (R.SNT_FLUE_STAT_STATE f) = st % 4 := by
  have hd : FldApart R.SNT_GLASS_SUMMARY_UNCONFIRMED (R.SNT_FLUE_STAT_STATE f) := by
    simp [FldApart, R.SNT_GLASS_SUMMARY_UNCONFIRMED, R.SNT_FLUE_STAT_STATE]
  rw [setGlass, setBit, State.rd_wr_apart _ _ _ _ (by decide) hd, State.rd_wr _ _ _ (confirmFields_ok f _ (by simp))]
  simp [R.SNT_FLUE_STAT_STATE]

theorem setGlass_summary (hf : f < 24) (st : Nat) (s : State) :
    bitOf ((setGlass f st s).rd R.SNT_GLASS_SUMMARY_UNCONFIRMED) f = (st == 3) :=
  bitOf_setBit_same _ (by decide) (by simp [R.SNT_GLASS_SUMMARY_UNCONFIRMED]; omega) _

theorem Within.setGlass (h : Within l q s t) (hl : glassFields f ⊆ l) (st : Nat) : Within l q s (setGlass f st t) :=
  (h.wr (hl (by simp)) (confirmFields_ok f _ (by simp)) _).wr (hl (by simp)) (by decide) _

theorem Within.setFlue (h : Within l q s t) (hq : .comp ∈ q) (f : Nat) (o : FlueState) : Within l q s (t.setFlue f o) :=
  ⟨h.1.of_regs rfl, (ChangesOnly.closed _ s).setFlue (by simp [hq]) t f o h.2⟩

/-! ### The latency of a confirming evaluation (R187) -/

theorem Within.refineLatency (h : Within l q s t) (hl : latencyFields f ⊆ l) (hq : .comp ∈ q) (lats : List Nat) (lag : Nat) :
    Within l q s (refineLatency f lats lag t) := by
  unfold Machine.refineLatency
  extract_lets s1 n sum s2 lim past was before s3
  have h1 : Within l q s s1 := h.wr (hl (by simp)) (confirmFields_ok f _ (by simp)) _
  have h2 : Within l q s s2 := by
    unfold s2
    split
    · exact h1
    · exact h1.wr (hl (by simp)) (confirmFields_ok f _ (by simp)) _
  have h3 : Within l q s s3 := h2.setFlue hq f _
  split
  · exact h3.queue (.raise _ _ _)
  · exact h3

end

/-! ### SENTINEL_EVALUATION (R184, R185) -/

/-- The correlation that an evaluation of flue `f` over the period `ts` reports, when PD6 is powered: the first of the eight that no
other exceeds (R184). -/
def greatestCorr (s : State) (f : Nat) (samples ts : List Nat) : Option Corr :=
  ((List.range 8).map (correlate ((s.tick.current.map fun sh => sh.rd (R.SNT_FLUE_CFG_CODE f)).getD (s.rd (R.SNT_FLUE_CFG_CODE f)))
    samples ts ((((ts.headD 0 : Nat) : Int) + s.time.offset + 9999) / 10000 * 10000 - s.time.offset).toNat
    (s.rd R.TICK_PERIOD_NS_PERIOD / (1 + s.rd (R.CMP_FLUE_CTRL_X2 f))))).foldl (fun b c =>
      match b with | none => some c | some x => if corrGreater c x then some c else b) none

/-- A confirmation at ρ byte `rho`, before the latency is refined (R185). -/
def confirmGlass (f rho : Nat) (s : State) : State :=
  let r := s.wr (R.SNT_FLUE_STAT_RHO f) rho
  let t := setGlass f 2 (r.wr (R.SNT_FLUE_LAST_LAST_CONFIRM f) (r.rd R.TICK_COUNT_COUNT))
  let t := t.setFlue f { t.flue f with seekTick := t.rd R.TICK_COUNT_COUNT }
  if r.rd (R.SNT_FLUE_STAT_STATE f) = 1 ∨ r.rd (R.SNT_FLUE_STAT_STATE f) = 3 then t.raise 0x0702 f else t

section
variable {s : State} {f : Nat} {samples ts : List Nat} {c : Corr}

/-- What an evaluation does with the correlation it reports. -/
theorem sentinelEvaluation_of_greatest (hon : sentinelOn s f = true) (hrun : s.rdb (R.SNT_FLUE_STAT_SUSPENDED f) = false)
    (hts : periodTimes (s.flue f) = some ts) (hpower : s.powered 6 = true) (hbest : greatestCorr s f samples ts = some c) :
    ∃ lats, sentinelEvaluation f samples s =
      if corrAtLeast c ((s.wr (R.SNT_FLUE_STAT_RHO f) (rhoByte c)).rd (R.SNT_FLUE_CFG_THRESH f)) then
        refineLatency f lats c.lag (confirmGlass f (rhoByte c) s)
      else s.wr (R.SNT_FLUE_STAT_RHO f) (rhoByte c) := by
  rw [sentinelEvaluation, if_neg (by simp [hon, hrun])]
  split
  · next hnone => simp [hts] at hnone
  next ts' hts' =>
  obtain rfl : ts = ts' := Option.some.inj (hts.symm.trans hts')
  extract_lets used code period w0 cs best
  have hused : used = samples := if_pos hpower
  have hcode : code = (s.tick.current.map fun sh => sh.rd (R.SNT_FLUE_CFG_CODE f)).getD (s.rd (R.SNT_FLUE_CFG_CODE f)) := by
    unfold code
    cases s.tick.current <;> rfl
  have hgreatest : best = some c := by
    unfold best cs
    rw [hused, hcode]
    exact hbest
  rw [hgreatest]
  exact ⟨risingLatencies code used ts w0 period c, rfl⟩

theorem wr_rho_rd (f v : Nat) (s : State) :
    (s.wr (R.SNT_FLUE_STAT_RHO f) v).rd (R.SNT_FLUE_STAT_RHO f) = v % 256 := by
  rw [State.rd_wr _ _ _ (confirmFields_ok f _ (by simp))]
  simp [R.SNT_FLUE_STAT_RHO]

/-- Writing ρ leaves the threshold and the tick's count as they are. -/
theorem wr_rho_rd_apart (v : Nat) (s : State) {g : Fld} (hg : g ∈ [R.SNT_FLUE_CFG_THRESH f, R.TICK_COUNT_COUNT]) :
    (s.wr (R.SNT_FLUE_STAT_RHO f) v).rd g = s.rd g :=
  State.rd_wr_apart _ _ _ _ (confirmFields_ok f _ (by simp)) (rho_apart f g (List.mem_cons_of_mem _ hg)).1

theorem sentinelEvaluation_below (s : State) (f : Nat) (samples ts : List Nat) (c : Corr) (hf : f < 24)
    (hon : sentinelOn s f = true) (hrun : s.rdb (R.SNT_FLUE_STAT_SUSPENDED f) = false)
    (hts : periodTimes (s.flue f) = some ts) (hpower : s.powered 6 = true) (hbest : greatestCorr s f samples ts = some c)
    (hlow : corrAtLeast c (s.rd (R.SNT_FLUE_CFG_THRESH f)) = false) :
    ∃ t, exec (.sentinelEvaluation f samples) s = .next t ∧ t.rd (R.SNT_FLUE_STAT_RHO f) = rhoByte c % 256 ∧
      FieldsOnly [R.SNT_FLUE_STAT_RHO f] s t ∧ ChangesOnly queueParts s t := by
  obtain ⟨lats, heval⟩ := sentinelEvaluation_of_greatest hon hrun hts hpower hbest
  rw [wr_rho_rd_apart _ _ (by simp), if_neg (by simp [hlow])] at heval
  have hframe : Within [R.SNT_FLUE_STAT_RHO f] [] s (s.wr (R.SNT_FLUE_STAT_RHO f) (rhoByte c)) :=
    (Within.refl _ _ s).wr (by simp) (confirmFields_ok f _ (by simp)) _
  refine ⟨_, exec_of_wf (by simpa [WellFormed, Instr.wf] using hf) rfl, ?_⟩
  rw [heval]
  exact ⟨by rw [State.flushEvents_rd _ _ (confirmFields_notQueue f _ (by simp)), wr_rho_rd], hframe.queue (.flushEvents _)⟩

/-! ### A confirmation -/

theorem Within.confirmGlass {l : List Fld} {q : List Part} (hl : confirmFields f ⊆ l) (hq : .comp ∈ q) (rho : Nat) (s : State) :
    Within l q s (confirmGlass f rho s) := by
  have hwr {t : State} (h : Within l q s t) {g : Fld} (hg : g ∈ confirmFields f) (v : Nat) : Within l q s (t.wr g v) :=
    h.wr (hl hg) (confirmFields_ok f g hg) v
  unfold Machine.confirmGlass
  extract_lets r t1 before t2
  have hglass : glassFields f ⊆ l := List.Subset.trans (by simp) hl
  have h1 : Within l q s t1 := (hwr (hwr (.refl _ _ s) (by simp) _) (by simp) _).setGlass hglass 2
  have h2 : Within l q s t2 := h1.setFlue hq f _
  split
  · exact h2.queue (.raise _ _ _)
  · exact h2

/-- The event of a confirmation and the start of its interval change no field. -/
theorem confirmGlass_rd (rho : Nat) (s : State) (g : Fld) : (confirmGlass f rho s).rd g =
    (setGlass f 2 ((s.wr (R.SNT_FLUE_STAT_RHO f) rho).wr (R.SNT_FLUE_LAST_LAST_CONFIRM f) (s.rd R.TICK_COUNT_COUNT))).rd g := by
  unfold Machine.confirmGlass
  extract_lets r t1 before t2
  have h2 : t2.rd g = t1.rd g := State.setFlue_rd _ _ _ _
  have hcount : r.rd R.TICK_COUNT_COUNT = s.rd R.TICK_COUNT_COUNT := wr_rho_rd_apart _ _ (by simp)
  rw [← hcount]
  split
  · rw [State.raise_rd, h2]
  · exact h2

theorem confirmGlass_results (rho : Nat) (s : State) : (confirmGlass f rho s).rd (R.SNT_FLUE_STAT_RHO f) = rho % 256 ∧
    (confirmGlass f rho s).rd (R.SNT_FLUE_STAT_STATE f) = 2 ∧
    (confirmGlass f rho s).rd (R.SNT_FLUE_LAST_LAST_CONFIRM f) = s.rd R.TICK_COUNT_COUNT := by
  have hstate (t : State) {g : Fld} (hg : g ∈ [R.SNT_FLUE_STAT_RHO f, R.SNT_FLUE_LAST_LAST_CONFIRM f]) :
      (setGlass f 2 t).rd g = t.rd g :=
    ((Within.refl (glassFields f) [] t).setGlass (List.Subset.refl _) 2).1 g (glassFields_apart f g hg)
      (confirmFields_notQueue f g (List.mem_append_left _ (List.mem_append_left _ hg)))
  have hlast : FldOk (R.SNT_FLUE_LAST_LAST_CONFIRM f) := confirmFields_ok f _ (by simp)
  simp only [confirmGlass_rd]
  refine ⟨?_, setGlass_state f 2 _, ?_⟩
  · rw [hstate _ (by simp), State.rd_wr_apart _ _ _ _ hlast (rho_apart f _ (by simp)).2, wr_rho_rd]
  · rw [hstate _ (by simp), State.rd_wr _ _ _ hlast]
    exact Nat.mod_eq_of_lt (s.rd_lt R.TICK_COUNT_COUNT)

theorem sentinelEvaluation_confirms (s : State) (f : Nat) (samples ts : List Nat) (c : Corr) (hf : f < 24)
    (hon : sentinelOn s f = true) (hrun : s.rdb (R.SNT_FLUE_STAT_SUSPENDED f) = false)
    (hts : periodTimes (s.flue f) = some ts) (hpower : s.powered 6 = true) (hbest : greatestCorr s f samples ts = some c)
    (hhigh : corrAtLeast c (s.rd (R.SNT_FLUE_CFG_THRESH f)) = true) :
    ∃ t, exec (.sentinelEvaluation f samples) s = .next t ∧ t.rd (R.SNT_FLUE_STAT_RHO f) = rhoByte c % 256 ∧
      t.rd (R.SNT_FLUE_STAT_STATE f) = 2 ∧ t.rd (R.SNT_FLUE_LAST_LAST_CONFIRM f) = s.rd R.TICK_COUNT_COUNT ∧
      ChangesOnly (queueParts ++ [.comp]) s t := by
  obtain ⟨lats, heval⟩ := sentinelEvaluation_of_greatest hon hrun hts hpower hbest
  rw [wr_rho_rd_apart _ _ (by simp), if_pos hhigh] at heval
  obtain ⟨hrho, hstate, hlast⟩ := confirmGlass_results (f := f) (rhoByte c) s
  have hframe : Within (confirmFields f) [.comp] s (refineLatency f lats c.lag (confirmGlass f (rhoByte c) s)) :=
    (Within.confirmGlass (List.Subset.refl _) (by simp) _ s).refineLatency (List.subset_append_right _ _) (by simp) _ _
  have hkept {g : Fld} (hg : g ∈ resultFields f) :
      (refineLatency f lats c.lag (confirmGlass f (rhoByte c) s)).flushEvents.rd g = (confirmGlass f (rhoByte c) s).rd g :=
    (((Within.refl (latencyFields f) [.comp] _).refineLatency (List.Subset.refl _) (by simp) lats c.lag).queue
      (.flushEvents _)).1 g (latencyFields_apart f g hg) (confirmFields_notQueue f g (resultFields_subset f hg))
  refine ⟨_, exec_of_wf (by simpa [WellFormed, Instr.wf] using hf) rfl, ?_⟩
  rw [heval]
  exact ⟨(hkept (by simp)).trans hrho, (hkept (by simp)).trans hstate, (hkept (by simp)).trans hlast,
    (hframe.queue (.flushEvents _)).2⟩

end

/-! ### GLASS_UNCONFIRMED (R186) -/

theorem glassUnconfirmed_overdue (s : State) (f : Nat) (hf : f < 24) (hon : sentinelOn s f = true)
    (hrun : s.rdb (R.SNT_FLUE_STAT_SUSPENDED f) = false)
    (hstate : s.rd (R.SNT_FLUE_STAT_STATE f) = 1 ∨ s.rd (R.SNT_FLUE_STAT_STATE f) = 2)
    (hlate : max 32 (s.rd (R.SNT_FLUE_LIMIT_CONFIRM_TICKS f)) ≤
      (s.rd R.TICK_COUNT_COUNT + 2 ^ 32 - (s.flue f).seekTick) % 2 ^ 32) :
    ∃ t, exec (.glassUnconfirmed f) s = .next t ∧ t.rd (R.SNT_FLUE_STAT_STATE f) = 3 ∧
      bitOf (t.rd R.SNT_GLASS_SUMMARY_UNCONFIRMED) f = true ∧ FieldsOnly (glassFields f) s t ∧ ChangesOnly queueParts s t := by
  have heffect : glassUnconfirmed f s = (setGlass f 3 s).raise 0x0701 f := by
    rw [glassUnconfirmed]
    exact if_pos (by simpa only [hon, hrun, hlate, Bool.not_false, Bool.and_self, Bool.true_and, Bool.and_true, decide_true,
      Bool.or_eq_true, beq_iff_eq] using hstate)
  have hframe : Within (glassFields f) [] s (setGlass f 3 s) := (Within.refl _ _ s).setGlass (List.Subset.refl _) 3
  refine ⟨_, exec_of_wf (by simpa [WellFormed, Instr.wf] using hf) rfl, ?_⟩
  rw [heffect]
  refine ⟨?_, ?_, (hframe.queue (.raise _ _ _)).queue (.flushEvents _)⟩
  · rw [State.flushEvents_rd _ _ (confirmFields_notQueue f _ (by simp)), State.raise_rd, setGlass_state]
  · rw [State.flushEvents_rd _ _ (by decide), State.raise_rd, setGlass_summary hf]
    rfl

/-- Settles O24: an evaluation below the threshold and one at or above it, then a confirmation that is overdue. -/
theorem sentinelCommands : Obligations.SentinelCommands := by
  unfold Obligations.SentinelCommands
  exact ⟨sentinelEvaluation_below, sentinelEvaluation_confirms, glassUnconfirmed_overdue⟩

end Sys2Proof.Machine

/-!
PROOFS. The engines of the codecs take what is ready for them (R279, R304): this changes nothing of composition, and nothing at all
when no job is ready.
-/
namespace Sys2Proof.Machine

/-- The parts that change when engines take jobs. -/
abbrev engineParts : List Part := queueParts ++ [.codec, .ports]

section
variable {K : List Part} {P : State → Prop} (h : Closed K P) (hK : engineParts ⊆ K)
include h hK

theorem Closed.dropTx (p : Nat) (s : State) (hs : P s) : P (dropTx p s) :=
  h.raiseOnce (hK (by decide)) _ _ _ (h.wr (hK (by decide)) _ _ _ hs)

theorem Closed.sendNet (p dst : Nat) (m : Sent) (s : State) (hs : P s) : P (sendNet p dst m s) := by
  have hsend (t : State) (m : Sent) (ht : P t) : P (t.send m) := h.send (hK (by decide)) _ _ ht
  have hport (t : State) (o : PortState) (ht : P t) : P (t.setPort p o) := h.setPort (hK (by decide)) _ _ _ ht
  unfold Machine.sendNet
  refine closed_ite hs (closed_ite (h.dropTx hK p s hs) (closed_ite (hsend _ _ hs) ?_))
  extract_lets hop o use s1
  split
  · exact hsend _ _ (hport _ _ hs)
  · exact hsend _ _ (hport _ _ hs)

theorem Closed.sendPli (r keyreq : Nat) (s : State) (hs : P s) : P (sendPli r keyreq s).2 := by
  unfold Machine.sendPli
  extract_lets st gap early
  split
  · exact hs
  · exact h.sendNet hK _ _ _ _ (h.setReel (hK (by decide)) _ _ _ hs)

theorem Closed.parseAu (r : Nat) (a : AccessUnit) (s : State) (hs : P s) : P (parseAu r a s) := by
  unfold Machine.parseAu
  extract_lets st bad o s1
  have h1 : P s1 := h.setReel (hK (by decide)) _ _ _ hs
  exact closed_when (h.raiseOnce (hK (by decide)) _ _ _) (h.wr (hK (by decide)) _ _ _ h1)

theorem Closed.takeAu (r : Nat) (a : AccessUnit) (s : State) (hs : P s) : P (takeAu r a s).2 := by
  have hwr (t : State) (x : Fld) (v : Nat) (ht : P t) : P (t.wr x v) := h.wr (hK (by decide)) _ _ _ ht
  have hreel (t : State) (o : ReelState) (ht : P t) : P (t.setReel r o) := h.setReel (hK (by decide)) _ _ _ ht
  unfold Machine.takeAu
  extract_lets s1 c par u lvl was intra o s2 s3
  have h1 : P s1 := h.parseAu hK r a s hs
  clear_value s1
  split
  · split
    · exact h1
    · exact h.raise (hK (by decide)) _ _ _ (hwr _ _ _ (hwr _ _ _ (hreel _ _ h1)))
  have h3 : P s3 := closed_ite (hwr _ _ _ (hwr _ _ _ h1)) h1
  clear_value s3 par u
  split
  · exact h1
  split
  · exact h1
  extract_lets s4
  have h4 : P s4 := hwr _ _ _ (hwr _ _ _ h3)
  clear_value s4
  split
  · exact hwr _ _ _ h4
  split
  · exact closed_ite (h.sendPli hK _ _ _ h4) h4
  · exact hreel _ _ h4

theorem Closed.saveContext (v r : Nat) (s : State) (hs : P s) : P (saveContext v r s) := by
  unfold Machine.saveContext
  split
  · exact hs
  · exact closed_ite hs (h.setReel (hK (by decide)) _ _ _ hs)

theorem Closed.engineTake (d n : Nat) (s : State) (hs : P s) : P (engineTake d n s) := by
  induction n generalizing s with
  | zero => exact hs
  | succ n ih =>
    unfold Machine.engineTake
    split
    · exact hs
    split
    · exact hs
    have htaken (r : Nat) (a : AccessUnit) :
        P (Machine.takeAu r a (s.setReel r { s.reel r with ready := (s.reel r).ready.drop 1 })).2 :=
      h.takeAu hK r a _ (h.setReel (hK (by decide)) _ _ _ hs)
    have hengine (t : State) (v : Nat) (o : EngineState) (ht : P t) : P (t.setEngine v o) :=
      h.setEngine (hK (by decide)) _ _ _ ht
    split
    · split
      · exact hs
      next a _ =>
      exact ih _ (closed_ite (hengine _ _ _ (h.saveContext hK _ _ _ (htaken _ a))) (htaken _ a))
    · exact ih _ (h.wr (hK (by decide)) _ _ _ (hengine _ _ _ (h.setEnc (hK (by decide)) _ _ _ (h.saveContext hK _ _ _ hs))))

theorem Closed.dispatchEngines (s : State) (hs : P s) : P (dispatchEngines s) :=
  h.engineTake hK _ _ _ (h.engineTake hK _ _ _ hs)

end

@[simp] theorem dispatchEngines_comp (s : State) : (dispatchEngines s).comp = s.comp :=
  (ChangesOnly.closed engineParts s).dispatchEngines (List.Subset.refl _) s (.refl _ s) .comp (by decide)

theorem engineTake_of_noJobReady {s : State} (h : noJobReady s) (d n : Nat) : engineTake d n s = s := by
  cases n with
  | zero => rfl
  | succ n =>
    have hjobs : engineJobs s d = [] := by
      refine List.filterMap_eq_nil_iff.mpr fun r hr => ?_
      obtain ⟨hreel, henc⟩ := h r (List.mem_range.mp hr)
      simp [nextAu, hreel, henc]
    simp [engineTake, hjobs, firstJob]

theorem dispatchEngines_of_noJobReady {s : State} (h : noJobReady s) : dispatchEngines s = s := by
  rw [dispatchEngines, engineTake_of_noJobReady h, engineTake_of_noJobReady h]

end Sys2Proof.Machine

/-!
PROOFS. The voter (R195 to R203): what keeps the votes and the cut-offs of a frame, and the decisions that a signature or a cut-off
makes.
-/
namespace Sys2Proof.Machine

/-! ### What keeps the votes of a frame -/

/-- A frame keeps its number, its sheet, its votes and the cut-offs of its bands. -/
structure SameVotes (q q' : FrameRun) : Prop where
  serial : q'.serial = q.serial
  sheet : q'.sheet = q.sheet
  votes : q'.votes = q.votes
  cut : ∀ k, (q'.band k).cut = (q.band k).cut

theorem SameVotes.of_bands {q q' : FrameRun} (hs : q'.serial = q.serial) (hsh : q'.sheet = q.sheet) (hv : q'.votes = q.votes)
    (hb : q'.bands = q.bands) : SameVotes q q' := ⟨hs, hsh, hv, fun k => by unfold FrameRun.band; rw [hb]⟩

theorem FrameRun.band_update (r : FrameRun) (k j : Nat) (g : BandRun → BandRun) :
    ({ r with bands := r.bands.zipIdx.map fun p => if p.2 = k then g p.1 else p.1 } : FrameRun).band j =
      if j = k ∧ j < r.bands.length then g (r.band j) else r.band j := by
  unfold FrameRun.band
  by_cases hj : j < r.bands.length
  · by_cases hk : j = k <;> simp [hj, hk]
    rw [← hk]; simp [hj]
  · simp [hj]

/-- A change of one band that leaves its cut-off as it was. -/
theorem SameVotes.band (q : FrameRun) (k : Nat) {g : BandRun → BandRun} (hg : ∀ b, (g b).cut = b.cut) :
    SameVotes q { q with bands := q.bands.zipIdx.map fun p => if p.2 = k then g p.1 else p.1 } :=
  ⟨rfl, rfl, rfl, fun j => by rw [q.band_update]; split <;> simp [hg]⟩

/-- `P` survives all that a voter does to flue `f` besides deciding and cutting off: updates outside the units and the flues, and
updates of the flue's frames that keep their votes. -/
structure VoteKeeps (f : Nat) (P : State → Prop) : Prop where
  of_comp : ∀ {s t : State}, P s → t.comp.units = s.comp.units → t.comp.flues = s.comp.flues → P t
  setFlue : ∀ {s : State} {o : FlueState}, P s → o.frames = (s.flue f).frames → P (s.setFlue f o)
  modFrame : ∀ {s : State} {serial : Nat} {g : FrameRun → FrameRun}, P s → (∀ q, SameVotes q (g q)) → P (modFrame f serial g s)

section
variable {f : Nat} {P : State → Prop} (hP : VoteKeeps f P)
include hP

theorem VoteKeeps.same_comp {s t : State} (hs : P s) (h : t.comp = s.comp) : P t := hP.of_comp hs (by rw [h]) (by rw [h])

theorem VoteKeeps.completion : CompletionKeeps f P where
  wr _ _ _ _ _ hs := hP.same_comp hs (State.wr_comp _ _ _)
  raiseOnce _ _ _ hs := hP.same_comp hs (State.raiseOnce_comp _ _ _)
  setEnc _ _ _ hs := hP.same_comp hs rfl
  setPanel _ _ _ hs := hP.same_comp hs rfl
  setSource _ _ _ hs := hP.of_comp hs rfl rfl
  complete _ _ hs := hP.modFrame hs fun _ => .of_bands rfl rfl rfl rfl

theorem VoteKeeps.wr {x : Fld} {v : Nat} {s : State} (hs : P s) : P (s.wr x v) := hP.same_comp hs (State.wr_comp _ _ _)

theorem VoteKeeps.raise {c o : Nat} {s : State} (hs : P s) : P (s.raise c o) := hP.same_comp hs (State.raise_comp _ _ _)

theorem VoteKeeps.modBand {serial k : Nat} {g : BandRun → BandRun} {s : State} (hs : P s) (hg : ∀ b, (g b).cut = b.cut) :
    P (modBand f serial k g s) := hP.modFrame hs fun q => .band q k hg

theorem VoteKeeps.countStates {sh : Sheet} {s : State} (hs : P s) : P (countStates sh f s) :=
  hP.same_comp hs (countStates_comp _ _ _)

theorem VoteKeeps.reviseTile {serial t : Nat} {ctx : TileCtx} {s : State} (hs : P s) : P (reviseTile f serial t ctx s) := by
  unfold Machine.reviseTile
  split
  · exact hs
  extract_lets e badge s1
  have h1 : P s1 := hP.modFrame hs fun _ => .of_bands rfl rfl rfl rfl
  exact hP.same_comp h1 (writeEntry_comp _ _ _ _ _)

theorem VoteKeeps.writeSig {serial t sig : Nat} {s : State} (hs : P s) : P (writeSig f serial t sig s) := by
  unfold Machine.writeSig
  split
  · exact hs
  · exact closed_ite hs (hP.wr (hP.modFrame hs fun _ => .of_bands rfl rfl rfl rfl))

theorem VoteKeeps.ensureBuffer {serial : Nat} {s : State} (hs : P s) : P (ensureBuffer f serial s) := by
  unfold Machine.ensureBuffer
  split
  · exact hs
  refine closed_ite hs ?_
  split
  · exact hs
  · exact hP.wr (hP.modFrame (hP.setFlue hs rfl) fun _ => .of_bands rfl rfl rfl rfl)

theorem VoteKeeps.writeBand {serial k : Nat} {s : State} (hs : P s) : P (writeBand f serial k s) := by
  unfold Machine.writeBand
  extract_lets s1
  have h1 : P s1 := hP.ensureBuffer hs
  clear_value s1
  split
  · exact h1
  split
  · exact hP.modBand h1 fun _ => rfl
  extract_lets s2
  have h2 : P s2 := closed_foldl (fun u t hu => hP.same_comp (hP.same_comp hu (storeTile_comp _ _ _ _ _ _))
    (writeHeld_comp _ _ _ _ _ _)) h1
  clear_value s2
  exact hP.modBand (hP.setFlue h2 rfl) fun _ => rfl

theorem VoteKeeps.finishBand {serial k : Nat} {s : State} (hs : P s) : P (finishBand f serial k s) := by
  unfold Machine.finishBand
  split
  · exact hs
  · exact closed_ite (hP.completion.completeFrame _ _ (hP.writeBand hs)) hs

theorem VoteKeeps.expCompareOne {sh : Sheet} {sig e : Nat} {s : State} (hs : P s) : P (expCompareOne sh sig s e) := by
  unfold Machine.expCompareOne
  extract_lets good last c s1 s2 sum s3 s4
  have h1 : P s1 := hP.of_comp hs rfl rfl
  have h3 : P s3 := hP.wr (hP.wr (hP.wr h1))
  clear_value s3
  have h4 : P s4 := hP.wr h3
  split
  · exact closed_ite (hP.raise h3) h3
  · exact closed_ite h4 (hP.raise h4)

theorem VoteKeeps.expCompare {serial t sig : Nat} {s : State} (hs : P s) : P (expCompare f serial t sig s) := by
  unfold Machine.expCompare
  split
  · exact hs
  refine closed_ite hs (hP.modFrame ?_ fun _ => .of_bands rfl rfl rfl rfl)
  exact closed_foldl (fun u e hu => hP.expCompareOne hu) hs

/-- Once the decision FAIL stands, what follows keeps the votes (R201, R203). -/
theorem VoteKeeps.decideFail_of_critical {t serial n : Nat} {r : FrameRun} {s : State} (hr : frameOf s f serial = some r)
    (hn : criticalRect r.sheet f t = some n) (hs : P (setVote f serial t { r.vote t with decision := some none } s)) :
    P (decideFail f t serial s) := by
  unfold Machine.decideFail
  simp -zeta only [hr, hn]
  extract_lets v s1 first s2 s3 s4 s5 k px s6
  have h1 : P s1 := hs
  clear_value s1
  have h2 : P s2 := hP.modFrame h1 fun _ => .of_bands rfl rfl rfl rfl
  have h3 : P s3 := closed_when (fun _ => hP.wr h2) h2
  have h4 : P s4 := hP.wr h3
  have h5 : P s5 := closed_ite (hP.raise h4) h4
  have h6 : P s6 := hP.modBand h5 fun _ => rfl
  clear_value s5 s6
  refine closed_ite h5 ?_
  split
  · exact h6
  · exact hP.finishBand (hP.countStates (hP.writeSig (hP.reviseTile h6)))

theorem VoteKeeps.decideFail {t serial : Nat} {s : State} (hs : P s) (hfail : ∀ r, frameOf s f serial = some r →
    P (setVote f serial t { r.vote t with decision := some none } s)) : P (decideFail f t serial s) := by
  cases hr : frameOf s f serial with
  | none => simpa only [Machine.decideFail, hr] using hs
  | some r =>
    cases hn : criticalRect r.sheet f t with
    | none => simpa only [Machine.decideFail, hr, hn] using hs
    | some n => exact hP.decideFail_of_critical hr hn (hfail r hr)

/-- Once the decision MAJORITY stands and no signature is outvoted, what follows keeps the votes (R200). -/
theorem VoteKeeps.decideMajority {t serial sig : Nat} {r : FrameRun} {s : State} (hr : frameOf s f serial = some r)
    (hall : ∀ x ∈ (r.vote t).sigs, x.sig = sig) (hs : P (setVote f serial t { r.vote t with decision := some (some sig) } s)) :
    P (decideMajority f t sig serial s) := by
  have hout : ((r.vote t).sigs.filter fun x => x.sig != sig) = [] := by
    simpa [List.filter_eq_nil_iff] using hall
  unfold Machine.decideMajority
  simp -zeta only [hr]
  extract_lets v s1 k
  have h1 : P s1 := hs
  clear_value s1
  split
  · exact h1
  extract_lets px s2 s3 s4
  have h2 : P s2 := hP.modBand h1 fun _ => rfl
  have h3 : P s3 := by
    refine closed_ite h1 ?_
    clear_value s2
    split
    · exact h2
    · exact hP.expCompare (hP.countStates (hP.writeSig (hP.reviseTile h2)))
  have h4 : s4 = s3 := by unfold s4; rw [hout]; rfl
  exact hP.finishBand (h4 ▸ h3)

end

/-- The units are as they were. -/
theorem VoteKeeps.units (f : Nat) (x : Tab UnitState) : VoteKeeps f fun s => s.comp.units = x where
  of_comp hs h _ := h.trans hs
  setFlue hs _ := hs
  modFrame hs _ := hs

/-! ### The frame of a serial number -/

/-- The frame with a new vote of tile `t`. -/
def FrameRun.withVote (r : FrameRun) (t : Nat) (v : TileVote) : FrameRun := { r with votes := r.votes.set (fun _ => {}) t v }

@[simp] theorem FrameRun.withVote_vote (r : FrameRun) (t i : Nat) (v : TileVote) :
    (r.withVote t v).vote i = if i = t then v else r.vote i := Tab.get_set _ _ _ _ _

/-- `G` holds of the frame of flue `f` that a serial number names. -/
def FrameHas (f serial : Nat) (G : FrameRun → Prop) (s : State) : Prop := ∃ q, frameOf s f serial = some q ∧ G q

theorem frameOf_modFrame (f n serial : Nat) {g : FrameRun → FrameRun} (hg : ∀ q, (g q).serial = q.serial) (s : State) :
    frameOf (modFrame f n g s) f serial = (frameOf s f serial).map fun r => if r.serial = n then g r else r := by
  have hserial : ((·.serial == serial) ∘ fun r : FrameRun => if r.serial = n then g r else r) = (·.serial == serial) := by
    funext r
    simp only [Function.comp_apply]
    split <;> simp [hg]
  rw [frameOf, frameOf, modFrame_flue, List.find?_map, hserial]

theorem frameOf_serial {s : State} {f serial : Nat} {r : FrameRun} (h : frameOf s f serial = some r) : r.serial = serial := by
  simpa using List.find?_some h

section
variable {f serial : Nat} {G H : FrameRun → Prop} {s t : State}

theorem FrameHas.modFrame (h : FrameHas f serial G s) (n : Nat) {g : FrameRun → FrameRun} (hg : ∀ q, (g q).serial = q.serial)
    (hG : ∀ q, G q → G (g q)) : FrameHas f serial G (modFrame f n g s) := by
  obtain ⟨q, hq, hGq⟩ := h
  refine ⟨if q.serial = n then g q else q, by rw [frameOf_modFrame f n serial hg, hq]; rfl, ?_⟩
  split
  · exact hG q hGq
  · exact hGq

theorem FrameHas.votes (f serial : Nat) (hG : ∀ q q', SameVotes q q' → G q → G q') : VoteKeeps f (FrameHas f serial G) where
  of_comp {s t} h _ hf := by
    have hframe : frameOf t f serial = frameOf s f serial := by unfold frameOf State.flue; rw [hf]
    unfold FrameHas; rw [hframe]; exact h
  setFlue {s o} h ho := by
    have hframe : frameOf (s.setFlue f o) f serial = frameOf s f serial := by simp [frameOf, ho]
    unfold FrameHas; rw [hframe]; exact h
  modFrame {s n g} h hg := FrameHas.modFrame h n (fun q => (hg q).serial) fun q => hG q _ (hg q)

/-- A new vote of a tile in the frame that its serial number names. -/
theorem frameOf_setVote {r : FrameRun} (hr : frameOf s f serial = some r) (t : Nat) (v : TileVote) :
    frameOf (setVote f serial t v s) f serial = some (r.withVote t v) := by
  have hserial : r.serial = serial := frameOf_serial hr
  rw [setVote, frameOf_modFrame f serial serial (by exact fun _ => rfl), hr, Option.map_some, if_pos hserial]
  rfl

theorem FrameHas.setVote {r : FrameRun} (hr : frameOf s f serial = some r) (t : Nat) (v : TileVote) (hG : G (r.withVote t v)) :
    FrameHas f serial G (setVote f serial t v s) := ⟨_, frameOf_setVote hr t v, hG⟩

end

theorem SameVotes.vote {q q' : FrameRun} (h : SameVotes q q') (t : Nat) : q'.vote t = q.vote t := by
  unfold FrameRun.vote; rw [h.votes]

/-! ### A signature arrives (R199, R200) -/

/-- Unit `u`, which works on member `m` of rectangle `n`, composes tile `tl` of that rectangle in frame `r`, which is not dark, before
the vote cut-off; the member takes part, the vote can still be won, and nothing is injected at the voter's inputs. -/
structure Delivers (s : State) (f tl u n m : Nat) (w : WorkItem) (r : FrameRun) : Prop where
  work : (s.unit u).work = some w
  flue : w.flue = f
  frame : frameOf s f w.serial = some r
  lit : frameDark s f r = false
  rect : w.rect = some n
  critical : criticalRect r.sheet f tl = some n
  band : bandOf r.sheet f tl = w.band
  member : memberOf r.sheet n u = some m
  uninjected : s.rdb R.INJ_VOTER_ENABLE = false
  present : (r.membersOf n).contains m = true
  early : s.monoNs < r.deadline f w.band - 5000
  winnable : voteHopeless s r n = false

/-- The state in which the voter receives the signature of tile `tl` that a unit composed as member `m`: the tile stands in the
member's plane of the vote store (R196). -/
def tileStored (r : FrameRun) (f tl sig m : Nat) (s : State) : State :=
  storeVote r.sheet f m (freeVoteSlot s f m) (memberTile r f tl sig s).1 (memberTile r f tl sig s).2

/-- The signature as the voter records it, with the slot of the vote store that holds the tile. -/
def voteSig (s : State) (f u m sig : Nat) : VoteSig := { member := m, unit := u, sig := sig, slot := some (freeVoteSlot s f m) }

/-- The voter has recorded the signature, and not decided. -/
def sigRecorded (r : FrameRun) (f tl u sig m serial : Nat) (s : State) : State :=
  setVote f serial tl { r.vote tl with sigs := (r.vote tl).sigs ++ [voteSig s f u m sig] } (tileStored r f tl sig m s)

section
variable {s : State} {f tl u n m : Nat} {w : WorkItem} {r : FrameRun}

@[simp] theorem memberTile_comp (r : FrameRun) (f tl sig : Nat) (s : State) : (memberTile r f tl sig s).2.comp = s.comp := by
  unfold memberTile; dsimp only; split <;> rfl

@[simp] theorem tileStored_comp (r : FrameRun) (f tl sig m : Nat) (s : State) : (tileStored r f tl sig m s).comp = s.comp :=
  memberTile_comp r f tl sig s

theorem Closed.tileStored {K : List Part} {P : State → Prop} (h : Closed K P) (hb : .bytes ∈ K) (hm : .mem ∈ K) (hf : .free ∈ K)
    (r : FrameRun) (f tl sig m : Nat) (s : State) (hs : P s) : P (tileStored r f tl sig m s) := by
  refine h.store hb _ _ _ (.inl hm) ?_
  unfold memberTile
  dsimp only
  split
  · exact hs
  · exact h.free hf _ _ hs

theorem tileStored_within (l : List Fld) (r : FrameRun) (f tl sig m : Nat) (s : State) :
    Within l [.bytes, .mem, .free] s (tileStored r f tl sig m s) := by
  refine ⟨(FieldsOnly.refl l s).of_regs ?_,
    (ChangesOnly.closed _ s).tileStored (by decide) (by decide) (by decide) r f tl sig m s (.refl _ s)⟩
  unfold tileStored memberTile
  dsimp only
  split <;> rfl

theorem tileStored_monoNs (r : FrameRun) (f tl sig m : Nat) (s : State) : (tileStored r f tl sig m s).monoNs = s.monoNs := by
  unfold tileStored memberTile; dsimp only; split <;> rfl

theorem tileStored_frameOf (r : FrameRun) (f tl sig m : Nat) (s : State) (serial : Nat) :
    frameOf (tileStored r f tl sig m s) f serial = frameOf s f serial := by
  unfold frameOf State.flue; rw [tileStored_comp]

theorem tileStored_voteHopeless (r q : FrameRun) (f tl sig m n : Nat) (s : State) :
    voteHopeless (tileStored r f tl sig m s) q n = voteHopeless s q n := by
  unfold voteHopeless State.rect; rw [tileStored_comp]

/-- A vote leaves open whether it can be won for want of members or by a loss. -/
theorem setVote_voteHopeless (f serial t n : Nat) (v : TileVote) (q : FrameRun) (s : State) :
    voteHopeless (setVote f serial t v s) q n = voteHopeless s q n := rfl

/-- The signature of a unit that composes the tile reaches the voter as the unit delivered it. -/
theorem Delivers.reaches (h : Delivers s f tl u n m w r) (sig : Nat) : voteSignatureArrival f tl u sig s =
    receiveSig f tl w.serial (voteSig s f u m sig) (tileStored r f tl sig m s) := by
  have hquiet : injVote u sig (tileStored r f tl sig m s) = (sig, false, tileStored r f tl sig m s) := by
    have hen : (tileStored r f tl sig m s).rdb R.INJ_VOTER_ENABLE = false := by
      rw [State.rdb, (tileStored_within [] r f tl sig m s).1 _ (by simp) (by decide)]
      exact h.uninjected
    rw [injVote, hen, if_neg (by simp)]
  have hcond : w.flue = f ∧ criticalRect r.sheet f tl = some n ∧ bandOf r.sheet f tl = w.band ∧ frameDark s f r = false :=
    ⟨h.flue, h.critical, h.band, h.lit⟩
  unfold voteSignatureArrival
  simp only [h.work, h.rect, show frameOf s w.flue w.serial = some r by rw [h.flue]; exact h.frame, if_pos hcond, h.member]
  unfold tileStored at hquiet
  simp only [hquiet]
  rfl

/-- The first signature of a member on a tile still undecided is recorded, and decides by another that equals it, or as the last
(R199, R200). -/
theorem Delivers.receives (h : Delivers s f tl u n m w r) (sig : Nat) (hnew : ∀ y ∈ (r.vote tl).sigs, y.member ≠ m)
    (hopen : (r.vote tl).decision = none) : voteSignatureArrival f tl u sig s =
      if (r.vote tl).sigs.any (·.sig == sig) then decideMajority f tl sig w.serial (sigRecorded r f tl u sig m w.serial s)
      else if r.started && (r.vote tl).sigs.length + 1 == (r.membersOf n).length then
        decideFail f tl w.serial (sigRecorded r f tl u sig m w.serial s)
      else sigRecorded r f tl u sig m w.serial s := by
  have hfirst : ((r.vote tl).sigs.any (fun y => y.member == m) || !(r.membersOf n).contains m
      || decide (r.deadline f (bandOf r.sheet f tl) - 5000 ≤ s.monoNs)) = false := by
    have hany : (r.vote tl).sigs.any (fun y => y.member == m) = false := by simpa using hnew
    have hearly := h.early
    rw [hany, h.present, h.band]
    simp only [Bool.not_true, Bool.false_or, decide_eq_false_iff_not]
    omega
  rw [h.reaches, receiveSig]
  simp only [tileStored_frameOf, h.frame, h.critical, tileStored_monoNs]
  unfold sigRecorded voteSig at *
  simp only [hfirst, hopen, setVote_voteHopeless, tileStored_voteHopeless, h.winnable]
  simp

end


/-! ### VOTE_SIGNATURE_ARRIVAL -/

section
variable {s : State} {f tl u n m sig : Nat} {w : WorkItem} {r : FrameRun}

theorem voteSignatureArrival_wellFormed (tl : Nat) (hf : f < 24) (hu : u < 32) (hsig : sig < 2 ^ 32) :
    WellFormed (.voteSignatureArrival f tl u sig) := by simpa [WellFormed, Instr.wf, hf, hu] using hsig

@[simp] theorem frameOf_dispatched (s : State) (f serial : Nat) :
    frameOf (dispatchEngines s).flushEvents f serial = frameOf s f serial := by
  rw [State.flushEvents_frameOf]; unfold frameOf State.flue; rw [dispatchEngines_comp]

theorem Delivers.frame_recorded (h : Delivers s f tl u n m w r) (sig : Nat) :
    frameOf (sigRecorded r f tl u sig m w.serial s) f w.serial =
      some (r.withVote tl { r.vote tl with sigs := (r.vote tl).sigs ++ [voteSig s f u m sig] }) :=
  frameOf_setVote ((tileStored_frameOf _ _ _ _ _ _ _).trans h.frame) _ _

/-- Tile `tl` of a frame has decision `d`, or none. -/
def DecisionIs (tl : Nat) (d : Option (Option Nat)) (q : FrameRun) : Prop := (q.vote tl).decision = d

theorem DecisionIs.voteKeeps (f serial tl : Nat) (d : Option (Option Nat)) : VoteKeeps f (FrameHas f serial (DecisionIs tl d)) :=
  FrameHas.votes f serial fun q q' h hq => by unfold DecisionIs; rw [h.vote]; exact hq

theorem FrameHas.decision {serial : Nat} {d : Option (Option Nat)} (h : FrameHas f serial (DecisionIs tl d) s) :
    (frameOf s f serial).map (fun q => (q.vote tl).decision) = some d := by
  obtain ⟨q, hq, hd⟩ := h
  rw [hq]
  exact congrArg some hd

theorem sigRecorded_within (r : FrameRun) (f tl u sig m serial : Nat) (s : State) :
    Within [] [.comp, .bytes, .mem, .free] s (sigRecorded r f tl u sig m serial s) := by
  obtain ⟨hfields, hparts⟩ := tileStored_within [] r f tl sig m s
  exact Within.setFlue ⟨hfields, hparts.mono (by decide)⟩ (by decide) _ _

theorem sigRecorded_noJobReady (h : noJobReady s) (serial : Nat) : noJobReady (sigRecorded r f tl u sig m serial s) := by
  have hcodec : (sigRecorded r f tl u sig m serial s).codec = s.codec :=
    (sigRecorded_within r f tl u sig m serial s).2 .codec (by decide)
  unfold noJobReady State.reel State.enc
  rw [hcodec]
  exact h

theorem Delivers.first (h : Delivers s f tl u n m w r) (hf : f < 24) (hu : u < 32) (hsig : sig < 2 ^ 32) (hnone : r.vote tl = {})
    (htwo : 2 ≤ (r.membersOf n).length) (hjobs : noJobReady s) : ∃ t, exec (.voteSignatureArrival f tl u sig) s = .next t ∧
      (frameOf t f w.serial).map (fun q => q.vote tl) =
        some { sigs := [{ member := m, unit := u, sig := sig, slot := some (freeVoteSlot s f m) }] } ∧
      FieldsOnly [] s t ∧ ChangesOnly [.regs, .evq, .sent, .comp, .bytes, .mem, .free] s t := by
  refine ⟨_, exec_of_wf (voteSignatureArrival_wellFormed tl hf hu hsig) rfl, ?_⟩
  unfold voteArrived
  have hrec : voteSignatureArrival f tl u sig s = sigRecorded r f tl u sig m w.serial s := by
    rw [h.receives sig (by simp [hnone]) (by rw [hnone]), hnone, if_neg (by simp), if_neg]
    simp only [Bool.and_eq_true, beq_iff_eq, List.length_nil]
    omega
  refine ⟨?_, ?_⟩
  · rw [frameOf_dispatched, hrec, h.frame_recorded, Option.map_some, FrameRun.withVote_vote, if_pos rfl, hnone]
    rfl
  · rw [hrec, dispatchEngines_of_noJobReady (sigRecorded_noJobReady hjobs _)]
    exact (sigRecorded_within r f tl u sig m w.serial s).queue (.flushEvents _)

theorem Delivers.agrees {x : VoteSig} (h : Delivers s f tl u n m w r) (hf : f < 24) (hu : u < 32) (hsig : sig < 2 ^ 32)
    (hone : (r.vote tl).sigs = [x]) (hopen : (r.vote tl).decision = none) (hx : x.member ≠ m) (hsame : x.sig = sig) :
    ∃ t, exec (.voteSignatureArrival f tl u sig) s = .next t ∧
      (frameOf t f w.serial).map (fun q => (q.vote tl).decision) = some (some (some sig)) := by
  refine ⟨_, exec_of_wf (voteSignatureArrival_wellFormed tl hf hu hsig) rfl, ?_⟩
  unfold voteArrived
  rw [frameOf_dispatched, h.receives sig (by simpa [hone] using hx) hopen, if_pos (by simp [hone, hsame])]
  refine ((DecisionIs.voteKeeps f w.serial tl (some (some sig))).decideMajority (h.frame_recorded sig) ?_
    (.setVote (h.frame_recorded sig) _ _ ?_)).decision
  · simp [hone, hsame, voteSig]
  · simp [DecisionIs]

theorem Delivers.differs {x : VoteSig} (h : Delivers s f tl u n m w r) (hf : f < 24) (hu : u < 32) (hsig : sig < 2 ^ 32)
    (hone : (r.vote tl).sigs = [x]) (hopen : (r.vote tl).decision = none) (hx : x.member ≠ m) (hdiff : x.sig ≠ sig)
    (hrun : r.started = true) (htwo : (r.membersOf n).length = 2) :
    ∃ t, exec (.voteSignatureArrival f tl u sig) s = .next t ∧
      (frameOf t f w.serial).map (fun q => (q.vote tl).decision) = some (some none) := by
  refine ⟨_, exec_of_wf (voteSignatureArrival_wellFormed tl hf hu hsig) rfl, ?_⟩
  unfold voteArrived
  rw [frameOf_dispatched, h.receives sig (by simpa [hone] using hx) hopen, if_neg (by simp [hone, hdiff]),
    if_pos (by simp [hone, hrun, htwo])]
  exact ((DecisionIs.voteKeeps f w.serial tl (some none)).decideFail_of_critical (h.frame_recorded sig) h.critical
    (.setVote (h.frame_recorded sig) _ _ (by simp [DecisionIs]))).decision

end

/-! ### VOTE_CUTOFF (R195, R199 row 4, R202) -/

/-- A tile of a frame still undecided is decided FAIL. -/
def failIfOpen (f serial : Nat) (s : State) (t : Nat) : State :=
  match frameOf s f serial with
  | none => s
  | some q => if (q.vote t).decision.isNone then decideFail f t serial s else s

/-- The cut-off of band `k` of frame `r` as the command leaves it when the frame is dark, and as what follows finds it otherwise. -/
def bandCut (f k : Nat) (r : FrameRun) (s : State) : State := modBand f r.serial k (fun b => { b with cut := true }) s

/-- The critical tiles of band `k` of a frame. -/
def criticalTiles (r : FrameRun) (f k : Nat) : List Nat :=
  (bandTiles r.sheet f k).filter fun t => (criticalRect r.sheet f t).isSome

/-- The state in which the band is cut off, the late units are counted, and no unit works on its member items any more. -/
def lateCounted (f k : Nat) (r : FrameRun) (s : State) : State :=
  abandonItems f r.serial k (((criticalTiles r f k).flatMap (lateUnits r f)).eraseDups.foldl countLate (bandCut f k r s))

/-- In `q` band `k` of frame `r` is cut off. -/
def CutOff (r : FrameRun) (k : Nat) (q : FrameRun) : Prop := q.serial = r.serial ∧ q.sheet = r.sheet ∧ (q.band k).cut = true

/-- In `q` band `k` of frame `r` is cut off, and tile `t` is decided. -/
def CutAndDecided (r : FrameRun) (k t : Nat) (q : FrameRun) : Prop := CutOff r k q ∧ (q.vote t).decision.isSome = true

section
variable {s : State} {f k : Nat} {r : FrameRun}

theorem CutOff.of_sameVotes {q q' : FrameRun} (h : CutOff r k q) (hq : SameVotes q q') : CutOff r k q' := by
  obtain ⟨hserial, hsheet, hcut⟩ := h
  exact ⟨hq.serial.trans hserial, hq.sheet.trans hsheet, (hq.cut k).trans hcut⟩

theorem CutOff.voteKeeps (f serial k : Nat) (r : FrameRun) : VoteKeeps f (FrameHas f serial (CutOff r k)) :=
  FrameHas.votes f serial fun _ _ hq h => h.of_sameVotes hq

theorem CutAndDecided.voteKeeps (f serial k t : Nat) (r : FrameRun) : VoteKeeps f (FrameHas f serial (CutAndDecided r k t)) :=
  FrameHas.votes f serial fun _ _ hq h => ⟨h.1.of_sameVotes hq, by rw [hq.vote]; exact h.2⟩

theorem failIfOpen_of_cutOff {t : Nat} (ht : t ∈ criticalTiles r f k) (h : FrameHas f r.serial (CutOff r k) s) :
    FrameHas f r.serial (CutAndDecided r k t) (failIfOpen f r.serial s t) := by
  obtain ⟨q, hq, hcut⟩ := h
  unfold failIfOpen
  simp only [hq]
  split
  next hopen =>
    obtain ⟨n, hn⟩ := Option.isSome_iff_exists.mp (List.mem_filter.mp ht).2
    have hsheet : q.sheet = r.sheet := hcut.2.1
    refine (CutAndDecided.voteKeeps f _ k t r).decideFail_of_critical hq (by rw [hsheet]; exact hn) (.setVote hq _ _ ⟨hcut, ?_⟩)
    simp
  next hdone => exact ⟨q, hq, hcut, by simpa [Option.isSome_iff_ne_none] using hdone⟩

theorem failIfOpen_keeps_cutOff {t : Nat} (h : FrameHas f r.serial (CutOff r k) s) :
    FrameHas f r.serial (CutOff r k) (failIfOpen f r.serial s t) := by
  unfold failIfOpen
  split
  · exact h
  refine closed_ite ((CutOff.voteKeeps f _ k r).decideFail h fun q hq => ?_) h
  obtain ⟨q', hq', hcut⟩ := h
  cases hq.symm.trans hq'
  exact .setVote hq _ _ hcut

theorem failIfOpen_keeps_decided {t t' : Nat} (h : FrameHas f r.serial (CutAndDecided r k t) s) :
    FrameHas f r.serial (CutAndDecided r k t) (failIfOpen f r.serial s t') := by
  obtain ⟨q, hq, hcut, hdec⟩ := h
  unfold failIfOpen
  simp only [hq]
  refine closed_ite ((CutAndDecided.voteKeeps f _ k t r).decideFail ⟨q, hq, hcut, hdec⟩ fun q' hq' => ?_) ⟨q, hq, hcut, hdec⟩
  refine .setVote hq _ _ ⟨hcut, ?_⟩
  rw [FrameRun.withVote_vote]
  split
  · rfl
  · exact hdec

theorem failIfOpen_units (f serial t : Nat) (s : State) : (failIfOpen f serial s t).comp.units = s.comp.units := by
  unfold failIfOpen
  split
  · rfl
  · refine closed_ite (P := fun u => u.comp.units = s.comp.units) ?_ rfl
    exact (VoteKeeps.units f s.comp.units).decideFail rfl fun _ _ => rfl

/-- A fold of steps that each bring about `D` of their element, keep it of the others, and keep `P`. -/
theorem foldl_each {α : Type} {P : State → Prop} {D : α → State → Prop} {g : State → α → State}
    (hP : ∀ s x, P s → P (g s x)) (hkeep : ∀ s x y, P s → D y s → D y (g s x)) (l : List α)
    (hD : ∀ s, ∀ x ∈ l, P s → D x (g s x)) {s : State} (hs : P s) :
    P (l.foldl g s) ∧ (∀ y, D y s → D y (l.foldl g s)) ∧ ∀ x ∈ l, D x (l.foldl g s) := by
  induction l generalizing s with
  | nil => exact ⟨hs, fun _ h => h, by simp⟩
  | cons x l ih =>
    obtain ⟨hend, hstay, hall⟩ := ih (fun s y hy => hD s y (List.mem_cons_of_mem _ hy)) (hP s x hs)
    refine ⟨hend, fun y hy => hstay y (hkeep s x y hs hy), fun y hy => ?_⟩
    rcases List.mem_cons.mp hy with rfl | hy
    · exact hstay y (hD s y List.mem_cons_self hs)
    · exact hall y hy

/-- Unit `u` is counted late in tick `n`. -/
def LateIn (n u : Nat) (s : State) : Prop := (s.unit u).lateTick = some n

theorem countLate_tickCount (s : State) (u : Nat) : (countLate s u).rd R.TICK_COUNT_COUNT = s.rd R.TICK_COUNT_COUNT := by
  unfold countLate
  extract_lets n
  refine closed_ite (P := fun t => t.rd R.TICK_COUNT_COUNT = s.rd R.TICK_COUNT_COUNT) rfl ?_
  refine (State.rd_wr_apart _ _ _ _ ?_ ?_).trans (State.setUnit_rd _ _ _ _)
  · simp [FldOk, R.CRT_UNIT_VOTE_LATE_TICKS]
  · simp only [FldApart, R.CRT_UNIT_VOTE_LATE_TICKS, R.TICK_COUNT_COUNT]; omega

theorem countLate_unit (s : State) (u v : Nat) : (countLate s u).unit v = if v = u then
    { s.unit u with lateTick := some (s.rd R.TICK_COUNT_COUNT) } else s.unit v := by
  unfold countLate
  dsimp only
  split
  next h =>
    split
    next hv => rw [hv, ← h]
    next => rfl
  next => exact State.setUnit_unit _ _ _ _

theorem countLate_flues (s : State) (u : Nat) : (countLate s u).comp.flues = s.comp.flues := by
  unfold countLate
  exact closed_ite (P := fun t => t.comp.flues = s.comp.flues) rfl rfl

theorem lateIn_countLate {n : Nat} {l : List Nat} (h : s.rd R.TICK_COUNT_COUNT = n) : ∀ u ∈ l, LateIn n u (l.foldl countLate s) := by
  refine (foldl_each (P := fun t => t.rd R.TICK_COUNT_COUNT = n) (fun t u ht => (countLate_tickCount t u).trans ht)
    (fun t u v ht hv => ?_) l (fun t u _ ht => ?_) h).2.2
  · unfold LateIn
    rw [countLate_unit]
    split
    · exact congrArg some ht
    · exact hv
  · unfold LateIn
    rw [countLate_unit, if_pos rfl]
    exact congrArg some ht

theorem LateIn.dropWork {n u : Nat} (h : LateIn n u s) (v : Nat) : LateIn n u (dropWork v s) := by
  unfold LateIn Machine.dropWork
  rw [State.setUnit_unit]
  split
  next huv => rw [← huv]; exact h
  next => exact h

theorem LateIn.abandonItems {n u : Nat} (h : LateIn n u s) (f serial k : Nat) : LateIn n u (abandonItems f serial k s) := by
  refine closed_foldl (fun t v ht => ?_) h
  split
  · exact closed_ite (ht.dropWork v) ht
  · exact ht

theorem abandonItems_flues (f serial k : Nat) (s : State) : (abandonItems f serial k s).comp.flues = s.comp.flues := by
  unfold abandonItems
  refine closed_foldl (P := fun t => t.comp.flues = s.comp.flues) (fun t v ht => ?_) rfl
  split
  · exact closed_ite (P := fun t => t.comp.flues = s.comp.flues) ht ht
  · exact ht

theorem lateCounted_flues (f k : Nat) (r : FrameRun) (s : State) :
    (lateCounted f k r s).comp.flues = (bandCut f k r s).comp.flues := by
  rw [lateCounted, abandonItems_flues]
  exact closed_foldl (P := fun t => t.comp.flues = (bandCut f k r s).comp.flues) (fun t u ht => (countLate_flues t u).trans ht) rfl

/-- The band of the flue's one frame whose vote cut-off has come is cut off, and in a frame that is not dark its tiles are decided. -/
theorem voteCutoff_eq (hone : (s.flue f).frames = [r]) (hk : k < r.bands.length) (hnew : (r.band k).cut = false)
    (hdue : r.deadline f k - 5000 ≤ s.monoNs) : voteCutoff f k s = if frameDark s f r then bandCut f k r s else
      (criticalTiles r f k).foldl (failIfOpen f r.serial) (lateCounted f k r s) := by
  have hfind : (s.flue f).frames.find? (fun r => decide (k < r.bands.length) && !(r.band k).cut
      && decide (r.deadline f k - 5000 ≤ s.monoNs)) = some r := by
    simp [hone, hk, hnew]
    omega
  have hdark : frameDark (bandCut f k r s) f r = frameDark s f r := by
    unfold frameDark bandCut modBand
    rw [modFrame_flue]
    rfl
  unfold voteCutoff
  simp only [hfind, ← hdark]
  rfl

theorem bandCut_frame (hone : (s.flue f).frames = [r]) (hk : k < r.bands.length) : OneFrame f (CutOff r k) (bandCut f k r s) := by
  refine OneFrame.modFrame_same (G := fun q => q = r) ⟨r, hone, rfl⟩ (fun q hq => by rw [hq]) fun q hq => ?_
  subst hq
  exact ⟨rfl, rfl, (congrArg BandRun.cut (q.band_update k k fun b => { b with cut := true })).trans (by rw [if_pos ⟨rfl, hk⟩])⟩

/-- The cut-off decides every critical tile of the band that is still open, and changes no unit with that. -/
theorem decideAll (h : FrameHas f r.serial (CutOff r k) s) :
    FrameHas f r.serial (CutOff r k) ((criticalTiles r f k).foldl (failIfOpen f r.serial) s) ∧
      ((criticalTiles r f k).foldl (failIfOpen f r.serial) s).comp.units = s.comp.units ∧
      ∀ t ∈ criticalTiles r f k, FrameHas f r.serial (CutAndDecided r k t) ((criticalTiles r f k).foldl (failIfOpen f r.serial) s) := by
  obtain ⟨hcut, -, hdecided⟩ := foldl_each (P := FrameHas f r.serial (CutOff r k))
    (D := fun t u => FrameHas f r.serial (CutAndDecided r k t) u) (g := failIfOpen f r.serial)
    (fun u t hu => failIfOpen_keeps_cutOff hu) (fun u t t' _ hu => failIfOpen_keeps_decided hu) (criticalTiles r f k)
    (fun u t ht hu => failIfOpen_of_cutOff ht hu) h
  refine ⟨hcut, ?_, hdecided⟩
  exact closed_foldl (P := fun u => u.comp.units = s.comp.units) (fun u t hu => (failIfOpen_units _ _ _ _).trans hu) rfl

theorem voteCutoff_lit (s : State) (f k : Nat) (r : FrameRun) (hf : f < 24) (hk72 : k < 72) (hone : (s.flue f).frames = [r])
    (hk : k < r.bands.length) (hnew : (r.band k).cut = false) (hdue : r.deadline f k - 5000 ≤ s.monoNs)
    (hlit : frameDark s f r = false) : ∃ t, exec (.voteCutoff f k) s = .next t ∧
      (∃ q, frameOf t f r.serial = some q ∧ (q.band k).cut = true ∧
        ∀ tl ∈ bandTiles r.sheet f k, (criticalRect r.sheet f tl).isSome = true → (q.vote tl).decision.isSome = true) ∧
      ∀ tl ∈ bandTiles r.sheet f k, ∀ u ∈ lateUnits r f tl, (t.unit u).lateTick = some (s.rd R.TICK_COUNT_COUNT) := by
  refine ⟨_, exec_of_wf (by simp [WellFormed, Instr.wf, hf, hk72]) rfl, ?_⟩
  unfold voteCut
  rw [voteCutoff_eq hone hk hnew hdue, hlit, if_neg (by decide)]
  have hcut : FrameHas f r.serial (CutOff r k) (lateCounted f k r s) := by
    obtain ⟨q, hq, hc⟩ := (bandCut_frame hone hk).frameOf (serial := r.serial) fun q hq => hq.1
    refine ⟨q, ?_, hc⟩
    rw [← hq]; unfold frameOf State.flue; rw [lateCounted_flues]
  obtain ⟨⟨q, hq, hqc⟩, hunits, hdecided⟩ := decideAll hcut
  refine ⟨⟨q, (frameOf_dispatched _ _ _).trans hq, hqc.2.2, fun tl htl hcrit => ?_⟩, fun tl htl u hu => ?_⟩
  · obtain ⟨q', hq', -, hdec⟩ := hdecided tl (List.mem_filter.mpr ⟨htl, hcrit⟩)
    rw [hq] at hq'
    cases hq'
    exact hdec
  · have hcrit : (criticalRect r.sheet f tl).isSome = true := by
      unfold lateUnits at hu
      split at hu
      next => cases hu
      next h => rw [h]; rfl
    have hmem : u ∈ ((criticalTiles r f k).flatMap (lateUnits r f)).eraseDups :=
      List.mem_eraseDups.mpr (List.mem_flatMap.mpr ⟨tl, List.mem_filter.mpr ⟨htl, hcrit⟩, hu⟩)
    have hlate : LateIn (s.rd R.TICK_COUNT_COUNT) u (lateCounted f k r s) :=
      (lateIn_countLate (s := bandCut f k r s) rfl u hmem).abandonItems f r.serial k
    have hsame : (dispatchEngines ((criticalTiles r f k).foldl (failIfOpen f r.serial) (lateCounted f k r s))).flushEvents.unit u =
        (lateCounted f k r s).unit u := by
      rw [State.flushEvents_unit]; unfold State.unit; rw [dispatchEngines_comp, hunits]
    rw [hsame]
    exact hlate

theorem voteCutoff_dark (s : State) (f k : Nat) (r : FrameRun) (hf : f < 24) (hk72 : k < 72) (hone : (s.flue f).frames = [r])
    (hk : k < r.bands.length) (hnew : (r.band k).cut = false) (hdue : r.deadline f k - 5000 ≤ s.monoNs)
    (hdark : frameDark s f r = true) : ∃ t, exec (.voteCutoff f k) s = .next t ∧
      ∃ q, (t.flue f).frames = [q] ∧ (q.band k).cut = true := by
  refine ⟨_, exec_of_wf (by simp [WellFormed, Instr.wf, hf, hk72]) rfl, ?_⟩
  unfold voteCut
  rw [voteCutoff_eq hone hk hnew hdue, hdark, if_pos rfl]
  have hcut := (bandCut_frame (s := s) hone hk).of_comp (dispatchEngines_comp _)
  obtain ⟨q, hq, -, -, hqc⟩ := hcut.of_comp (State.flushEvents_comp _)
  exact ⟨q, hq, hqc⟩

/-- Settles O23: the voter's record of a tile and the cut-off of its band are followed through the commands. -/
theorem voteCommands : Obligations.VoteCommands := by
  unfold Obligations.VoteCommands
  refine ⟨?_, ?_, ?_, voteCutoff_lit, voteCutoff_dark⟩
  · intro s f tl u sig n m w r hf hu hsig hwork hflue hframe hlit hrect hcrit hband hmember hinj hpresent hearly hwin hnone htwo
      hjobs
    exact Delivers.first ⟨hwork, hflue, hframe, hlit, hrect, hcrit, hband, hmember, hinj, hpresent, hearly, hwin⟩ hf hu hsig hnone
      htwo hjobs
  · intro s f tl u sig n m w r x hf hu hsig hwork hflue hframe hlit hrect hcrit hband hmember hinj hpresent hearly hwin hone hopen
      hx hsame
    exact Delivers.agrees ⟨hwork, hflue, hframe, hlit, hrect, hcrit, hband, hmember, hinj, hpresent, hearly, hwin⟩ hf hu hsig hone
      hopen hx hsame
  · intro s f tl u sig n m w r x hf hu hsig hwork hflue hframe hlit hrect hcrit hband hmember hinj hpresent hearly hwin hone hopen
      hx hdiff hrun htwo
    exact Delivers.differs ⟨hwork, hflue, hframe, hlit, hrect, hcrit, hband, hmember, hinj, hpresent, hearly, hwin⟩ hf hu hsig hone
      hopen hx hdiff hrun htwo

end

end Sys2Proof.Machine

/-!
PROOFS. The windows of the Warden's vote (R211 to R213, R236): a proposal opens a window, joins it, or agrees with another; a stage
ends; a vote splits.
-/
namespace Sys2Proof.Machine

/-! ### The Warden's hidden state -/

@[simp] theorem State.flushEvents_faults (s : State) : s.flushEvents.faults = s.faults :=
  (QueueOnly.flushEvents s).same .faults (by decide)
@[simp] theorem State.raise_faults (s : State) (c o : Nat) : (s.raise c o).faults = s.faults :=
  (QueueOnly.raise s c o).same .faults (by decide)
@[simp] theorem State.raise_monoNs (s : State) (c o : Nat) : (s.raise c o).monoNs = s.monoNs := (QueueOnly.raise s c o).monoNs

@[simp] theorem State.flushEvents_frec (s : State) (i : Nat) : s.flushEvents.frec i = s.frec i := by
  unfold State.frec; rw [State.flushEvents_faults]
@[simp] theorem State.raise_frec (s : State) (c o i : Nat) : (s.raise c o).frec i = s.frec i := by
  unfold State.frec; rw [State.raise_faults]
@[simp] theorem State.wr_frec (s : State) (f : Fld) (v i : Nat) : (s.wr f v).frec i = s.frec i := by
  unfold State.frec; rw [State.wr_faults]
@[simp] theorem State.setFrec_windows (s : State) (i : Nat) (o : RecState) :
    (s.setFrec i o).faults.windows = s.faults.windows := by simp only [State.setFrec]

@[simp] theorem setWindows_windows (ws : List VoteWindow) (s : State) : (setWindows ws s).faults.windows = ws := by
  simp only [setWindows]
@[simp] theorem setWindows_frec (ws : List VoteWindow) (s : State) (i : Nat) : (setWindows ws s).frec i = s.frec i := by
  unfold State.frec; rw [show (setWindows ws s).faults.recs = s.faults.recs from rfl]
@[simp] theorem setWindows_rd (ws : List VoteWindow) (s : State) (f : Fld) : (setWindows ws s).rd f = s.rd f := by
  unfold State.rd State.word; rw [show (setWindows ws s).regs = s.regs from rfl]
@[simp] theorem setWindows_monoNs (ws : List VoteWindow) (s : State) : (setWindows ws s).monoNs = s.monoNs := rfl
@[simp] theorem setWindows_coresOut (ws : List VoteWindow) (s : State) : (setWindows ws s).faults.coresOut = s.faults.coresOut := rfl

theorem setWindows_self {s : State} {ws : List VoteWindow} (h : ws = s.faults.windows) : setWindows ws s = s := by subst h; rfl

section
variable {s t : State}

theorem coreIn_of_coresOut (h : t.faults.coresOut = s.faults.coresOut) (c : Nat) : coreIn t c = coreIn s c := by
  unfold coreIn; rw [h]

theorem handlingRec_of_rd (h : ∀ f, t.rd f = s.rd f) : handlingRec t = handlingRec s := by
  unfold handlingRec State.rdb; rw [h, h]

theorem needsVote_of_rd (h : ∀ f, t.rd f = s.rd f) {i : Nat} (hr : t.frec i = s.frec i) : needsVote t i = needsVote s i := by
  unfold needsVote hooked; rw [h, h, hr]

theorem actionObject_of_rd (h : ∀ f, t.rd f = s.rd f) {i : Nat} (hr : t.frec i = s.frec i) :
    actionObject t i = actionObject s i := by unfold actionObject; rw [h, h, hr]

theorem handlingRec_lt {i : Nat} (h : handlingRec s = some i) : i < 256 := by
  unfold handlingRec at h
  split at h
  · cases h; exact s.rd_lt R.WDN_STATUS_HANDLING_IDX
  · cases h

end

section
variable {l : List Fld} {q : List Part} {s t : State}

theorem Within.faults (h : Within l q s t) (hq : .faults ∈ q) (o : FaultState) : Within l q s { t with faults := o } :=
  ⟨h.1.of_regs rfl, (ChangesOnly.closed _ s).faults (by simp [hq]) t o h.2⟩

theorem Within.setWindows (h : Within l q s t) (hq : .faults ∈ q) (ws : List VoteWindow) : Within l q s (setWindows ws t) :=
  h.faults hq _

theorem Within.setFrec (h : Within l q s t) (hq : .faults ∈ q) (i : Nat) (o : RecState) : Within l q s (t.setFrec i o) :=
  h.faults hq _

theorem Within.raise (h : Within l q s t) (c o : Nat) : Within l q s (t.raise c o) := h.queue (.raise _ _ _)

end

/-! ### A proposal (R211, R212) -/

section
variable {s : State} {p : Proposal} {i : Nat} {w : VoteWindow}

/-- The first proposal for the record being handled opens its window. -/
theorem propose_opens (hcore : coreIn s p.core = true) (hrec : handlingRec s = some i) (hneeds : needsVote s i = true)
    (hopen : (s.frec i).voted = none) (hnone : s.faults.windows.find? (·.index == i) = none) :
    propose p i s = setWindows (s.faults.windows ++ [{ index := i, openNs := s.monoNs, props := [p] }]) s := by
  unfold propose
  simp [hcore, hnone, hrec, hneeds, hopen]

/-- A proposal of another core that comes within the 2 µs of the only window joins it. -/
theorem propose_joins (hcore : coreIn s p.core = true) (hone : s.faults.windows = [w]) (hi : w.index = i)
    (hrun : s.monoNs < w.openNs + 2000) (hnew : ∀ x ∈ w.props, x.core ≠ p.core) :
    propose p i s =
      (let agreed := w.agreed.orElse fun _ => agreement (w.props ++ [p])
       let t := setWindows [{ w with props := w.props ++ [p], agreed }] s
       if w.agreed.isNone && agreed.isSome then (t.setFrec i { s.frec i with voted := agreed }).raise 0x0904 i else t) := by
  have hfirst : w.props.any (fun x => x.core == p.core) = false := by simpa using hnew
  unfold propose windowOver
  simp only [hcore, hone, List.find?_cons, hi, beq_self_eq_true, hfirst, decide_eq_false (show ¬w.openNs + 2000 ≤ s.monoNs by omega)]
  simp [hi]

theorem propose_joins_agreed (hcore : coreIn s p.core = true) (hone : s.faults.windows = [w]) (hi : w.index = i)
    (hrun : s.monoNs < w.openNs + 2000) (hnew : ∀ x ∈ w.props, x.core ≠ p.core) (hagreed : w.agreed.isSome = true) :
    propose p i s = setWindows [{ w with props := w.props ++ [p] }] s := by
  obtain ⟨v, hv⟩ := Option.isSome_iff_exists.mp hagreed
  rw [propose_joins hcore hone hi hrun hnew]
  simp [hv]

/-- The proposal of a core that equals the only one of another core. -/
theorem agreement_pair {x p : Proposal} (hc : x.core ≠ p.core) (ha : x.action = p.action) (ho : x.object = p.object) :
    agreement [x, p] = some (p.action, p.object) := by
  have hx : [x, p].any (fun y => y.core != x.core && y.action == x.action && y.object == x.object) = true := by
    simp [Ne.symm hc, ha, ho]
  unfold agreement
  rw [List.find?_cons_of_pos (by exact hx), Option.map_some, ha, ho]

theorem propose_agrees {x : Proposal} (hcore : coreIn s p.core = true) (hone : s.faults.windows = [w]) (hi : w.index = i)
    (hrun : s.monoNs < w.openNs + 2000) (hopen : w.agreed = none) (hx : w.props = [x]) (hc : x.core ≠ p.core)
    (ha : x.action = p.action) (ho : x.object = p.object) : propose p i s =
      ((setWindows [{ w with props := [x, p], agreed := some (p.action, p.object) }] s).setFrec i
        { s.frec i with voted := some (p.action, p.object) }).raise 0x0904 i := by
  rw [propose_joins hcore hone hi hrun (by simpa [hx] using hc), hx, hopen, List.singleton_append, agreement_pair hc ha ho]
  simp

theorem wardenProposal_opens (s : State) (core i a o : Nat) (hi : i < 256) (hcore : coreIn s core = true)
    (hrec : handlingRec s = some i) (hneeds : needsVote s i = true) (hopen : (s.frec i).voted = none)
    (hnone : s.faults.windows.find? (·.index == i) = none) : ∃ t, exec (.wardenProposal core i a o) s = .next t ∧
      t.faults = { s.faults with windows := s.faults.windows ++
        [{ index := i, openNs := s.monoNs, props := [{ core := core, action := a, object := o }] }] } ∧
      FieldsOnly [] s t ∧ ChangesOnly [.regs, .evq, .sent, .faults] s t := by
  have hlt : core < 3 := by simp [coreIn] at hcore; exact hcore.1
  refine ⟨_, exec_of_wf (by simp [WellFormed, Instr.wf, hlt, hi]) rfl, ?_⟩
  rw [wardenProposal, propose_opens hcore hrec hneeds hopen hnone]
  exact ⟨State.flushEvents_faults _, ((Within.refl [] [.faults] s).setWindows (by decide) _).queue (.flushEvents _)⟩

theorem wardenProposal_agrees (s : State) (core i a o : Nat) (w : VoteWindow) (p : Proposal) (hi : i < 256)
    (hcore : coreIn s core = true) (hone : s.faults.windows = [w]) (hw : w.index = i) (hrun : s.monoNs < w.openNs + 2000)
    (hopen : w.agreed = none) (hp : w.props = [p]) (hc : p.core ≠ core) (ha : p.action = a) (ho : p.object = o) :
    ∃ t, exec (.wardenProposal core i a o) s = .next t ∧ (t.frec i).voted = some (a, o) ∧
      t.faults.windows = [{ w with props := [p, { core := core, action := a, object := o }], agreed := some (a, o) }] ∧
      FieldsOnly [] s t ∧ ChangesOnly [.regs, .evq, .sent, .faults] s t := by
  have hlt : core < 3 := by simp [coreIn] at hcore; exact hcore.1
  refine ⟨_, exec_of_wf (by simp [WellFormed, Instr.wf, hlt, hi]) rfl, ?_⟩
  rw [wardenProposal, propose_agrees hcore hone hw hrun hopen hp hc ha ho]
  exact ⟨by simp, by simp, ((((Within.refl [] [.faults] s).setWindows (by decide) _).setFrec (by decide) _ _).raise _ _).queue
    (.flushEvents _)⟩

end

/-! ### A split (R213, R237) -/

section
variable {s : State} {i : Nat}

/-- At its first split a vote goes on. -/
theorem splitVote_first (h : (s.frec i).splits = 0) : splitVote i s =
    ((s.wr R.CRT_WVOTE_SPLITS (satTo 8 (s.rd R.CRT_WVOTE_SPLITS + 1))).raise 0x0809 i).setFrec i { s.frec i with splits := 1 } := by
  unfold splitVote
  simp only [State.raise_frec, State.wr_frec, h]
  rw [if_neg (by omega)]

theorem splitVote_first_splits (h : (s.frec i).splits = 0) :
    (splitVote i s).rd R.CRT_WVOTE_SPLITS = min (s.rd R.CRT_WVOTE_SPLITS + 1) 255 := by
  rw [splitVote_first h, State.setFrec_rd, State.raise_rd, State.rd_wr _ _ _ (by decide)]
  generalize s.rd R.CRT_WVOTE_SPLITS = n
  simp only [satTo, R.CRT_WVOTE_SPLITS]
  omega

theorem splitVote_first_within {t : State} (hs : Within [R.CRT_WVOTE_SPLITS] [.faults] t s) (h : (s.frec i).splits = 0) :
    Within [R.CRT_WVOTE_SPLITS] [.faults] t (splitVote i s) := by
  rw [splitVote_first h]
  exact ((hs.wr (by simp) (by decide) _).raise _ _).setFrec (by decide) _ _

theorem voteWindowClose_splits (s : State) (w : VoteWindow) (ws : List VoteWindow) (hone : s.faults.windows = w :: ws)
    (hover : w.openNs + 2000 ≤ s.monoNs) (hopen : w.agreed = none) (hsplits : (s.frec w.index).splits = 0) :
    ∃ t, exec .voteWindowClose s = .next t ∧ t.faults.windows = ws ∧
      t.rd R.CRT_WVOTE_SPLITS = min (s.rd R.CRT_WVOTE_SPLITS + 1) 255 ∧
      t.frec w.index = { s.frec w.index with splits := 1 } ∧ FieldsOnly [R.CRT_WVOTE_SPLITS] s t ∧
      ChangesOnly [.regs, .evq, .sent, .faults] s t := by
  refine ⟨_, exec_of_wf rfl rfl, ?_⟩
  have hclose : voteWindowClose s = splitVote w.index (setWindows ws s) := by
    have hend : windowOver s w = true := decide_eq_true hover
    unfold voteWindowClose
    simp only [hone, hend, hopen, Bool.true_eq_false, if_false]
  have hfirst : ((setWindows ws s).frec w.index).splits = 0 := by rw [setWindows_frec]; exact hsplits
  rw [hclose]
  refine ⟨?_, ?_, ?_, ?_⟩
  · rw [splitVote_first hfirst]; simp
  · rw [State.flushEvents_rd _ _ (by decide), splitVote_first_splits hfirst, setWindows_rd]
  · rw [splitVote_first hfirst]; simp
  · exact (splitVote_first_within ((Within.refl _ _ s).setWindows (by decide) ws) hfirst).queue (.flushEvents _)

end

/-! ### HANDLER_STAGE_END (R213, R236) -/

/-- What a core that overran proposes: the built-in action of record `i`. -/
def builtinProposal (s : State) (i c : Nat) : Proposal := { core := c, action := (s.frec i).action, object := actionObject s i }

/-- A core that overran its stage proposes, with HOOK_OVERRUN. -/
def proposeBuiltin (i : Nat) (s : State) (c : Nat) : State := propose (builtinProposal s i c) i (s.raise 0x0907 i)

/-- The cores in the vote that overran the stage of record `i`. -/
def coresPast (s : State) (i : Nat) (overrun : List Nat) : List Nat :=
  if hooked s (s.rd (R.WDN_LOG_W1_CODE i)) then overrun.eraseDups.filter (coreIn s) else []

/-- A window without the proposals of some cores for record `i`, while it has no agreement. -/
def dropProposals (i : Nat) (past : List Nat) (w : VoteWindow) : VoteWindow :=
  if w.index = i ∧ w.agreed = none then { w with props := w.props.filter fun p => !past.contains p.core } else w

section
variable {s : State} {i : Nat} {overrun : List Nat}

/-- The end of the stage of the record being handled, which has an agreement or awaits its vote. -/
theorem handlerStageEnd_of_handling (hrec : handlingRec s = some i)
    (hvote : (s.frec i).voted.isSome = true ∨ needsVote s i = true) : handlerStageEnd overrun s =
      (let past := coresPast s i overrun
       let t := past.foldl (proposeBuiltin i) (setWindows (s.faults.windows.map (dropProposals i past)) s)
       if t.faults.windows.any (·.index == i) || (t.frec i).voted.isSome then t else splitVote i t) := by
  have hgoes : ((s.frec i).voted.isNone && !needsVote s i) = false := by
    rcases hvote with h | h
    · simp [Option.isNone_iff_eq_none, Option.isSome_iff_ne_none.mp h]
    · simp [h]
  have hhere : (handlingRec s == some i) = true := by simp [hrec]
  have hindex : ((handlingRec s).orElse fun _ => s.faults.windows.getLast?.map (·.index)) = some i := by rw [hrec]; rfl
  unfold handlerStageEnd
  simp only [hindex, hhere, Bool.true_and, hgoes, Bool.not_true, Bool.false_or, Bool.false_eq_true, if_false]
  rfl

end


section
variable {s : State} {i c d : Nat} {w : VoteWindow}

@[simp] theorem coreIn_raise (s : State) (code o c : Nat) : coreIn (s.raise code o) c = coreIn s c :=
  coreIn_of_coresOut (by rw [State.raise_faults]) c
@[simp] theorem handlingRec_raise (s : State) (code o : Nat) : handlingRec (s.raise code o) = handlingRec s :=
  handlingRec_of_rd (State.raise_rd s code o)
@[simp] theorem needsVote_raise (s : State) (code o i : Nat) : needsVote (s.raise code o) i = needsVote s i :=
  needsVote_of_rd (State.raise_rd s code o) (State.raise_frec s code o i)

/-- The first core that overran opens the window of the record. -/
theorem proposeBuiltin_opens (hrec : handlingRec s = some i) (hopen : (s.frec i).voted = none) (hneeds : needsVote s i = true)
    (hnone : s.faults.windows = []) (hcore : coreIn s c = true) : proposeBuiltin i s c =
      setWindows [{ index := i, openNs := s.monoNs, props := [builtinProposal s i c] }] (s.raise 0x0907 i) := by
  have h := propose_opens (s := s.raise 0x0907 i) (p := builtinProposal s i c) (i := i) ((coreIn_raise _ _ _ _).trans hcore)
    ((handlingRec_raise _ _ _).trans hrec) ((needsVote_raise _ _ _ _).trans hneeds) (by rw [State.raise_frec, hopen])
    (by rw [State.raise_faults, hnone]; rfl)
  rw [proposeBuiltin, h, State.raise_faults, hnone, State.raise_monoNs, List.nil_append]

/-- A core that overran after an agreement joins the window. -/
theorem proposeBuiltin_joins_agreed (hcore : coreIn s c = true) (hone : s.faults.windows = [w]) (hi : w.index = i)
    (hrun : s.monoNs < w.openNs + 2000) (hnew : ∀ x ∈ w.props, x.core ≠ c) (hagreed : w.agreed.isSome = true) :
    proposeBuiltin i s c = setWindows [{ w with props := w.props ++ [builtinProposal s i c] }] (s.raise 0x0907 i) :=
  propose_joins_agreed (s := s.raise 0x0907 i) (p := builtinProposal s i c) ((coreIn_raise _ _ _ _).trans hcore)
    (by rw [State.raise_faults, hone]) hi (by rw [State.raise_monoNs]; exact hrun) hnew hagreed

/-- A second core that overran agrees with the first. -/
theorem proposeBuiltin_agrees {x : Proposal} (hcore : coreIn s d = true) (hone : s.faults.windows = [w]) (hi : w.index = i)
    (hrun : s.monoNs < w.openNs + 2000) (hopen : w.agreed = none) (hx : w.props = [x]) (hc : x.core ≠ d)
    (ha : x.action = (s.frec i).action) (ho : x.object = actionObject s i) : proposeBuiltin i s d =
      ((setWindows [{ w with props := [x, builtinProposal s i d], agreed := some ((s.frec i).action, actionObject s i) }]
        (s.raise 0x0907 i)).setFrec i { s.frec i with voted := some ((s.frec i).action, actionObject s i) }).raise 0x0904 i := by
  have h := propose_agrees (s := s.raise 0x0907 i) (p := builtinProposal s i d) ((coreIn_raise _ _ _ _).trans hcore)
    (by rw [State.raise_faults, hone]) hi (by rw [State.raise_monoNs]; exact hrun) hopen hx hc ha ho
  rw [proposeBuiltin, h, State.raise_frec]
  rfl

theorem coresPast_of_hooked (hhook : hooked s (s.rd (R.WDN_LOG_W1_CODE i)) = true) {overrun : List Nat}
    (hnodup : overrun.eraseDups = overrun) (hin : ∀ c ∈ overrun, coreIn s c = true) : coresPast s i overrun = overrun := by
  rw [coresPast, if_pos hhook, hnodup, List.filter_eq_self]
  exact hin

/-- With no window at the end of the stage, and the cores `past` to propose. -/
theorem handlerStageEnd_of_noWindow {overrun past : List Nat} (hrec : handlingRec s = some i) (hneeds : needsVote s i = true)
    (hpast : coresPast s i overrun = past) (hnone : s.faults.windows = []) {t : State}
    (ht : past.foldl (proposeBuiltin i) s = t) : handlerStageEnd overrun s =
      if t.faults.windows.any (·.index == i) || (t.frec i).voted.isSome then t else splitVote i t := by
  rw [handlerStageEnd_of_handling hrec (.inr hneeds)]
  simp only [hpast, setWindows_self (s := s) (ws := s.faults.windows.map (dropProposals i past)) (by rw [hnone]; rfl), ht]

theorem handlerStageEnd_opens (s : State) (c i : Nat) (hrec : handlingRec s = some i) (hopen : (s.frec i).voted = none)
    (hneeds : needsVote s i = true) (hhook : hooked s (s.rd (R.WDN_LOG_W1_CODE i)) = true) (hnone : s.faults.windows = [])
    (hcore : coreIn s c = true) : ∃ t, exec (.handlerStageEnd [c]) s = .next t ∧
      t.faults = { s.faults with windows := [{ index := i, openNs := s.monoNs, props :=
        [{ core := c, action := (s.frec i).action, object := actionObject s i }] }] } ∧
      FieldsOnly [] s t ∧ ChangesOnly [.regs, .evq, .sent, .faults] s t := by
  refine ⟨_, exec_of_wf rfl rfl, ?_⟩
  have hpast : coresPast s i [c] = [c] := coresPast_of_hooked hhook (by simp [List.eraseDups_cons]) (by simpa using hcore)
  rw [handlerStageEnd_of_noWindow hrec hneeds hpast hnone (proposeBuiltin_opens hrec hopen hneeds hnone hcore), if_pos (by simp)]
  refine ⟨?_, (((Within.refl [] [.faults] s).raise _ _).setWindows (by decide) _).queue (.flushEvents _)⟩
  rw [State.flushEvents_faults, setWindows, State.raise_faults]
  rfl

theorem handlerStageEnd_agrees (s : State) (c d i : Nat) (hrec : handlingRec s = some i) (hopen : (s.frec i).voted = none)
    (hneeds : needsVote s i = true) (hhook : hooked s (s.rd (R.WDN_LOG_W1_CODE i)) = true) (hnone : s.faults.windows = [])
    (hc : coreIn s c = true) (hd : coreIn s d = true) (hcd : c ≠ d) : ∃ t, exec (.handlerStageEnd [c, d]) s = .next t ∧
      (t.frec i).voted = some ((s.frec i).action, actionObject s i) ∧
      (∃ w, t.faults.windows = [w] ∧ w.index = i ∧ w.agreed = some ((s.frec i).action, actionObject s i)) ∧
      FieldsOnly [] s t ∧ ChangesOnly [.regs, .evq, .sent, .faults] s t := by
  refine ⟨_, exec_of_wf rfl rfl, ?_⟩
  have hfirst := proposeBuiltin_opens hrec hopen hneeds hnone hc
  have hbuilt : (proposeBuiltin i s c).frec i = s.frec i ∧ actionObject (proposeBuiltin i s c) i = actionObject s i := by
    rw [hfirst]
    refine ⟨by simp, actionObject_of_rd (fun f => ?_) (by simp)⟩
    simp
  have hsecond := proposeBuiltin_agrees (s := proposeBuiltin i s c) (i := i) (d := d)
    (w := { index := i, openNs := s.monoNs, props := [builtinProposal s i c] }) (x := builtinProposal s i c)
    (by rw [hfirst, coreIn_of_coresOut (setWindows_coresOut _ _), coreIn_raise]; exact hd) (by rw [hfirst, setWindows_windows]) rfl
    (by rw [hfirst, setWindows_monoNs, State.raise_monoNs]; exact Nat.lt_add_of_pos_right (by decide)) rfl rfl hcd
    (by rw [hbuilt.1]; rfl) (by rw [hbuilt.2]; rfl)
  have hpast : coresPast s i [c, d] = [c, d] :=
    coresPast_of_hooked hhook (by simp [List.eraseDups_cons, Ne.symm hcd]) (by simp [hc, hd])
  rw [hbuilt.1, hbuilt.2] at hsecond
  rw [handlerStageEnd_of_noWindow hrec hneeds hpast hnone hsecond, if_pos (by simp)]
  refine ⟨by simp, ⟨_, by simp; rfl, rfl, rfl⟩, ?_⟩
  rw [hfirst]
  exact (((((((Within.refl [] [.faults] s).raise _ _).setWindows (by decide) _).raise _ _).setWindows (by decide) _).setFrec
    (by decide) _ _).raise _ _).queue (.flushEvents _)

theorem handlerStageEnd_joins (s : State) (c i a o : Nat) (w : VoteWindow) (hrec : handlingRec s = some i)
    (hvoted : (s.frec i).voted = some (a, o)) (hhook : hooked s (s.rd (R.WDN_LOG_W1_CODE i)) = true)
    (hone : s.faults.windows = [w]) (hi : w.index = i) (hagreed : w.agreed = some (a, o)) (hrun : s.monoNs < w.openNs + 2000)
    (hcore : coreIn s c = true) (hnew : w.props.any (·.core == c) = false) :
    ∃ t, exec (.handlerStageEnd [c]) s = .next t ∧ t.faults = { s.faults with windows :=
        [{ w with props := w.props ++ [{ core := c, action := (s.frec i).action, object := actionObject s i }] }] } ∧
      FieldsOnly [] s t ∧ ChangesOnly [.regs, .evq, .sent, .faults] s t := by
  refine ⟨_, exec_of_wf rfl rfl, ?_⟩
  have hpast : coresPast s i [c] = [c] := coresPast_of_hooked hhook (by simp [List.eraseDups_cons]) (by simpa using hcore)
  have hstay : setWindows (s.faults.windows.map (dropProposals i [c])) s = s :=
    setWindows_self (by rw [hone]; simp [dropProposals, hagreed])
  have hjoin := proposeBuiltin_joins_agreed (i := i) hcore hone hi hrun (by simpa using hnew) (by rw [hagreed]; rfl)
  rw [handlerStageEnd_of_handling hrec (.inl (by rw [hvoted]; rfl))]
  simp only [hpast, hstay, List.foldl_cons, List.foldl_nil, hjoin]
  rw [if_pos (by simp [hi])]
  refine ⟨?_, (((Within.refl [] [.faults] s).raise _ _).setWindows (by decide) _).queue (.flushEvents _)⟩
  rw [State.flushEvents_faults, setWindows, State.raise_faults]
  rfl

theorem handlerStageEnd_waits (s : State) (i : Nat) (hrec : handlingRec s = some i) (hneeds : needsVote s i = true)
    (hopen : s.faults.windows.any (·.index == i) = true) : ∃ t, exec (.handlerStageEnd []) s = .next t ∧
      t.faults = s.faults ∧ FieldsOnly [] s t ∧ ChangesOnly [.regs, .evq, .sent] s t := by
  refine ⟨_, exec_of_wf rfl rfl, ?_⟩
  have hpast : coresPast s i [] = [] := by simp [coresPast]
  have hstay : setWindows (s.faults.windows.map (dropProposals i [])) s = s :=
    setWindows_self ((List.map_congr_left fun w _ => by simp [dropProposals]).trans (List.map_id _))
  rw [handlerStageEnd_of_handling hrec (.inr hneeds)]
  simp only [hpast, hstay, List.foldl_nil, hopen, Bool.true_or, if_true]
  exact ⟨State.flushEvents_faults s, (Within.refl [] [] s).queue (.flushEvents _)⟩

theorem handlerStageEnd_splits (s : State) (overrun : List Nat) (i : Nat) (hrec : handlingRec s = some i)
    (hopen : (s.frec i).voted = none) (hneeds : needsVote s i = true) (hhook : hooked s (s.rd (R.WDN_LOG_W1_CODE i)) = false)
    (hnone : s.faults.windows = []) (hsplits : (s.frec i).splits = 0) : ∃ t, exec (.handlerStageEnd overrun) s = .next t ∧
      t.rd R.CRT_WVOTE_SPLITS = min (s.rd R.CRT_WVOTE_SPLITS + 1) 255 ∧ t.frec i = { s.frec i with splits := 1 } ∧
      FieldsOnly [R.CRT_WVOTE_SPLITS] s t ∧ ChangesOnly [.regs, .evq, .sent, .faults] s t := by
  refine ⟨_, exec_of_wf rfl rfl, ?_⟩
  rw [handlerStageEnd_of_noWindow hrec hneeds (past := []) (by rw [coresPast, hhook]; rfl) hnone rfl,
    List.foldl_nil, if_neg (by simp [hnone, hopen])]
  refine ⟨?_, ?_, ?_⟩
  · rw [State.flushEvents_rd _ _ (by decide), splitVote_first_splits hsplits]
  · rw [State.flushEvents_frec, splitVote_first hsplits]; simp
  · exact (splitVote_first_within (.refl _ _ s) hsplits).queue (.flushEvents _)

end

end Sys2Proof.Machine

/-!
PROOFS. The fault log (R231 to R235) and the critical rectangles (R244): what keeps the registers that say which rectangles are live,
and what a property survives while records are written and closed.
-/
namespace Sys2Proof.Machine

/-! ### Which rectangles are live -/

/-- The offsets of the registers that say which rectangles are live: CRT_RECT_POS, CMP_FLUE_CTRL, CMP_FLUE_VTIME and
DMP_RESTED_FLUES. -/
def rectOffset (a : Nat) : Bool :=
  (decide (0x81000 ≤ a) && decide (a < 0x82000)) || (decide (0xB0100 ≤ a) && decide (a < 0xB0500) && decide (a % 16 = 0)) ||
    decide (a = 0xD001C)

/-- `t` has the registers of `s` that say which rectangles are live, and the same flues rested. -/
structure SameRects (s t : State) : Prop where
  word : ∀ a, rectOffset a = true → t.word a = s.word a
  rested : t.tick.current.map Sheet.rested = s.tick.current.map Sheet.rested

section
variable {s t u : State}

theorem SameRects.refl (s : State) : SameRects s s := ⟨fun _ _ => rfl, rfl⟩

theorem SameRects.of_parts (h : SameRects s t) (hr : u.regs = t.regs)
    (ht : u.tick.current.map Sheet.rested = t.tick.current.map Sheet.rested) : SameRects s u :=
  ⟨fun a ha => by rw [← h.word a ha]; unfold State.word; rw [hr], ht.trans h.rested⟩

/-- An update outside the registers and the tick. -/
theorem SameRects.of_regs (h : SameRects s t) (hr : u.regs = t.regs) (ht : u.tick = t.tick) : SameRects s u :=
  h.of_parts hr (by rw [ht])

theorem SameRects.wr (h : SameRects s t) {f : Fld} (hf : rectOffset f.addr = false) (v : Nat) : SameRects s (t.wr f v) := by
  refine ⟨fun a ha => (State.word_wr_ne t f v a fun e => ?_).trans (h.word a ha), h.rested⟩
  rw [e, hf] at ha
  cases ha

theorem SameRects.raise (h : SameRects s t) (c o : Nat) : SameRects s (t.raise c o) := by
  unfold State.raise State.raiseAt
  exact closed_ite h (h.of_regs rfl rfl)

theorem SameRects.rd (h : SameRects s t) {f : Fld} (hf : rectOffset f.addr = true) : t.rd f = s.rd f := by
  unfold State.rd; rw [h.word _ hf]

theorem SameRects.restedNow (h : SameRects s t) (f : Nat) : restedNow t f = restedNow s f := by
  have hr := h.rested
  unfold Machine.restedNow
  rw [h.rd (by decide)]
  cases ht : t.tick.current <;> cases hs : s.tick.current <;> simp_all

theorem SameRects.rectLive (h : SameRects s t) {n : Nat} (hn : n < 64) : rectLive t n = rectLive s n := by
  have hpos : t.rd (R.CRT_RECT_POS_FLUE n) = s.rd (R.CRT_RECT_POS_FLUE n) ∧
      t.rdb (R.CRT_RECT_POS_VALID n) = s.rdb (R.CRT_RECT_POS_VALID n) := by
    have hoff : rectOffset (0x0B0100 + 0x10 * n) = true := by simp [rectOffset]; omega
    exact ⟨h.rd hoff, by unfold State.rdb; rw [h.rd hoff]⟩
  have hflue : s.rd (R.CRT_RECT_POS_FLUE n) < 32 := s.rd_lt (R.CRT_RECT_POS_FLUE n)
  have hraster (f : Nat) (hf : f < 32) : t.rdb (R.CMP_FLUE_CTRL_ENABLE f) = s.rdb (R.CMP_FLUE_CTRL_ENABLE f) ∧
      t.rd (R.CMP_FLUE_VTIME_V_TOTAL f) = s.rd (R.CMP_FLUE_VTIME_V_TOTAL f) := by
    have hctrl : rectOffset (0x081000 + 0x80 * f) = true := by simp [rectOffset]; omega
    have hvtime : rectOffset (0x081008 + 0x80 * f) = true := by simp [rectOffset]; omega
    exact ⟨by unfold State.rdb; rw [h.rd hctrl], h.rd hvtime⟩
  unfold Machine.rectLive
  dsimp only
  rw [hpos.1, hpos.2, (hraster _ hflue).1, (hraster _ hflue).2, h.restedNow]

theorem SameRects.noRectLive (h : SameRects s t) (hs : noRectLive s) : noRectLive t :=
  fun n hn => (h.rectLive hn).trans (hs n hn)

end

theorem closed_foldl_mem {α : Type} {P : State → Prop} {f : State → α → State} {l : List α} {s : State}
    (hf : ∀ t, ∀ x ∈ l, P t → P (f t x)) (hs : P s) : P (l.foldl f s) := by
  induction l generalizing s with
  | nil => exact hs
  | cons x l ih => exact ih (fun t y hy => hf t y (List.mem_cons_of_mem _ hy)) (hf s x List.mem_cons_self hs)

/-- With no rectangle live none is lost. -/
theorem checkLost_of_noRectLive {s : State} (h : noRectLive s) : checkLost s = s := by
  unfold checkLost
  refine closed_foldl_mem (P := fun t => t = s) (fun t n hn ht => ?_) rfl
  rw [ht, h n (List.mem_range.mp hn), if_neg (by simp)]

/-! ### What survives while records are written -/

/-- The offsets of the Warden's registers, of the log, and of the hierarchy registers that show the units (R61). -/
def wardenOffset (a : Nat) : Bool := (decide (0xC0000 ≤ a) && decide (a < 0xC2000)) || decide (a ∈ [0x108, 0x110, 0x114])

/-- `P` survives what the Warden does to these registers, to the records, and to the rectangles that a closed record freed. -/
structure LogKeeps (P : State → Prop) : Prop where
  wr : ∀ {s : State} {f : Fld} {v : Nat}, P s → wardenOffset f.addr = true → P (s.wr f v)
  raise : ∀ {s : State} {c o : Nat}, P s → P (s.raise c o)
  faults : ∀ {s : State} {o : FaultState}, P s → o.coresOut = s.faults.coresOut → P { s with faults := o }
  rects : ∀ {s : State} {x : Tab RectState}, P s → P { s with comp := { s.comp with rects := x } }

theorem logWord_offset {i j : Nat} (hi : i < 256) (hj : j < 16) : wardenOffset (0xC1000 + j + 0x10 * i) = true := by
  simp [wardenOffset]; omega

theorem freeSlot_lt (s : State) (n i : Nat) (hi : i < 256) : freeSlot s n i < 256 := by
  induction n generalizing i with
  | zero => exact hi
  | succ n ih =>
    unfold freeSlot
    split
    · exact ih _ (Nat.mod_lt _ (by decide))
    · exact hi

section
variable {P : State → Prop} (hP : LogKeeps P) {s : State}
include hP

theorem LogKeeps.setFrec {i : Nat} {o : RecState} (hs : P s) : P (s.setFrec i o) := hP.faults hs rfl

theorem LogKeeps.setWindows {ws : List VoteWindow} (hs : P s) : P (setWindows ws s) := hP.faults hs rfl

theorem LogKeeps.refreshWdn (hs : P s) : P (refreshWdn s) := hP.wr (hP.wr hs (by decide)) (by decide)

theorem LogKeeps.refreshHold (hs : P s) : P (refreshHold s) := hP.wr (hP.wr hs (by decide)) (by decide)

theorem LogKeeps.endHandling (hs : P s) : P (endHandling s) := hP.wr (hP.wr hs (by decide)) (by decide)

theorem LogKeeps.raiseAll {evs : List (Nat × Nat)} (hs : P s) : P (raiseAll evs s) := closed_foldl (fun _ _ ht => hP.raise ht) hs

theorem LogKeeps.setRecState {i : Nat} (hi : i < 256) (st : Nat) (hs : P s) : P (setRecState i st s) := by
  unfold Machine.setRecState
  extract_lets s1 o s2 fs
  have h1 : P s1 := hP.wr hs (logWord_offset hi (j := 4) (by decide))
  have h2 : P s2 := closed_when (fun h => hP.rects h) h1
  clear_value s2
  refine hP.refreshWdn ?_
  exact hP.faults h2 rfl

theorem LogKeeps.writeRecord (code level object action st : Nat) (prev : Option Nat) (injected : Bool) (hs : P s) :
    P (writeRecord code level object action st prev injected s).2.2 := by
  unfold Machine.writeRecord
  extract_lets wr slot used unread full s1 s2 s3 s4 s5 s6 s7 s8 s9 s10 fs s11
  have hslot : slot < 256 := freeSlot_lt s 256 wr (s.rd_lt R.WDN_LOG_PTR_WR)
  clear_value slot
  have hw (j : Nat) (hj : j < 16) : wardenOffset (0xC1000 + j + 0x10 * slot) = true := logWord_offset hslot hj
  have h2 : P s2 := hP.wr (hP.wr hs (by decide)) (by decide)
  have h3 : P s3 := closed_ite (hP.wr (hP.wr (hP.wr h2 (by decide)) (by decide)) (by decide)) h2
  have h4 : P s4 := hP.wr h3 (hw 0 (by decide))
  have h5 : P s5 := hP.wr (hP.wr (hP.wr h4 (hw 4 (by decide))) (hw 4 (by decide))) (hw 4 (by decide))
  have h6 : P s6 := hP.wr h5 (hw 4 (by decide))
  have h7 : P s7 := hP.wr (hP.wr h6 (hw 8 (by decide))) (hw 8 (by decide))
  have h8 : P s8 := hP.wr (hP.wr h7 (hw 8 (by decide))) (hw 8 (by decide))
  have h9 : P s9 := hP.wr (hP.wr h8 (hw 12 (by decide))) (hw 12 (by decide))
  have h10 : P s10 := hP.setFrec h9
  have h11 : P s11 := hP.faults h10 rfl
  clear_value s11
  exact hP.setRecState hslot _ h11

/-- A record whose action withdraws nothing stops no cue. -/
theorem LogKeeps.stopCues_nil {i : Nat} (taints : Bool) (hs : P s) : P (stopCues i [] taints s).2 :=
  hP.refreshHold (hP.setFrec hs)

/-- A fault that asks for no withdrawal is logged while no record is open. -/
theorem LogKeeps.detect_of_noneOpen {code level object : Nat} {injected : Bool} (hnone : s.faults.openRecs = [])
    (hact : unitsOf (builtinAction code) level object = []) (hs : P s) : P (detect code level object injected s) := by
  unfold Machine.detect
  extract_lets a opens
  have hopens : opens = [] := hnone
  clear_value opens
  subst hopens
  simp only [List.find?_nil]
  rw [show unitsOf a level object = [] from hact]
  exact hP.raiseAll (hP.stopCues_nil _ (hP.writeRecord _ _ _ _ _ _ _ hs))

theorem LogKeeps.endHold {i : Nat} (hi : i < 256) (hs : P s) : P (endHold i s) := by
  unfold Machine.endHold
  extract_lets r ns s1 s2 s3
  refine closed_ite (hP.raise ?_) hs
  have hw : wardenOffset (0xC1000 + 8 + 0x10 * i) = true := logWord_offset hi (by decide)
  have h1 : P s1 := hP.setFrec hs
  have h2 : P s2 := hP.wr (hP.wr h1 hw) hw
  exact hP.wr (hP.wr h2 (by decide)) (by decide)

end

theorem SameRects.logKeeps (s : State) : LogKeeps (SameRects s) where
  wr {_ f _} h hf := h.wr (by simp only [wardenOffset, rectOffset] at hf ⊢; simp at hf ⊢; omega) _
  raise h := h.raise _ _
  faults h _ := h.of_regs rfl rfl
  rects h := h.of_regs rfl rfl

/-! ### A core is outvoted (R212, R214) -/

theorem State.rd_wr_elsewhere (s : State) {f g : Fld} (v : Nat) (h : g.addr ≠ f.addr) : (s.wr f v).rd g = s.rd g := by
  unfold State.rd; rw [State.word_wr_ne s f v _ h]

/-- Core `c` is out of the vote, and CRT_WSTAT shows it. -/
def Outvoted (c : Nat) (s : State) : Prop := c ∈ s.faults.coresOut ∧ bitOf (s.rd R.CRT_WSTAT_IN_VOTE) c = false

theorem Outvoted.logKeeps (c : Nat) : LogKeeps (Outvoted c) where
  wr {s f v} h hf := by
    have hne : R.CRT_WSTAT_IN_VOTE.addr ≠ f.addr := fun e => by rw [← e] at hf; exact absurd hf (by decide)
    exact ⟨h.1, by rw [State.rd_wr_elsewhere s v hne]; exact h.2⟩
  raise h := ⟨by rw [State.raise_faults]; exact h.1, by rw [State.raise_rd]; exact h.2⟩
  faults h ho := ⟨by rw [ho]; exact h.1, h.2⟩
  rects h := h

section
variable {s : State} {c : Nat}

/-- The count of the losses of core `c`. -/
def outField (c : Nat) : Fld := [R.CRT_WVOTE_W0_OUT, R.CRT_WVOTE_W1_OUT, R.CRT_WVOTE_W2_OUT].getD c R.CRT_WVOTE_W0_OUT

theorem outField_addr (c : Nat) : (outField c).addr = 0xB0004 := by
  rcases c with - | - | - | c <;> rfl

/-- The state in which the core has left the vote, before the fault is logged. -/
def coreLeaves (s : State) (c : Nat) : State :=
  let t := s.wr (outField c) (satTo 8 (s.rd (outField c) + 1))
  setBit R.CRT_WSTAT_IN_VOTE c false { t with faults := { t.faults with
    coresOut := c :: t.faults.coresOut
    windows := t.faults.windows.map fun (w : VoteWindow) => { w with props := w.props.filter fun p => p.core != c } } }

theorem coreOutvoted_eq (s : State) (c : Nat) :
    coreOutvoted s c = logFault 0x0D 6 c false ((coreLeaves s c).raise 0x0808 c) := rfl

theorem coreLeaves_outvoted (hc : c < 3) : Outvoted c (coreLeaves s c) := by
  refine ⟨List.mem_cons_self, bitOf_setBit_same _ (by decide) ?_ _⟩
  simp only [R.CRT_WSTAT_IN_VOTE]
  omega

theorem coreLeaves_sameRects (s : State) (c : Nat) : SameRects s (coreLeaves s c) := by
  have hcount : rectOffset (outField c).addr = false := by rw [outField_addr]; decide
  unfold coreLeaves
  extract_lets t
  have ht : SameRects s t := (SameRects.refl s).wr hcount _
  refine SameRects.wr (f := R.CRT_WSTAT_IN_VOTE) ?_ (by decide) _
  exact ht.of_regs rfl rfl

theorem coreOutvoted_outvoted (hc : c < 3) (hnone : s.faults.openRecs = []) (hlive : noRectLive s) :
    Outvoted c (coreOutvoted s c) := by
  have hopen : ((coreLeaves s c).raise 0x0808 c).faults.openRecs = [] := by rw [State.raise_faults]; exact hnone
  have hrects : SameRects s (detect 0x0D 6 c false ((coreLeaves s c).raise 0x0808 c)) :=
    (SameRects.logKeeps s).detect_of_noneOpen hopen rfl ((coreLeaves_sameRects s c).raise _ _)
  rw [coreOutvoted_eq, logFault, checkLost_of_noRectLive (hrects.noRectLive hlive)]
  have hkeeps := Outvoted.logKeeps c
  exact hkeeps.detect_of_noneOpen hopen rfl (hkeeps.raise (coreLeaves_outvoted hc))

theorem voteWindowClose_outvotes (s : State) (w : VoteWindow) (a o c : Nat) (hone : s.faults.windows = [w])
    (hover : w.openNs + 2000 ≤ s.monoNs) (hagreed : w.agreed = some (a, o)) (hc : c < 3)
    (hbad : (List.range 3).filter (fun d => coreIn s d && !w.props.any fun p => p.core == d && p.action == a && p.object == o) = [c])
    (hnone : s.faults.openRecs = []) (hlive : noRectLive s) : ∃ t, exec .voteWindowClose s = .next t ∧
      coreIn t c = false ∧ bitOf (t.rd R.CRT_WSTAT_IN_VOTE) c = false := by
  refine ⟨_, exec_of_wf rfl rfl, ?_⟩
  have hclose : voteWindowClose s = coreOutvoted (setWindows [] s) c := by
    have hend : windowOver s w = true := decide_eq_true hover
    have hsame (d : Nat) : coreIn (setWindows [] s) d = coreIn s d := coreIn_of_coresOut rfl d
    unfold voteWindowClose
    simp only [hone, hend, hagreed, Bool.true_eq_false, if_false, hsame, hbad, List.foldl_cons, List.foldl_nil]
  rw [hclose]
  obtain ⟨hout, hbit⟩ := coreOutvoted_outvoted (s := setWindows [] s) hc hnone (((SameRects.refl s).of_regs rfl rfl).noRectLive hlive)
  refine ⟨?_, by rw [State.flushEvents_rd _ _ (by decide)]; exact hbit⟩
  rw [coreIn_of_coresOut (congrArg FaultState.coresOut (State.flushEvents_faults _))]
  simp [coreIn, hout]

end

/-- Settles O25: a proposal opens or joins a window, and the window's end outvotes a core or is a split. -/
theorem wardenProposals : Obligations.WardenProposals := by
  unfold Obligations.WardenProposals
  exact ⟨wardenProposal_opens, wardenProposal_agrees, voteWindowClose_outvotes, voteWindowClose_splits⟩

end Sys2Proof.Machine

/-!
PROOFS. The Warden takes a record and ends its handling (R234, R235, R237), and the withdrawal of a unit (R55, R238, R241) leaves the
critical rectangles where they are.
-/
namespace Sys2Proof.Machine

/-! ### A record takes a state (R231) -/

/-- The fields that a record's change of state writes. -/
abbrev recStateFields (i : Nat) : List Fld := [R.WDN_LOG_W1_STATE i, R.WDN_STATUS_OPEN, R.WDN_STATUS_QUEUED]

section
variable {l : List Fld} {q : List Part} {s t : State} {i st : Nat}

theorem recState_ok (i : Nat) : FldOk (R.WDN_LOG_W1_STATE i) := by simp [FldOk, R.WDN_LOG_W1_STATE]
theorem recAction_ok (i : Nat) : FldOk (R.WDN_LOG_W1_ACTION i) := by simp [FldOk, R.WDN_LOG_W1_ACTION]

theorem recState_notQueue (i : Nat) : queueOffset (R.WDN_LOG_W1_STATE i).addr = false :=
  queueOffset_above (by simp only [R.WDN_LOG_W1_STATE]; omega)

theorem recAction_notQueue (i : Nat) : queueOffset (R.WDN_LOG_W1_ACTION i).addr = false :=
  queueOffset_above (by simp only [R.WDN_LOG_W1_ACTION]; omega)

theorem setRecState_fields (h : FieldsOnly l s t) (hl : recStateFields i ⊆ l) (st : Nat) : FieldsOnly l s (setRecState i st t) := by
  unfold setRecState
  extract_lets s1 o s2 fs
  have h1 : FieldsOnly l s s1 := h.wr (hl (by simp)) (recState_ok i) _
  have h2 : FieldsOnly l s s2 := closed_when (P := FieldsOnly l s) (fun h => h.of_regs rfl) h1
  clear_value s2
  unfold refreshWdn
  extract_lets x
  refine (FieldsOnly.wr ?_ (hl (by simp)) (by decide) _).wr (hl (by simp)) (by decide) _
  exact h2.of_regs rfl

theorem Closed.setRecState {K : List Part} {P : State → Prop} (h : Closed K P) (hr : .regs ∈ K) (hf : .faults ∈ K)
    (hst : isOpenState st = true ∨ .comp ∈ K) (hs : P s) : P (setRecState i st s) := by
  unfold Machine.setRecState
  extract_lets s1 o s2 fs
  have h1 : P s1 := h.wr hr _ _ _ hs
  have h2 : P s2 := by
    rcases hst with ho | hc
    · unfold s2; rw [ho]; exact h1
    · exact closed_when (h.comp hc _ _) h1
  clear_value s2
  exact h.wr hr _ _ _ (h.wr hr _ _ _ (h.faults hf _ _ h2))

theorem Within.setRecState (h : Within l q s t) (hl : recStateFields i ⊆ l) (hf : .faults ∈ q)
    (hst : isOpenState st = true ∨ .comp ∈ q) : Within l q s (setRecState i st t) :=
  ⟨setRecState_fields h.1 hl st, (ChangesOnly.closed _ s).setRecState (by simp) (by simp [hf]) (hst.imp_right (by simp [·])) h.2⟩

@[simp] theorem setRecState_frec (i st j : Nat) (s : State) : (setRecState i st s).frec j = s.frec j := by
  unfold State.frec
  refine congrArg (fun x => Tab.get (fun _ => ({} : RecState)) x j) ?_
  unfold setRecState
  extract_lets s1 o s2 fs
  have h2 : s2.faults = s.faults := closed_when (P := fun u => u.faults = s.faults) (fun h => h) (State.wr_faults _ _ _)
  clear_value s2
  unfold refreshWdn
  rw [State.wr_faults, State.wr_faults]
  exact (show s2.faults.recs = s.faults.recs by rw [h2])

theorem setRecState_rd_apart {g : Fld} (hg : ∀ f ∈ recStateFields i, FldApart f g) (hq : queueOffset g.addr = false) (st : Nat)
    (s : State) : (setRecState i st s).rd g = s.rd g := setRecState_fields (.refl _ s) (List.Subset.refl _) st g hg hq

theorem setRecState_state (hst : st < 16) (s : State) : (setRecState i st s).rd (R.WDN_LOG_W1_STATE i) = st := by
  have hne : (R.WDN_LOG_W1_STATE i).addr ≠ 0xC0000 := by simp only [R.WDN_LOG_W1_STATE]; omega
  unfold setRecState
  extract_lets s1 o s2 fs
  have h1 : s1.rd (R.WDN_LOG_W1_STATE i) = st := by
    unfold s1
    rw [State.rd_wr _ _ _ (recState_ok i)]
    exact Nat.mod_eq_of_lt hst
  have h2 : s2.rd (R.WDN_LOG_W1_STATE i) = st := closed_when (P := fun u => u.rd (R.WDN_LOG_W1_STATE i) = st) (fun h => h) h1
  clear_value s2
  unfold refreshWdn
  extract_lets x
  rw [State.rd_wr_elsewhere _ (f := R.WDN_STATUS_QUEUED) _ hne, State.rd_wr_elsewhere _ (f := R.WDN_STATUS_OPEN) _ hne]
  exact h2

end

/-! ### FAULT_HANDLING_START (R234, R237) -/

/-- Of a record found before, if any, and record `i`, the one detected first. -/
def earlier (s : State) (b : Option Nat) (i : Nat) : Option Nat :=
  match b with
  | none => some i
  | some j => if (s.frec i).seqNo < (s.frec j).seqNo then some i else some j

/-- The open records that may be handled now. -/
def waitingRecs (s : State) : List Nat :=
  s.faults.openRecs.filter fun i =>
    s.rd (R.WDN_LOG_W1_STATE i) == 1 || (s.rd (R.WDN_LOG_W1_STATE i) == 3 && (s.frec i).again)

/-- A record is taken: one that needs a vote is handled, one that needs none is done with. -/
def takeRecord (i : Nat) (s : State) : State :=
  let t := s.setFrec i { s.frec i with urgent := false, again := false, splits := 0, voted := none }
  if needsVote t i = false then settleRecord i t
  else setRecState i 2 ((t.wr R.WDN_STATUS_HANDLING 1).wr R.WDN_STATUS_HANDLING_IDX i)

section
variable {s : State} {i : Nat}

/-- The record of the lowest SEQ of a list is found, whatever was found before with a higher one. -/
theorem foldl_earlier {l : List Nat} (hl : ∀ j ∈ l, j = i ∨ (s.frec i).seqNo < (s.frec j).seqNo) {b : Option Nat}
    (hb : b = some i ∨ (i ∈ l ∧ ∀ j, b = some j → (s.frec i).seqNo < (s.frec j).seqNo)) : l.foldl (earlier s) b = some i := by
  induction l generalizing b with
  | nil => simpa using hb
  | cons x l ih =>
    refine ih (fun j hj => hl j (List.mem_cons_of_mem _ hj)) ?_
    rcases hl x List.mem_cons_self with rfl | hx
    · left
      rcases hb with rfl | ⟨-, hb⟩
      · simp [earlier]
      · cases b with
        | none => rfl
        | some j => simp [earlier, hb j rfl]
    · rcases hb with rfl | ⟨hi, hb⟩
      · left; simp [earlier]; omega
      · have hil : i ∈ l := by
          rcases List.mem_cons.mp hi with rfl | h
          · exact absurd hx (lt_irrefl _)
          · exact h
        refine .inr ⟨hil, fun j hj => ?_⟩
        cases b with
        | none => cases hj; exact hx
        | some k =>
          have hk := hb k rfl
          unfold earlier at hj
          dsimp only at hj
          split at hj <;> cases hj <;> assumption

/-- The Warden takes the queued record of the lowest SEQ when none is raised ahead of the queue and none waits for a RETRY. -/
theorem faultHandlingStart_takes (hidle : s.rdb R.WDN_STATUS_HANDLING = false) (hi : i ∈ s.faults.openRecs)
    (hqueued : s.rd (R.WDN_LOG_W1_STATE i) = 1) (hothers : ∀ j ∈ s.faults.openRecs, (s.frec j).urgent = false ∧
      (j = i ∨ (s.rd (R.WDN_LOG_W1_STATE j) ≠ 1 ∧ s.rd (R.WDN_LOG_W1_STATE j) ≠ 3) ∨ (s.frec i).seqNo < (s.frec j).seqNo)) :
    faultHandlingStart s = takeRecord i s := by
  have hcalm : ((waitingRecs s).filter fun i => (s.frec i).urgent) = [] :=
    List.filter_eq_nil_iff.mpr fun j hj => by simp [(hothers j (List.mem_filter.mp hj).1).1]
  have hfirst : (waitingRecs s).foldl (earlier s) none = some i := by
    refine foldl_earlier (fun j hj => ?_) (.inr ⟨List.mem_filter.mpr ⟨hi, by simp [hqueued]⟩, fun j hj => by cases hj⟩)
    obtain ⟨hopen, hwaits⟩ := List.mem_filter.mp hj
    rcases (hothers j hopen).2 with h | ⟨h1, h3⟩ | h
    · exact .inl h
    · simp [h1, h3] at hwaits
    · exact .inr h
  have hchosen : ((((waitingRecs s).filter fun i => (s.frec i).urgent).foldl (earlier s) none).orElse
      fun _ => (waitingRecs s).foldl (earlier s) none) = some i := by rw [hcalm, hfirst]; rfl
  unfold faultHandlingStart
  rw [hidle, if_neg (by decide)]
  extract_lets c first
  split
  next hnone => cases hchosen.symm.trans hnone
  next j hj =>
    cases hchosen.symm.trans hj
    rfl

theorem takeRecord_needsVote (s : State) (i : Nat) (o : RecState) (ho : o.action = (s.frec i).action) :
    needsVote (s.setFrec i o) i = needsVote s i := by
  unfold needsVote hooked
  rw [State.setFrec_frec, if_pos rfl, ho, State.setFrec_rd, State.setFrec_rd]

end


section
variable {s : State} {i : Nat}

/-- The record that is taken forgets the vote before. -/
abbrev takenRec (r : RecState) : RecState := { r with urgent := false, again := false, splits := 0, voted := none }

theorem takeRecord_handles (h : needsVote s i = true) : takeRecord i s =
    setRecState i 2 (((s.setFrec i (takenRec (s.frec i))).wr R.WDN_STATUS_HANDLING 1).wr R.WDN_STATUS_HANDLING_IDX i) := by
  have hneeds : needsVote (s.setFrec i (takenRec (s.frec i))) i = true := (takeRecord_needsVote s i (takenRec (s.frec i)) rfl).trans h
  unfold takeRecord
  exact if_neg (by rw [hneeds]; decide)

theorem takeRecord_logs (h : needsVote s i = false) (hcode : s.rd (R.WDN_LOG_W1_CODE i) ≠ 0x0B) :
    takeRecord i s = setRecState i 0xA (s.setFrec i (takenRec (s.frec i))) := by
  have hneeds : needsVote (s.setFrec i (takenRec (s.frec i))) i = false := (takeRecord_needsVote s i (takenRec (s.frec i)) rfl).trans h
  unfold takeRecord
  refine (if_pos hneeds).trans ?_
  rw [settleRecord, State.setFrec_rd, if_neg hcode]

/-- The fields of the record being handled are none of those that its change of state writes. -/
theorem status_apart (i : Nat) {g : Fld} (hg : g = R.WDN_STATUS_HANDLING ∨ g = R.WDN_STATUS_HANDLING_IDX) :
    ∀ f ∈ recStateFields i, FldApart f g := by
  have hstate : (R.WDN_LOG_W1_STATE i).addr ≠ 0xC0000 := by simp only [R.WDN_LOG_W1_STATE]; omega
  intro f hf
  simp only [recStateFields, List.mem_cons, List.not_mem_nil, or_false] at hf
  rcases hg with rfl | rfl <;> rcases hf with rfl | rfl | rfl
  · exact .inl hstate
  · decide
  · decide
  · exact .inl hstate
  · decide
  · decide

theorem faultHandlingStart_handles (s : State) (i : Nat) (hi : i < 256) (hidle : s.rdb R.WDN_STATUS_HANDLING = false)
    (hopen : i ∈ s.faults.openRecs) (hqueued : s.rd (R.WDN_LOG_W1_STATE i) = 1)
    (hothers : ∀ j ∈ s.faults.openRecs, (s.frec j).urgent = false ∧ (j = i ∨ (s.rd (R.WDN_LOG_W1_STATE j) ≠ 1 ∧
      s.rd (R.WDN_LOG_W1_STATE j) ≠ 3) ∨ (s.frec i).seqNo < (s.frec j).seqNo)) (hneeds : needsVote s i = true) :
    ∃ t, exec .faultHandlingStart s = .next t ∧ t.rdb R.WDN_STATUS_HANDLING = true ∧ t.rd R.WDN_STATUS_HANDLING_IDX = i ∧
      t.rd (R.WDN_LOG_W1_STATE i) = 2 ∧ (t.frec i).voted = none ∧ (t.frec i).splits = 0 ∧ (∀ j, j ≠ i → t.frec j = s.frec j) ∧
      FieldsOnly [R.WDN_STATUS_HANDLING, R.WDN_STATUS_HANDLING_IDX, R.WDN_LOG_W1_STATE i, R.WDN_STATUS_OPEN,
        R.WDN_STATUS_QUEUED] s t ∧ ChangesOnly [.regs, .evq, .sent, .faults] s t := by
  refine ⟨_, exec_of_wf rfl rfl, ?_⟩
  rw [faultHandlingStart_takes hidle hopen hqueued hothers, takeRecord_handles hneeds]
  have hframe : Within [R.WDN_STATUS_HANDLING, R.WDN_STATUS_HANDLING_IDX, R.WDN_LOG_W1_STATE i, R.WDN_STATUS_OPEN,
      R.WDN_STATUS_QUEUED] [.faults] s (setRecState i 2
        (((s.setFrec i (takenRec (s.frec i))).wr R.WDN_STATUS_HANDLING 1).wr R.WDN_STATUS_HANDLING_IDX i)) :=
    ((((Within.refl _ _ s).setFrec (by decide) i _).wr (by simp) (by decide) 1).wr (by simp) (by decide) i).setRecState
      (by simp) (by decide) (.inl rfl)
  refine ⟨?_, ?_, ?_, ?_, ?_, fun j hj => ?_, hframe.queue (.flushEvents _)⟩
  · rw [State.rdb, State.flushEvents_rd _ _ (by decide), setRecState_rd_apart (status_apart i (.inl rfl)) (by decide),
      State.rd_wr_apart _ _ _ _ (by decide) (by decide), State.rd_wr _ _ _ (by decide)]
    decide
  · rw [State.flushEvents_rd _ _ (by decide), setRecState_rd_apart (status_apart i (.inr rfl)) (by decide),
      State.rd_wr _ _ _ (by decide)]
    exact Nat.mod_eq_of_lt hi
  · rw [State.flushEvents_rd _ _ (recState_notQueue i), setRecState_state (by decide)]
  · simp
  · simp
  · simp [hj]

theorem faultHandlingStart_logs (s : State) (i : Nat) (_hi : i < 256) (hidle : s.rdb R.WDN_STATUS_HANDLING = false)
    (hopen : i ∈ s.faults.openRecs) (hqueued : s.rd (R.WDN_LOG_W1_STATE i) = 1)
    (hothers : ∀ j ∈ s.faults.openRecs, (s.frec j).urgent = false ∧ (j = i ∨ (s.rd (R.WDN_LOG_W1_STATE j) ≠ 1 ∧
      s.rd (R.WDN_LOG_W1_STATE j) ≠ 3) ∨ (s.frec i).seqNo < (s.frec j).seqNo)) (hneeds : needsVote s i = false)
    (hcode : s.rd (R.WDN_LOG_W1_CODE i) ≠ 0x0B) : ∃ t, exec .faultHandlingStart s = .next t ∧
      t.rdb R.WDN_STATUS_HANDLING = false ∧ t.rd (R.WDN_LOG_W1_STATE i) = 0xA ∧
      FieldsOnly [R.WDN_LOG_W1_STATE i, R.WDN_STATUS_OPEN, R.WDN_STATUS_QUEUED] s t ∧
      ChangesOnly [.regs, .evq, .sent, .faults, .comp] s t := by
  refine ⟨_, exec_of_wf rfl rfl, ?_⟩
  rw [faultHandlingStart_takes hidle hopen hqueued hothers, takeRecord_logs hneeds hcode]
  have hframe : Within (recStateFields i) [.faults, .comp] s (setRecState i 0xA (s.setFrec i (takenRec (s.frec i)))) :=
    ((Within.refl _ _ s).setFrec (by decide) i _).setRecState (List.Subset.refl _) (by decide) (.inr (by decide))
  refine ⟨?_, ?_, hframe.queue (.flushEvents _)⟩
  · rw [State.rdb, State.flushEvents_rd _ _ (by decide), setRecState_rd_apart (status_apart i (.inl rfl)) (by decide)]
    exact hidle
  · rw [State.flushEvents_rd _ _ (recState_notQueue i), setRecState_state (by decide)]

end


/-! ### The withdrawal of a unit leaves the critical rectangles where they are -/

section
variable {s t : State}

theorem SameRects.setUnit (h : SameRects s t) (u : Nat) (o : UnitState) : SameRects s (t.setUnit u o) := h.of_regs rfl rfl

theorem SameRects.setBit (h : SameRects s t) {f : Fld} (hf : rectOffset f.addr = false) (i : Nat) (b : Bool) :
    SameRects s (setBit f i b t) := h.wr hf _

/-! What a fault does to the frames that its units compose. -/

theorem SameRects.modFrame (h : SameRects s t) (f serial : Nat) (g : FrameRun → FrameRun) : SameRects s (modFrame f serial g t) :=
  h.of_regs rfl rfl

theorem SameRects.modBand (h : SameRects s t) (f serial k : Nat) (g : BandRun → BandRun) :
    SameRects s (modBand f serial k g t) := h.modFrame _ _ _

theorem tileWord_notRect (i j : Nat) : rectOffset (R.TILE_WORD i j).addr = false := by
  have haddr : (R.TILE_WORD i j).addr = 0x400000 + 0x10 * i + 0x4 * j := rfl
  rw [haddr]
  simp [rectOffset]; omega

theorem SameRects.writeEntry (h : SameRects s t) (i gen : Nat) (e : TileEval) (badge : Bool) :
    SameRects s (writeEntry i gen e badge none t) := by
  unfold Machine.writeEntry
  refine closed_ite ?_ ?_
  · exact (((h.wr (tileWord_notRect i 0) _).wr (tileWord_notRect i 1) _).wr (tileWord_notRect i 2) _).wr (tileWord_notRect i 3) _
  · exact ((h.wr (tileWord_notRect i 0) _).wr (tileWord_notRect i 2) _).wr (tileWord_notRect i 3) _

theorem SameRects.reviseTile (h : SameRects s t) (f serial n : Nat) (ctx : TileCtx) :
    SameRects s (reviseTile f serial n ctx t) := by
  unfold Machine.reviseTile
  split
  · exact h
  · exact (h.modFrame _ _ _).writeEntry _ _ _ _

theorem SameRects.writeSig (h : SameRects s t) (f serial n sig : Nat) : SameRects s (writeSig f serial n sig t) := by
  unfold Machine.writeSig
  split
  · exact h
  · exact closed_ite h ((h.modFrame _ _ _).wr (tileWord_notRect _ 1) _)

theorem SameRects.countStates (h : SameRects s t) (sh : Sheet) {f : Nat} (hf : f < 24) : SameRects s (countStates sh f t) := by
  have hzero : rectOffset (0x090108 + 0x10 * f) = false := by simp [rectOffset]; omega
  have hone : rectOffset (0x09010C + 0x10 * f) = false := by simp [rectOffset]; omega
  unfold Machine.countStates
  extract_lets n
  exact (((h.wr (f := R.FRS_FLUE_COUNT0_EMBER f) hzero _).wr (f := R.FRS_FLUE_COUNT0_HELD f) hzero _).wr
    (f := R.FRS_FLUE_COUNT1_CONCEALED f) hone _).wr (f := R.FRS_FLUE_COUNT1_FROZEN f) hone _

theorem SameRects.reviseHeld (h : SameRects s t) {f : Nat} (hf : f < 24) (serial k : Nat) :
    SameRects s (reviseHeld f serial k t) := by
  unfold Machine.reviseHeld
  split
  · exact h
  · refine SameRects.countStates (closed_foldl (fun u n hu => ?_) h) _ hf
    have hrevised := SameRects.reviseTile hu
    split
    · exact hrevised _ _ _ _
    · exact (hrevised _ _ _ _).writeSig _ _ _ _

theorem SameRects.faultHoldBand (h : SameRects s t) {f : Nat} (hf : f < 24) (serial k : Nat) :
    SameRects s (faultHoldBand f serial k t) := (h.modBand _ _ _ _).reviseHeld hf _ _

theorem SameRects.holdBandsOf (h : SameRects s t) (v : Nat) (taints : Bool) : SameRects s (holdBandsOf v taints t) :=
  closed_foldl_mem (fun _ _ hf h1 => closed_foldl (fun _ _ h2 => closed_foldl (fun _ _ h3 =>
    closed_ite (SameRects.faultHoldBand h3 (List.mem_range.mp hf) _ _) h3) h2) h1) h

theorem SameRects.storeTile (h : SameRects s t) (sh : Sheet) (f b n : Nat) (px : List Nat) :
    SameRects s (storeTile sh f b n px t) := closed_foldl (fun _ _ hu => SameRects.of_regs hu rfl rfl) h

theorem SameRects.writeHeld (h : SameRects s t) (sh : Sheet) (f b n : Nat) (w : HeldWord) :
    SameRects s (writeHeld sh f b n w t) := h.of_regs rfl rfl

theorem SameRects.underTile (h : SameRects s t) (f serial n : Nat) : SameRects s (underTile f serial t n) := by
  unfold Machine.underTile
  split
  · exact h
  extract_lets k t1
  have h1 : SameRects s t1 := h.reviseTile _ _ _ _
  split
  · exact h1
  refine closed_ite h1 ?_
  extract_lets px t2
  have h2 : SameRects s t2 := h1.modBand _ _ _ _
  split
  · exact h2
  · exact (h2.storeTile _ _ _ _ _).writeHeld _ _ _ _ _

theorem SameRects.directUnderrun (h : SameRects s t) {f : Nat} (hf : f < 24) : SameRects s (directUnderrun f t) := by
  unfold Machine.directUnderrun
  split
  · exact h
  split
  · exact h
  extract_lets left t1 t2 key o t3
  have h2 : SameRects s t2 := closed_foldl (fun _ _ hu => SameRects.underTile hu _ _ _) (h.modFrame _ _ _)
  have h3 : SameRects s t3 := h2.of_regs rfl rfl
  exact (h3.countStates _ hf).raise _ _

/-! What the stop of a cue does. -/

theorem SameRects.dropWork (h : SameRects s t) (v : Nat) : SameRects s (dropWork v t) := h.setUnit _ _

theorem SameRects.releaseItem (h : SameRects s t) (v : Nat) : SameRects s (releaseItem v t) := by
  unfold Machine.releaseItem
  split
  · split
    · exact h.modBand _ _ _ _
    · exact h
  · exact h

theorem SameRects.endDirectOf (h : SameRects s t) (v : Nat) : SameRects s (endDirectOf v t) := by
  unfold Machine.endDirectOf
  refine closed_foldl_mem (fun u f hf hu => SameRects.directUnderrun hu ?_) (h.of_parts rfl rfl)
  exact List.mem_range.mp (List.mem_filter.mp hf).1

theorem SameRects.stopUnit (h : SameRects s t) (taints : Bool) (v : Nat) : SameRects s (stopUnit taints t v) :=
  closed_ite h (((((h.setUnit v _).releaseItem v).holdBandsOf v taints).dropWork v).endDirectOf v)

theorem SameRects.stopCues (h : SameRects s t) (i : Nat) (us : List Nat) (taints : Bool) :
    SameRects s (stopCues i us taints t).2 := by
  unfold Machine.stopCues
  extract_lets vs begins t1 r
  have h1 : SameRects s t1 := closed_foldl (fun _ _ hu => SameRects.stopUnit hu taints _) h
  refine (SameRects.logKeeps s).refreshHold ?_
  exact h1.of_regs rfl rfl

theorem SameRects.stopFor (h : SameRects s t) (i : Nat) (us : List Nat) : SameRects s (stopFor i us t) :=
  closed_when (f := fun u => u.raise 0x0902 i) (fun hu => hu.raise _ _) (h.stopCues i us false)

/-! What the move of a cue to another unit does (R238). -/

theorem memberFld_notRect (n m : Nat) : rectOffset (memberFld n m).addr = false := by
  have haddr : (memberFld n m).addr = 0x0B0108 + 0x10 * n := by rcases m with - | - | - | m <;> rfl
  rw [haddr]
  simp [rectOffset]; omega

theorem moveSheetMember_rested (n m old u : Nat) (sh : Sheet) : (moveSheetMember n m old u sh).rested = sh.rested := by
  unfold moveSheetMember
  split <;> rfl

theorem SameRects.setMember (h : SameRects s t) (n m u : Nat) : SameRects s (setMember n m u t) := by
  unfold Machine.setMember
  extract_lets mv tk c t1
  refine SameRects.wr ?_ (memberFld_notRect n m) _
  refine h.of_parts rfl (Option.map_map _ _ _ |>.trans ?_)
  exact congrArg (fun g => Option.map g tk.current) (funext fun sh => moveSheetMember_rested n m _ u sh)

theorem SameRects.moveMember (h : SameRects s t) (v : Option Nat) (nm : Nat × Nat) : SameRects s (moveMember v t nm) := by
  have hvacant := (h.setMember nm.1 nm.2 0xFF).raise 0x0805 (nm.1 * 4 + nm.2)
  cases v with
  | none => exact hvacant
  | some u => exact closed_ite (h.setMember _ _ _) hvacant

theorem SameRects.moveBands (h : SameRects s t) (u v : Nat) : SameRects s (moveBands u v t) :=
  h.of_parts rfl (Option.map_map _ _ _)

theorem clockFld_notRect (r : Nat) : rectOffset (clockFld r).addr = false := rfl

theorem SameRects.moveCue (h : SameRects s t) (u : Nat) (v : Option Nat) : SameRects s (moveCue u v t) := by
  cases v with
  | some w =>
    have hmoved : SameRects s ((membersOfUnit t u).foldl (Machine.moveMember (some w)) (Machine.moveBands u w t)) :=
      closed_foldl (fun _ _ hu => SameRects.moveMember hu _ _) (h.moveBands u w)
    exact ((hmoved.setBit (by decide) _ _).wr (clockFld_notRect _) _).setUnit _ _
  | none =>
    have hmoved : SameRects s ((membersOfUnit t u).foldl (Machine.moveMember none) t) :=
      closed_foldl (fun _ _ hu => SameRects.moveMember hu _ _) h
    exact hmoved.of_regs rfl rfl

theorem SameRects.moveUnitCue (h : SameRects s t) (out : List Nat) (u : Nat) : SameRects s (moveUnitCue out u t) := by
  unfold Machine.moveUnitCue
  extract_lets idle firsts
  split
  · exact closed_ite (h.moveCue _ _) (h.setUnit _ _)
  · exact closed_foldl (fun _ _ hu => closed_ite (SameRects.moveCue hu _ _) (SameRects.setUnit hu _ _)) h

theorem SameRects.withdrawUnit (h : SameRects s t) (u : Nat) : SameRects s (withdrawUnit t u) :=
  ((h.setUnit u _).dropWork u).setBit (by decide) _ _

end

/-- After WITHDRAW_UNIT the unit is withdrawn, and the rectangles are where they were. -/
theorem doAction_withdraws (i : Nat) {u : Nat} (hu : u < 32) (s : State) :
    SameRects s (doAction i 1 u s) ∧ ((doAction i 1 u s).unit u).withdrawn = true := by
  have hact : doAction i 1 u s = withdrawUnit (moveUnitCue [u] u (stopFor i [u] s)) u := by simp [doAction, actionFits, hu]
  rw [hact]
  refine ⟨(((SameRects.refl s).stopFor i [u]).moveUnitCue [u] u).withdrawUnit u, ?_⟩
  rw [withdrawUnit, setBit, State.unit, State.wr_comp, ← State.unit, dropWork, State.setUnit_unit, if_pos rfl,
    State.setUnit_unit, if_pos rfl]


/-! ### FAULT_ACTION_EXECUTED (R235) -/

/-- The action `a` on `o` voted for record `i` has been carried out: its cues run again, the record says so, and its handling ends. -/
def recordDone (i a o : Nat) (s : State) : State :=
  let s := refreshHold (s.when (!(s.frec i).urgent) (resumeCues i))
  let r := s.frec i
  let s := s.setFrec i { r with voted := none, splits := 0 }
  let s := s.wr (R.WDN_LOG_W1_ACTION i) a
  let s := setRecState i (if r.urgent then 1 else if persists s i a o then 4 else 8) s
  endHold i (endHandling (refreshHier s))

section
variable {s : State} {i a o : Nat}

theorem faultActionExecuted_of_voted (hrec : handlingRec s = some i) (hvoted : (s.frec i).voted = some (a, o)) :
    faultActionExecuted s = checkLost (recordDone i a o (doAction i a o s)) := by
  unfold faultActionExecuted
  simp only [hrec, hvoted]
  rfl

/-! What the end of a handling leaves unread. -/

theorem refreshHier_rd_elsewhere {g : Fld} (hg : g.addr ∉ [0x108, 0x110, 0x114]) (s : State) : (refreshHier s).rd g = s.rd g := by
  simp only [List.mem_cons, List.not_mem_nil, or_false, not_or] at hg
  obtain ⟨hunit, hcluster, hregion⟩ := hg
  unfold refreshHier
  extract_lets svc cl rg s1 cluster s2 region
  exact (State.rd_wr_elsewhere s2 rg hregion).trans ((State.rd_wr_elsewhere s1 cl hcluster).trans (State.rd_wr_elsewhere s svc hunit))

theorem endHold_rd_elsewhere {g : Fld} (hlog : g.addr ≠ 0xC1008 + 0x10 * i) (hhold : g.addr ≠ 0xC000C) (s : State) :
    (endHold i s).rd g = s.rd g := by
  unfold endHold
  extract_lets r ns s1 s2 s3
  refine closed_ite (P := fun u => u.rd g = s.rd g) ?_ rfl
  have h2 : s2.rd g = s.rd g := (State.rd_wr_elsewhere _ _ hlog).trans (State.rd_wr_elsewhere _ _ hlog)
  rw [State.raise_rd]
  exact (State.rd_wr_elsewhere _ _ hhold).trans ((State.rd_wr_elsewhere s2 _ hhold).trans h2)

theorem endHandling_rd_elsewhere {g : Fld} (hg : g.addr ≠ 0xC0000) (s : State) : (endHandling s).rd g = s.rd g :=
  (State.rd_wr_elsewhere _ _ hg).trans (State.rd_wr_elsewhere _ _ hg)

theorem endHandling_handling (s : State) : (endHandling s).rd R.WDN_STATUS_HANDLING = 0 := by
  rw [endHandling, State.rd_wr_apart _ _ _ _ (by decide) (by decide), State.rd_wr _ _ _ (by decide)]
  rfl

theorem endHandling_index (s : State) : (endHandling s).rd R.WDN_STATUS_HANDLING_IDX = 0 := by
  rw [endHandling, State.rd_wr _ _ _ (by decide)]
  rfl

/-! What is read after the end of a handling. -/

theorem recordDone_action (i a o : Nat) (s : State) : (recordDone i a o s).rd (R.WDN_LOG_W1_ACTION i) = a % 16 := by
  have haddr : (R.WDN_LOG_W1_ACTION i).addr = 0xC1004 + 0x10 * i := rfl
  unfold recordDone
  extract_lets s1 r s2 s3 s4
  have h3 : s3.rd (R.WDN_LOG_W1_ACTION i) = a % 16 := State.rd_wr s2 _ _ (recAction_ok i)
  have hapart : ∀ f ∈ recStateFields i, FldApart f (R.WDN_LOG_W1_ACTION i) := by
    intro f hf
    simp only [recStateFields, List.mem_cons, List.not_mem_nil, or_false] at hf
    rcases hf with rfl | rfl | rfl
    · exact .inr (.inl (by simp only [R.WDN_LOG_W1_STATE, R.WDN_LOG_W1_ACTION]; omega))
    · exact .inl (by rw [haddr]; simp only [R.WDN_STATUS_OPEN]; omega)
    · exact .inl (by rw [haddr]; simp only [R.WDN_STATUS_QUEUED]; omega)
  have h4 : s4.rd (R.WDN_LOG_W1_ACTION i) = a % 16 := (setRecState_rd_apart hapart (recAction_notQueue i) _ s3).trans h3
  clear_value s4
  rw [endHold_rd_elsewhere (by rw [haddr]; omega) (by rw [haddr]; omega), endHandling_rd_elsewhere (by rw [haddr]; omega),
    refreshHier_rd_elsewhere (by rw [haddr]; simp; omega), h4]

theorem recordDone_notHandling (i a o : Nat) (s : State) : (recordDone i a o s).rdb R.WDN_STATUS_HANDLING = false := by
  have hlog : R.WDN_STATUS_HANDLING.addr ≠ 0xC1008 + 0x10 * i := by simp only [R.WDN_STATUS_HANDLING]; omega
  unfold recordDone State.rdb
  rw [endHold_rd_elsewhere hlog (by decide), endHandling_handling]
  rfl

theorem recordDone_index (i a o : Nat) (s : State) : (recordDone i a o s).rd R.WDN_STATUS_HANDLING_IDX = 0 := by
  have hlog : R.WDN_STATUS_HANDLING_IDX.addr ≠ 0xC1008 + 0x10 * i := by simp only [R.WDN_STATUS_HANDLING_IDX]; omega
  unfold recordDone
  rw [endHold_rd_elsewhere hlog (by decide), endHandling_index]

/-! What the end of a handling keeps. -/

theorem LogKeeps.recordDone {P : State → Prop} (hP : LogKeeps P) (hi : i < 256)
    (hs : P (s.when (!(s.frec i).urgent) (resumeCues i))) : P (recordDone i a o s) := by
  unfold Machine.recordDone
  extract_lets s1 r s2 s3 s4
  have h1 : P s1 := hP.refreshHold hs
  have h2 : P s2 := hP.setFrec h1
  have h3 : P s3 := hP.wr h2 (logWord_offset hi (j := 4) (by decide))
  have h4 : P s4 := hP.setRecState hi _ h3
  clear_value s4
  refine hP.endHold hi (hP.endHandling ?_)
  exact hP.wr (hP.wr (hP.wr h4 (by decide)) (by decide)) (by decide)

theorem resumeCues_of_noCues (h : (s.frec i).cues = []) : resumeCues i s = s := by rw [resumeCues, h, List.foldl_nil]

theorem SameRects.resumeCues {t : State} (h : SameRects s t) (i : Nat) : SameRects s (resumeCues i t) :=
  closed_foldl (fun _ _ hu => closed_when (fun hu => SameRects.setUnit hu _ _) hu) h

/-- Unit `u` is withdrawn. -/
def Withdrawn (u : Nat) (s : State) : Prop := (s.unit u).withdrawn = true

theorem Withdrawn.logKeeps (u : Nat) : LogKeeps (Withdrawn u) where
  wr {s f v} h _ := by unfold Withdrawn State.unit; rw [State.wr_comp]; exact h
  raise {s c o} h := by unfold Withdrawn State.unit; rw [State.raise_comp]; exact h
  faults h _ := h
  rects h := h

theorem Withdrawn.resumeCues {u : Nat} (h : Withdrawn u s) (i : Nat) : Withdrawn u (resumeCues i s) := by
  refine closed_foldl (fun t v ht => closed_when (fun ht => ?_) ht) h
  unfold Withdrawn
  rw [State.setUnit_unit]
  split
  next huv => rw [huv] at ht; exact ht
  next => exact ht

/-- The units of `t` are those of `s`. -/
def SameUnits (s t : State) : Prop := ∀ u, t.unit u = s.unit u

theorem SameUnits.logKeeps (s : State) : LogKeeps (SameUnits s) where
  wr {t f v} h _ u := by unfold State.unit; rw [State.wr_comp]; exact h u
  raise {t c o} h u := by unfold State.unit; rw [State.raise_comp]; exact h u
  faults h _ := h
  rects h := h

/-- With no rectangle live after the action, the handling of the record is all that ends. -/
theorem faultActionExecuted_of_sameRects (hrec : handlingRec s = some i) (hvoted : (s.frec i).voted = some (a, o))
    (hlive : noRectLive s) (hrects : SameRects s (doAction i a o s)) :
    faultActionExecuted s = recordDone i a o (doAction i a o s) := by
  have hdone : SameRects s (recordDone i a o (doAction i a o s)) :=
    (SameRects.logKeeps s).recordDone (handlingRec_lt hrec) (closed_when (fun h => SameRects.resumeCues h i) hrects)
  rw [faultActionExecuted_of_voted hrec hvoted, checkLost_of_noRectLive (hdone.noRectLive hlive)]

theorem faultActionExecuted_withdraws (s : State) (i u : Nat) (hrec : handlingRec s = some i) (hi : i < 256)
    (hvoted : (s.frec i).voted = some (1, u)) (hu : u < 32) (hlive : noRectLive s) :
    ∃ t, exec .faultActionExecuted s = .next t ∧ (t.unit u).withdrawn = true ∧ t.rd (R.WDN_LOG_W1_ACTION i) = 1 ∧
      t.rdb R.WDN_STATUS_HANDLING = false := by
  obtain ⟨hrects, hout⟩ := doAction_withdraws i hu s
  have hdone : Withdrawn u (recordDone i 1 u (doAction i 1 u s)) :=
    (Withdrawn.logKeeps u).recordDone hi (closed_when (fun h => Withdrawn.resumeCues h i) hout)
  refine ⟨_, exec_of_wf rfl rfl, ?_⟩
  rw [faultActionExecuted_of_sameRects hrec hvoted hlive hrects]
  refine ⟨?_, ?_, ?_⟩
  · rw [State.unit, State.flushEvents_comp]; exact hdone
  · rw [State.flushEvents_rd _ _ (recAction_notQueue i), recordDone_action]
  · rw [State.rdb, State.flushEvents_rd _ _ (by decide)]; exact recordDone_notHandling i 1 u _

theorem faultActionExecuted_none (s : State) (i o : Nat) (hrec : handlingRec s = some i)
    (hvoted : (s.frec i).voted = some (0, o)) (_hhold : (s.frec i).holding = false) (hcues : (s.frec i).cues = [])
    (hlive : noRectLive s) : ∃ t, exec .faultActionExecuted s = .next t ∧ t.rd (R.WDN_LOG_W1_ACTION i) = 0 ∧
      t.rdb R.WDN_STATUS_HANDLING = false ∧ t.rd R.WDN_STATUS_HANDLING_IDX = 0 ∧ (∀ u, t.unit u = s.unit u) := by
  have hnone : doAction i 0 o s = s := by simp [doAction, actionFits]
  have hrects : SameRects s (doAction i 0 o s) := by rw [hnone]; exact .refl s
  have hdone : SameUnits s (recordDone i 0 o s) := by
    refine (SameUnits.logKeeps s).recordDone (handlingRec_lt hrec) (closed_when (fun h => ?_) fun _ => rfl)
    rw [resumeCues_of_noCues hcues]
    exact h
  refine ⟨_, exec_of_wf rfl rfl, ?_⟩
  rw [faultActionExecuted_of_sameRects hrec hvoted hlive hrects, hnone]
  refine ⟨?_, ?_, ?_, fun u => ?_⟩
  · rw [State.flushEvents_rd _ _ (recAction_notQueue i), recordDone_action]
  · rw [State.rdb, State.flushEvents_rd _ _ (by decide)]; exact recordDone_notHandling i 0 o s
  · rw [State.flushEvents_rd _ _ (by decide), recordDone_index]
  · rw [State.unit, State.flushEvents_comp]; exact hdone u

end

/-- Settles O26: a record is taken, its stage ends with a proposal, and its action is executed. -/
theorem wardenHandling : Obligations.WardenHandling := by
  unfold Obligations.WardenHandling
  exact ⟨faultHandlingStart_handles, faultHandlingStart_logs, handlerStageEnd_opens, handlerStageEnd_agrees,
    handlerStageEnd_joins, handlerStageEnd_waits, handlerStageEnd_splits, faultActionExecuted_withdraws,
    faultActionExecuted_none⟩

end Sys2Proof.Machine

/-!
PROOFS. The clapper (R217 to R225): the words that take their RWS bits from another table, the commit of a seal, the cut-off,
arms and the discard.
-/
namespace Sys2Proof.Machine

/-! ### Words that take their RWS bits from others -/

theorem takeRws_self (a : Nat) (x : Word) : takeRws a x x = x := by
  apply BitVec.eq_of_getElem_eq
  intro i hi
  simp only [takeRws, BitVec.getElem_or, BitVec.getElem_and, BitVec.getElem_not]
  cases x[i] <;> simp

theorem takeRws_takeRws (a : Nat) (x y : Word) : takeRws a (takeRws a x y) y = takeRws a x y := by
  apply BitVec.eq_of_getElem_eq
  intro i hi
  simp only [takeRws, BitVec.getElem_or, BitVec.getElem_and, BitVec.getElem_not]
  cases (BitVec.ofNat 32 (accMask .rws a))[i] <;> simp

/-- The RWS bits of the word at `a` are taken from `g`. -/
def takeRwsAt (g : Nat → Word) (r : Tab Word) (a : Nat) : Tab Word :=
  if accMask .rws a = 0 then r else r.set resetWord a (takeRws a (r.get resetWord a) (g a))

theorem get_takeRwsAt_same (g : Nat → Word) (r : Tab Word) (a : Nat) : (takeRwsAt g r a).get resetWord a =
    if accMask .rws a = 0 then r.get resetWord a else takeRws a (r.get resetWord a) (g a) := by
  unfold takeRwsAt
  split
  · rfl
  · exact Tab.get_set_same _ _ _ _

theorem get_takeRwsAt_ne (g : Nat → Word) (r : Tab Word) {a b : Nat} (h : b ≠ a) :
    (takeRwsAt g r a).get resetWord b = r.get resetWord b := by
  unfold takeRwsAt
  split
  · rfl
  · exact Tab.get_set_ne _ _ _ _ _ h

/-- Taking at every offset of a list takes at each of them once: to take a second time changes nothing. -/
theorem get_foldl_takeRwsAt (g : Nat → Word) (l : List Nat) (r : Tab Word) (a : Nat) : (l.foldl (takeRwsAt g) r).get resetWord a =
    if a ∈ l ∧ accMask .rws a ≠ 0 then takeRws a (r.get resetWord a) (g a) else r.get resetWord a := by
  induction l generalizing r with
  | nil => simp
  | cons b l ih =>
    rw [List.foldl_cons, ih]
    by_cases hab : a = b
    · subst hab
      rw [get_takeRwsAt_same]
      by_cases hmask : accMask .rws a = 0
      · simp [hmask]
      · simp [hmask, takeRws_takeRws]
    · rw [get_takeRwsAt_ne g r hab]
      simp [hab]

/-- Where `r` and `g` agree off the list, it is as if every offset had taken its RWS bits. -/
theorem get_foldl_takeRwsAt_all {g : Nat → Word} {l : List Nat} {r : Tab Word} (hl : ∀ a, a ∉ l → r.get resetWord a = g a) (a : Nat) :
    (l.foldl (takeRwsAt g) r).get resetWord a =
      if accMask .rws a = 0 then r.get resetWord a else takeRws a (r.get resetWord a) (g a) := by
  rw [get_foldl_takeRwsAt]
  by_cases hmask : accMask .rws a = 0
  · simp [hmask]
  · by_cases ha : a ∈ l
    · simp [ha, hmask]
    · simp [ha, hmask, hl a ha, takeRws_self]

theorem get_of_not_listed (d : Nat → Word) (t : Tab Word) (a : Nat) (h : a ∉ t.map Prod.fst) : t.get d a = d a := by
  induction t with
  | nil => rfl
  | cons p t ih =>
    rw [List.map_cons, List.mem_cons, not_or] at h
    rw [Tab.get, if_neg (Ne.symm h.1), ih h.2]

/-- At an offset that is not listed the live word and that of the other table are the word of reset. -/
theorem not_listed {s : State} {t : Tab Word} {a : Nat} (h : a ∉ listedOffsets s t) :
    s.word a = resetWord a ∧ t.get resetWord a = resetWord a := by
  rw [listedOffsets, List.mem_eraseDups, List.mem_append, not_or] at h
  exact ⟨get_of_not_listed _ _ _ h.1, get_of_not_listed _ _ _ h.2⟩

/-! ### The commit of an edge (R220) -/

/-- The register words with their RWS bits taken from a seal. -/
def sealedRegs (s : State) (u : Tab Word) : Tab Word := (listedOffsets s u).foldl (takeRwsAt fun a => u.get resetWord a) s.regs

theorem get_sealedRegs (s : State) (u : Tab Word) (a : Nat) : (sealedRegs s u).get resetWord a =
    if accMask .rws a = 0 then s.word a else takeRws a (s.word a) (u.get resetWord a) :=
  get_foldl_takeRwsAt_all (r := s.regs) (fun _ ha => (not_listed ha).1.trans (not_listed ha).2.symm) a

theorem commitSeal_of_some {s : State} {u : Tab Word} (h : s.sealed = some u) : ∃ n, commitSeal s = (true,
    (({ s with regs := sealedRegs s u, sealed := none }.wr R.CLAP_STATUS_SEALED 0).wr R.CLAP_SEQ_COMMITS
      (s.rd R.CLAP_SEQ_COMMITS + 1)).wr R.CLAP_LAST_TICK n) := by
  have hwhen : s.when (s.clap.armNext && s.sealed.isNone) takeSeal = s := by simp [State.when, h]
  unfold commitSeal
  rw [hwhen]
  simp only [h]
  exact ⟨_, rfl⟩

theorem ChangesOnly.regs {K : List Part} {s t : State} (h : ChangesOnly K s t) (hK : .regs ∈ K) (r : Tab Word) :
    ChangesOnly K s { t with regs := r } := h.then hK fun p hp => by cases p <;> simp [Part.same] at hp ⊢

/-- Settles O16: the fold over the listed offsets takes every RWS field of the seal. -/
theorem commitTakesTheSeal : Obligations.CommitTakesTheSeal := by
  unfold Obligations.CommitTakesTheSeal
  intro s u _ _ hseal
  obtain ⟨n, heq⟩ := commitSeal_of_some hseal
  rw [heq]
  refine ⟨rfl, rfl, ?_, ?_, fun a hstatus hseq hlast => ?_, ?_⟩
  · rw [State.rd_wr_apart _ _ _ _ (by decide) (by decide), State.rd_wr_apart _ _ _ _ (by decide) (by decide),
      State.rd_wr _ _ _ (by decide)]
    rfl
  · rw [State.rd_wr_apart _ _ _ _ (by decide) (by decide), State.rd_wr _ _ _ (by decide)]
    norm_num [R.CLAP_SEQ_COMMITS]
  · rw [State.word_wr_ne _ _ _ _ hlast, State.word_wr_ne _ _ _ _ hseq, State.word_wr_ne _ _ _ _ hstatus]
    exact get_sealedRegs s u a
  · have hclosed := ChangesOnly.closed [.regs, .sealed] s
    have htaken := (ChangesOnly.refl [.regs, .sealed] s).regs (by simp) (sealedRegs s u)
    exact hclosed.wr (by simp) _ _ _ (hclosed.wr (by simp) _ _ _ (hclosed.wr (by simp) _ _ _ (hclosed.clearSeal (by simp) _ htaken)))

/-! ### Arms, the cut-off and the discard (R217 to R219, R225) -/

section
variable {l : List Fld} {q : List Part} {s t : State}

theorem Within.modClap (h : Within l q s t) (hq : .clap ∈ q) (g : ClapState → ClapState) : Within l q s (modClap g t) :=
  ⟨h.1.of_regs rfl, (ChangesOnly.closed _ s).clap (by simp [hq]) t _ h.2⟩

theorem Within.takeShadow (h : Within l q s t) (hq : .sealed ∈ q) : Within l q s { t with sealed := some t.shadow } :=
  ⟨h.1.of_regs rfl, (ChangesOnly.closed _ s).setSeal (by simp [hq]) t h.2⟩

theorem Within.shadow (h : Within l q s t) (hq : .shadow ∈ q) (r : Tab Word) : Within l q s { t with shadow := r } :=
  ⟨h.1.of_regs rfl, h.2.then (q := .shadow) (by simp [hq]) fun p hp => by cases p <;> simp [Part.same] at hp ⊢⟩

theorem Within.refreshArmed (h : Within l q s t) (hl : R.CLAP_STATUS_ARMED ∈ l) : Within l q s (refreshArmed t) :=
  h.wr hl (by decide) _

end

@[simp] theorem modClap_clap (g : ClapState → ClapState) (s : State) : (modClap g s).clap = g s.clap := rfl
@[simp] theorem modClap_rd (g : ClapState → ClapState) (s : State) (f : Fld) : (modClap g s).rd f = s.rd f := rfl
@[simp] theorem refreshArmed_clap (s : State) : (refreshArmed s).clap = s.clap := State.wr_clap s _ _

theorem refreshArmed_armed (s : State) : (refreshArmed s).rd R.CLAP_STATUS_ARMED = b2n (s.clap.armNext || s.clap.armAfter) := by
  rw [refreshArmed, State.rd_wr _ _ _ (by decide)]
  exact Nat.mod_eq_of_lt (b2n_lt _)

theorem refreshArmed_rd (s : State) {g : Fld} (h : FldApart R.CLAP_STATUS_ARMED g) : (refreshArmed s).rd g = s.rd g :=
  State.rd_wr_apart _ _ _ _ (by decide) h

theorem QueueOnly.sealed {s t : State} (h : QueueOnly s t) : t.sealed = s.sealed := h.same .sealed (by decide)
theorem QueueOnly.shadow {s t : State} (h : QueueOnly s t) : t.shadow = s.shadow := h.same .shadow (by decide)

theorem cutOff_of_armed {s : State} (hpast : pastCutoff s = true) (harm : s.clap.armNext = true) (hseal : s.sealed = none) :
    cutOff s = takeSeal s := by simp [cutOff, hpast, harm, hseal]

/-- The seal is taken and the arm used up, before CLAP_STATUS shows it. -/
def sealTaken (s : State) : State :=
  modClap (fun o => { o with armNext := false, contentSince := [] }) { s with sealed := some s.shadow }

theorem takeSeal_eq (s : State) : takeSeal s = refreshArmed ((((sealTaken s).wr R.CLAP_STATUS_SEALED 1).wr R.CLAP_STATUS_DIRTY 0).wr
    R.CLAP_STATUS_LATE (b2n s.clap.armAfter)) := rfl

theorem takeSeal_clap (s : State) : (takeSeal s).clap = { s.clap with armNext := false, contentSince := [] } := by
  rw [takeSeal_eq, refreshArmed_clap, State.wr_clap, State.wr_clap, State.wr_clap]
  rfl

theorem takeSeal_sealed (s : State) : (takeSeal s).sealed = some s.shadow := by
  rw [takeSeal_eq, refreshArmed, State.wr_sealed, State.wr_sealed, State.wr_sealed, State.wr_sealed]
  rfl

theorem takeSeal_rd (s : State) : (takeSeal s).rd R.CLAP_STATUS_SEALED = 1 ∧ (takeSeal s).rd R.CLAP_STATUS_DIRTY = 0 ∧
    (takeSeal s).rd R.CLAP_STATUS_ARMED = b2n s.clap.armAfter := by
  rw [takeSeal_eq]
  refine ⟨?_, ?_, ?_⟩
  · rw [refreshArmed_rd _ (by decide), State.rd_wr_apart _ _ _ _ (by decide) (by decide),
      State.rd_wr_apart _ _ _ _ (by decide) (by decide), State.rd_wr _ _ _ (by decide)]
    rfl
  · rw [refreshArmed_rd _ (by decide), State.rd_wr_apart _ _ _ _ (by decide) (by decide), State.rd_wr _ _ _ (by decide)]
    rfl
  · rw [refreshArmed_armed, State.wr_clap, State.wr_clap, State.wr_clap]
    rfl

/-- The fields that the taking of a seal writes. -/
abbrev sealFields : List Fld := [R.CLAP_STATUS_SEALED, R.CLAP_STATUS_DIRTY, R.CLAP_STATUS_LATE, R.CLAP_STATUS_ARMED]

theorem takeSeal_within (s : State) : Within sealFields [.sealed, .clap] s (takeSeal s) := by
  have h : Within sealFields [.sealed, .clap] s (sealTaken s) := ((Within.refl _ _ s).takeShadow (by simp)).modClap (by simp) _
  rw [takeSeal_eq]
  exact (((h.wr (by simp) (by decide) _).wr (by simp) (by decide) _).wr (by simp) (by decide) _).refreshArmed (by simp)

theorem cutOff_seals (s : State) (hpast : pastCutoff s = true) (harm : s.clap.armNext = true) (hseal : s.sealed = none) :
    ∃ t, exec .cutOff s = .next t ∧ t.sealed = some s.shadow ∧ t.clap.armNext = false ∧ t.clap.armAfter = s.clap.armAfter ∧
      t.rd R.CLAP_STATUS_SEALED = 1 ∧ t.rd R.CLAP_STATUS_DIRTY = 0 ∧ t.rd R.CLAP_STATUS_ARMED = b2n s.clap.armAfter ∧
      FieldsOnly sealFields s t ∧ ChangesOnly (queueParts ++ [.sealed, .clap]) s t := by
  refine ⟨_, exec_of_wf rfl rfl, ?_⟩
  rw [cutOff_of_armed hpast harm hseal]
  obtain ⟨hsealed, hdirty, harmed⟩ := takeSeal_rd s
  refine ⟨?_, ?_, ?_, ?_, ?_, ?_, (takeSeal_within s).queue (.flushEvents _)⟩
  · rw [(QueueOnly.flushEvents _).sealed, takeSeal_sealed]
  · rw [State.flushEvents_clap, takeSeal_clap]
  · rw [State.flushEvents_clap, takeSeal_clap]
  · rw [State.flushEvents_rd _ _ (by decide), hsealed]
  · rw [State.flushEvents_rd _ _ (by decide), hdirty]
  · rw [State.flushEvents_rd _ _ (by decide), harmed]

/-- An arm records its time, which leaves what the cut-off depends on. -/
theorem pastCutoff_armTime (s : State) (v : Nat) : pastCutoff (s.wr R.CLAP_ARM_WUS_WUS v) = pastCutoff s := by
  unfold pastCutoff State.rdb State.nowNs
  rw [State.rd_wr_apart _ _ _ _ (by decide) (by decide), State.wr_tick, State.wr_time]

theorem armTime_rd (s : State) : (s.wr R.CLAP_ARM_WUS_WUS s.wus).rd R.CLAP_ARM_WUS_WUS = s.wus :=
  (State.rd_wr _ _ _ (by decide)).trans (Nat.mod_mod _ _)

theorem clapArm_of_early {s : State} (h : pastCutoff s = false) : clapArm s =
    refreshArmed (modClap (fun o => { o with armNext := true }) (s.wr R.CLAP_ARM_WUS_WUS s.wus)) := by
  simp [clapArm, pastCutoff_armTime, h]

theorem clapArm_early (s : State) (h : pastCutoff s = false) : ∃ t, exec .clapArm s = .next t ∧
    t.clap = { s.clap with armNext := true } ∧ t.rd R.CLAP_STATUS_ARMED = 1 ∧ t.rd R.CLAP_ARM_WUS_WUS = s.wus ∧
    FieldsOnly [R.CLAP_STATUS_ARMED, R.CLAP_ARM_WUS_WUS] s t ∧ ChangesOnly (queueParts ++ [.clap]) s t := by
  refine ⟨_, exec_of_wf rfl rfl, ?_⟩
  rw [clapArm_of_early h]
  refine ⟨?_, ?_, ?_, ?_⟩
  · rw [State.flushEvents_clap, refreshArmed_clap, modClap_clap, State.wr_clap]
  · rw [State.flushEvents_rd _ _ (by decide), refreshArmed_armed, modClap_clap, Bool.true_or]; rfl
  · rw [State.flushEvents_rd _ _ (by decide), refreshArmed_rd _ (by decide), modClap_rd, armTime_rd]
  · have htime : Within [R.CLAP_STATUS_ARMED, R.CLAP_ARM_WUS_WUS] [.clap] s (s.wr R.CLAP_ARM_WUS_WUS s.wus) :=
      (Within.refl _ _ s).wr (by simp) (by decide) _
    exact ((htime.modClap (by simp) _).refreshArmed (by simp)).queue (.flushEvents _)

/-- A late arm raises CLAP_ARM_LATE, unless another already waits for that edge. -/
theorem clapArm_of_late {s : State} (h : pastCutoff s = true) : ∃ u, QueueOnly (s.wr R.CLAP_ARM_WUS_WUS s.wus) u ∧
    clapArm s = refreshArmed ((modClap (fun o => { o with armAfter := true }) u).wr R.CLAP_STATUS_LATE 1) := by
  unfold clapArm
  extract_lets t u
  rw [if_pos ((pastCutoff_armTime s _).trans h)]
  exact ⟨u, .ite (.refl _) (.raise _ _ _), rfl⟩

theorem clapArm_late (s : State) (h : pastCutoff s = true) : ∃ t, exec .clapArm s = .next t ∧
    t.clap = { s.clap with armAfter := true } ∧ t.rd R.CLAP_STATUS_ARMED = 1 ∧ t.rd R.CLAP_STATUS_LATE = 1 ∧
    t.rd R.CLAP_ARM_WUS_WUS = s.wus ∧ FieldsOnly [R.CLAP_STATUS_ARMED, R.CLAP_STATUS_LATE, R.CLAP_ARM_WUS_WUS] s t ∧
    ChangesOnly (queueParts ++ [.clap]) s t := by
  refine ⟨_, exec_of_wf rfl rfl, ?_⟩
  obtain ⟨u, hu, heq⟩ := clapArm_of_late h
  rw [heq]
  refine ⟨?_, ?_, ?_, ?_, ?_⟩
  · rw [State.flushEvents_clap, refreshArmed_clap, State.wr_clap, modClap_clap, hu.clap, State.wr_clap]
  · rw [State.flushEvents_rd _ _ (by decide), refreshArmed_armed, State.wr_clap, modClap_clap, Bool.or_true]; rfl
  · rw [State.flushEvents_rd _ _ (by decide), refreshArmed_rd _ (by decide), State.rd_wr _ _ _ (by decide)]; rfl
  · rw [State.flushEvents_rd _ _ (by decide), refreshArmed_rd _ (by decide), State.rd_wr_apart _ _ _ _ (by decide) (by decide),
      modClap_rd, hu.rd _ (by decide), armTime_rd]
  · have htime : Within [R.CLAP_STATUS_ARMED, R.CLAP_STATUS_LATE, R.CLAP_ARM_WUS_WUS] [.clap] s (s.wr R.CLAP_ARM_WUS_WUS s.wus) :=
      (Within.refl _ _ s).wr (by simp) (by decide) _
    exact ((((htime.queue hu).modClap (by simp) _).wr (by simp) (by decide) _).refreshArmed (by simp)).queue (.flushEvents _)

/-- The shadows with their RWS bits put back to the live values. -/
def liveShadows (s : State) : Tab Word := (listedOffsets s s.shadow).foldl (takeRwsAt s.word) s.shadow

theorem get_liveShadows (s : State) (a : Nat) : (liveShadows s).get resetWord a =
    if accMask .rws a = 0 then s.shadowWord a else takeRws a (s.shadowWord a) (s.word a) :=
  get_foldl_takeRwsAt_all (r := s.shadow) (fun _ ha => (not_listed ha).2.trans (not_listed ha).1.symm) a

theorem clapDiscard_of_unsealed {s : State} (h : s.sealed = none) : clapDiscard s =
    refreshArmed (((modClap (fun o => { o with armNext := false, armAfter := false }) { s with shadow := liveShadows s }).wr
      R.CLAP_STATUS_LATE 0).wr R.CLAP_STATUS_DIRTY 0) := by
  rw [clapDiscard, if_neg (by simp [h])]
  rfl

theorem clapDiscard_withdraws (s : State) (h : s.sealed = none) : ∃ t, exec .clapDiscard s = .next t ∧
    t.clap = { s.clap with armNext := false, armAfter := false } ∧ t.rd R.CLAP_STATUS_ARMED = 0 ∧
    t.rd R.CLAP_STATUS_LATE = 0 ∧ t.rd R.CLAP_STATUS_DIRTY = 0 ∧
    (∀ a : Nat, t.shadowWord a = (if accMask .rws a = 0 then s.shadowWord a else takeRws a (s.shadowWord a) (s.word a))) ∧
    FieldsOnly [R.CLAP_STATUS_ARMED, R.CLAP_STATUS_LATE, R.CLAP_STATUS_DIRTY] s t ∧
    ChangesOnly (queueParts ++ [.shadow, .clap]) s t := by
  refine ⟨_, exec_of_wf rfl rfl, ?_⟩
  rw [clapDiscard_of_unsealed h]
  refine ⟨?_, ?_, ?_, ?_, fun a => ?_, ?_⟩
  · rw [State.flushEvents_clap, refreshArmed_clap, State.wr_clap, State.wr_clap, modClap_clap]
  · rw [State.flushEvents_rd _ _ (by decide), refreshArmed_armed, State.wr_clap, State.wr_clap, modClap_clap]; rfl
  · rw [State.flushEvents_rd _ _ (by decide), refreshArmed_rd _ (by decide), State.rd_wr_apart _ _ _ _ (by decide) (by decide),
      State.rd_wr _ _ _ (by decide)]
    rfl
  · rw [State.flushEvents_rd _ _ (by decide), refreshArmed_rd _ (by decide), State.rd_wr _ _ _ (by decide)]; rfl
  · rw [State.shadowWord, (QueueOnly.flushEvents _).shadow]
    exact get_liveShadows s a
  · have hback := ((Within.refl [R.CLAP_STATUS_ARMED, R.CLAP_STATUS_LATE, R.CLAP_STATUS_DIRTY] [.shadow, .clap] s).shadow (by simp)
      (liveShadows s)).modClap (by simp) fun o => { o with armNext := false, armAfter := false }
    exact (((hback.wr (by simp) (by decide) _).wr (by simp) (by decide) _).refreshArmed (by simp)).queue (.flushEvents _)

theorem clapDiscard_misses (s : State) (h : s.sealed ≠ none) : ∃ t, exec .clapDiscard s = .next t ∧
    t.rd R.CLAP_STATUS_DISCARD_MISS = 1 ∧ FieldsOnly [R.CLAP_STATUS_DISCARD_MISS] s t ∧ ChangesOnly queueParts s t := by
  refine ⟨_, exec_of_wf rfl rfl, ?_⟩
  rw [clapDiscard, if_pos (Option.isSome_iff_ne_none.mpr h)]
  refine ⟨?_, ((Within.refl [R.CLAP_STATUS_DISCARD_MISS] [] s).wr (by simp) (by decide) _).queue (.flushEvents _)⟩
  rw [State.flushEvents_rd _ _ (by decide), State.rd_wr _ _ _ (by decide)]
  rfl

/-- Settles O19, command by command. -/
theorem clapperCommands : Obligations.ClapperCommands := by
  unfold Obligations.ClapperCommands
  exact ⟨cutOff_seals, clapArm_early, clapArm_late, clapDiscard_withdraws, clapDiscard_misses⟩

end Sys2Proof.Machine

/-!
PROOFS. ACCESS_CHECK (R354, R357, R360): the lines of an access, a permitted line of DRAM, of SRAM and of the aperture, and a
refused one.
-/
namespace Sys2Proof.Machine

/-! ### What a command sends is not taken back -/

/-- What has left the device stays in the record of what has left. -/
theorem sent_closed (K : List Part) (m : Sent) : Closed K fun s => m ∈ s.sent where
  word _ _ _ _ h := h
  dropWords _ _ _ _ h := h
  shadowWord _ _ _ _ h := h
  dropShadow _ _ _ _ h := h
  setSeal _ _ h := h
  clearSeal _ _ h := h
  setSecNs _ _ _ _ _ _ h := h
  setFrac _ _ _ _ h := h
  timers _ _ _ _ _ _ h := h
  store _ _ _ _ _ h := h
  dropBytes _ _ _ _ h := h
  mem _ _ _ _ h := h
  evq _ _ _ h := h
  tick _ _ _ h := h
  clap _ _ _ h := h
  permit _ _ _ h := h
  audio _ _ _ h := h
  touch _ _ _ h := h
  chk _ _ _ h := h
  power _ _ _ h := h
  comp _ _ _ h := h
  codec _ _ _ h := h
  faults _ _ _ h := h
  damper _ _ _ h := h
  inj _ _ _ h := h
  lanes _ _ _ h := h
  ports _ _ _ h := h
  links _ _ _ h := h
  crl _ _ _ h := h
  img _ _ _ h := h
  fuses _ _ _ h := h
  send _ _ _ h := List.mem_append_left _ h
  free _ _ _ h := h

theorem sent_flushEvents {s : State} {m : Sent} (h : m ∈ s.sent) : m ∈ s.flushEvents.sent :=
  (sent_closed queueParts m).flushEvents (by simp) (by simp) (by simp) s h

theorem sent_send (s : State) (m : Sent) : m ∈ (s.send m).sent := List.mem_append_right _ (List.mem_singleton_self m)

/-! ### The memory block -/

theorem QueueOnly.mem {s t : State} (h : QueueOnly s t) : t.mem = s.mem := by
  have he := congrArg State.mem h.2
  exact he

@[simp] theorem State.flushEvents_mem (s : State) : s.flushEvents.mem = s.mem := (QueueOnly.flushEvents s).mem

theorem Within.mem {l : List Fld} {q : List Part} {s t : State} (h : Within l q s t) (hq : .mem ∈ q) {o : MemState}
    (ho : o.bytes = t.mem.bytes) : Within l q s { t with mem := o } :=
  ⟨h.1.of_regs rfl, (ChangesOnly.closed _ s).mem (by simp [hq]) t o ho h.2⟩

/-! ### A line at a matrix point (R494, R495) -/

/-- What survives the registers and the running values of the check units survives a line. -/
theorem Closed.chkLine {K : List Part} {P : State → Prop} (h : Closed K P) (hr : .regs ∈ K) (point src : Nat)
    (line : Option (List Byte)) (hk : line = none ∨ .chk ∈ K) (s : State) (hs : P s) : P (chkLine point src line s) := by
  unfold Machine.chkLine
  refine closed_foldl (fun t u ht => ?_) hs
  rcases line with - | bs
  · exact h.wr hr _ _ _ ht
  · exact h.wr hr _ _ _ (h.setCheckUnit (hk.resolve_left (by simp)) _ _ _ ht)

theorem chkLine_changes (point src : Nat) (line : Option (List Byte)) (s : State) :
    ChangesOnly [.regs, .chk] s (chkLine point src line s) :=
  (ChangesOnly.closed _ s).chkLine (by simp) _ _ _ (.inr (by simp)) s (.refl _ s)

theorem chkLine_skipped_changes (point src : Nat) (s : State) : ChangesOnly [.regs] s (chkLine point src none s) :=
  (ChangesOnly.closed _ s).chkLine (by simp) _ _ _ (.inl rfl) s (.refl _ s)

@[simp] theorem chkLine_mem (point src : Nat) (line : Option (List Byte)) (s : State) : (chkLine point src line s).mem = s.mem := by
  unfold chkLine
  refine closed_foldl (P := fun t => t.mem = s.mem) (fun t u ht => ?_) rfl
  rcases line with - | bs
  · exact (State.wr_mem _ _ _).trans ht
  · exact (State.wr_mem _ _ _).trans ht

/-- Only the registers of the check units change. -/
theorem chkLine_rd (point src : Nat) (line : Option (List Byte)) (s : State) {g : Fld} (hg : 0x0F0300 ≤ g.addr) :
    (chkLine point src line s).rd g = s.rd g := by
  unfold chkLine
  refine closed_foldl_mem (P := fun t => t.rd g = s.rd g) (fun t u hu ht => ?_) rfl
  have hu16 : u < 16 := List.mem_range.mp (List.mem_of_mem_filter hu)
  rcases line with - | bs
  · exact (State.rd_wr_elsewhere _ _ (by simp only [R.CHK_CU_COUNT_SKIPPED]; omega)).trans ht
  · exact (State.rd_wr_elsewhere _ _ (by simp only [R.CHK_CU_RESULT_VALUE]; omega)).trans ht

/-! ### The lines of an access, one by one (R354) -/

/-- What ACCESS_CHECK does with one line. -/
def serveLine (s : State) (x : Access) : State :=
  match lineVerdict s x with
  | .refused kind _ => answerRefusal x.src x.write x.addr x.len kind (noteLine x s)
  | .permitted colour => accessLine colour x s

theorem serveLine_of_permitted {s : State} {x : Access} {colour : Bool} (h : lineVerdict s x = .permitted colour) :
    serveLine s x = accessLine colour x s := by rw [serveLine, h]

theorem serveLine_of_refused {s : State} {x : Access} {kind region : Nat} (h : lineVerdict s x = .refused kind region) :
    serveLine s x = answerRefusal x.src x.write x.addr x.len kind
      (noteRefusal x.src x.addr kind region (chkLine (if x.write then 7 else 8) x.src none s)) := by
  simp only [serveLine, noteLine, h]

/-- A write, and a read of which every line is permitted, are served line by line. -/
theorem accessChecked_of_served {s : State} {x : Access} (hfence : isFenced s x.src = false)
    (h : x.write = true ∨ anyRefused s x = none) : accessChecked x s = (accessLines x).foldl serveLine s := by
  have hnone : (if x.write then none else anyRefused s x) = none := by
    rcases h with h | h
    · rw [if_pos h]
    · split
      · rfl
      · exact h
  have hread : (!isFenced s x.src && !x.write && (anyRefused s x).isSome) = false := by
    rcases h with h | h <;> simp [h]
  have hcheck : accessCheck x s = (accessLines x).foldl serveLine s := by
    unfold accessCheck
    rw [hfence, if_neg (by simp), hnone]
    rfl
  unfold accessChecked
  rw [hread, hcheck]
  rfl

theorem anyRefused_of_permitted {s : State} {x : Access} {colour : Bool}
    (h : ∀ l ∈ accessLines x, lineVerdict s l = .permitted colour) : anyRefused s x = none :=
  List.findSome?_eq_none_iff.mpr fun l hl => by rw [h l hl]

theorem accessCheck_wellFormed {x : Access} (hsrc : x.src < 161) (haddr : x.addr < 2 ^ 39)
    (hlen : if x.write then x.bytes ≠ [] else x.len ≠ 0) : WellFormed (.accessCheck x) := by
  have hlen' : (if x.write then x.bytes.length != 0 else x.len != 0) = true := by split at hlen <;> simp_all
  simp only [WellFormed, Instr.wf, hsrc, haddr, hlen', decide_true, Bool.and_self]

/-! ### A permitted line -/

/-- The request that a permitted line of DRAM makes. -/
def lineRequest (s : State) (colour : Bool) (x : Access) : Outstanding :=
  { access := x, epoch := s.rd (R.MPU_EPOCH_EPOCH 0), colour, sinceNs := s.monoNs }

/-- Further requests wait. -/
def withRequests (s : State) (os : List Outstanding) : State :=
  { s with mem := { s.mem with outstanding := s.mem.outstanding ++ os } }

theorem unitOf_dram {a : Nat} (h : a < 2 ^ 38) : unitOf a = (0, a) := if_pos h

theorem unitOf_sram {a : Nat} (h1 : 2 ^ 38 ≤ a) (h2 : a < 0x4010000000) : unitOf a = (1, a - 0x4000000000) := by
  rw [unitOf, if_neg (by omega), if_pos h2]

theorem unitOf_aperture {a : Nat} (h : 0x4010000000 ≤ a) : unitOf a = (2, a - 0x4010000000) := by
  rw [unitOf, if_neg (by omega), if_neg (by omega)]

theorem lineVerdict_withRequests (s : State) (os : List Outstanding) (x : Access) :
    lineVerdict (withRequests s os) x = lineVerdict s x := rfl

theorem lineRequest_withRequests (s : State) (os : List Outstanding) : lineRequest (withRequests s os) = lineRequest s := rfl

theorem withRequests_withRequests (s : State) (os ps : List Outstanding) :
    withRequests (withRequests s os) ps = withRequests s (os ++ ps) := by simp [withRequests]

theorem withRequests_nil (s : State) : withRequests s [] = s := by simp [withRequests]

theorem withRequests_within (s : State) (os : List Outstanding) : Within [] [.mem] s (withRequests s os) :=
  (Within.refl _ _ s).mem (by simp) rfl

theorem accessLine_dram {x : Access} (h : x.addr < 2 ^ 38) (colour : Bool) (s : State) :
    accessLine colour x s = withRequests s [lineRequest s colour x] := by
  unfold accessLine
  rw [unitOf_dram h]
  rfl

theorem accessLine_sramWrite {x : Access} (h1 : 2 ^ 38 ≤ x.addr) (h2 : x.addr < 0x4010000000) (hw : x.write = true) (colour : Bool)
    (s : State) : accessLine colour x s = chkLine 7 x.src (some x.bytes) (s.memWrite x.addr x.bytes) := by
  unfold accessLine
  rw [unitOf_sram h1 h2, hw]
  rfl

/-- The lines of a permitted access to DRAM all become outstanding, and none changes the verdict of the next. -/
theorem foldl_serveLine_dram {s : State} {colour : Bool} {ls : List Access}
    (h : ∀ l ∈ ls, l.addr < 2 ^ 38 ∧ lineVerdict s l = .permitted colour) (os : List Outstanding) :
    ls.foldl serveLine (withRequests s os) = withRequests s (os ++ ls.map (lineRequest s colour)) := by
  induction ls generalizing os with
  | nil => simp
  | cons l ls ih =>
    obtain ⟨haddr, hok⟩ := h l List.mem_cons_self
    rw [List.foldl_cons, serveLine_of_permitted ((lineVerdict_withRequests s os l).trans hok), accessLine_dram haddr,
      withRequests_withRequests, lineRequest_withRequests, ih fun l hl => h l (List.mem_cons_of_mem _ hl)]
    simp

theorem accessCheck_dram (s : State) (x : Access) (colour : Bool) (hsrc : x.src < 161) (haddr : x.addr < 2 ^ 39)
    (hlen : if x.write then x.bytes ≠ [] else x.len ≠ 0) (hfence : isFenced s x.src = false)
    (hlines : ∀ l ∈ accessLines x, l.addr < 2 ^ 38 ∧ checkAccess s l.src l.write l.addr = .permitted colour) :
    ∃ t, exec (.accessCheck x) s = .next t ∧
      t.mem = { s.mem with outstanding := s.mem.outstanding ++ (accessLines x).map (lineRequest s colour) } ∧
      FieldsOnly [] s t ∧ ChangesOnly (queueParts ++ [.mem]) s t := by
  refine ⟨_, exec_of_wf (accessCheck_wellFormed hsrc haddr hlen) rfl, ?_⟩
  have hserved : accessChecked x s = withRequests s ((accessLines x).map (lineRequest s colour)) := by
    rw [accessChecked_of_served hfence (.inr (anyRefused_of_permitted fun l hl => (hlines l hl).2))]
    have hfold := foldl_serveLine_dram hlines []
    rw [withRequests_nil] at hfold
    exact hfold
  rw [hserved]
  exact ⟨State.flushEvents_mem _, (withRequests_within s _).queue (.flushEvents _)⟩

theorem accessCheck_sramWrite (s : State) (x : Access) (colour : Bool) (hsrc : x.src < 161) (hlow : 2 ^ 38 ≤ x.addr)
    (hhigh : x.addr < 0x4010000000) (hone : accessLines x = [x]) (hw : x.write = true) (hbytes : x.bytes ≠ [])
    (hfence : isFenced s x.src = false) (hok : checkAccess s x.src x.write x.addr = .permitted colour) :
    ∃ t, exec (.accessCheck x) s = .next t ∧ t.mem.bytes = storeCells s.mem.bytes x.addr x.bytes ∧
      ChangesOnly (queueParts ++ [.bytes, .mem, .chk]) s t := by
  refine ⟨_, exec_of_wf (accessCheck_wellFormed hsrc (by omega) (by rw [if_pos hw]; exact hbytes)) rfl, ?_⟩
  have hserved : accessChecked x s = chkLine 7 x.src (some x.bytes) (s.memWrite x.addr x.bytes) := by
    rw [accessChecked_of_served hfence (.inl hw), hone, List.foldl_cons, List.foldl_nil, serveLine_of_permitted hok,
      accessLine_sramWrite hlow hhigh hw]
  rw [hserved]
  refine ⟨by rw [State.flushEvents_mem, chkLine_mem]; rfl, ?_⟩
  have hclosed := ChangesOnly.closed (queueParts ++ [.bytes, .mem, .chk]) s
  exact (hclosed.chkLine (by simp) _ _ _ (.inr (by simp)) _ (hclosed.store (by simp) _ _ _ (.inl (by simp)) (.refl _ s))).queue
    (.flushEvents _) (by simp)

/-! ### A read of one word of the aperture -/

/-- A read of four bytes within one line is a line of its own. -/
theorem accessLines_word (src a : Nat) (h : a % 64 ≤ 60) :
    accessLines { src := src, addr := a, write := false, bytes := [], len := 4 } =
      [{ src := src, addr := a, write := false, bytes := [], len := 4 }] := by
  have hone : (a + 4 + 63) / 64 - a / 64 = 1 := by omega
  have hfrom : max a (64 * (a / 64)) = a := by omega
  have hto : min (a + 4) (64 * (a / 64 + 1)) - a = 4 := by omega
  simp only [accessLines, Bool.false_eq_true, if_false, hone, span, List.range_one, List.map_cons, List.map_nil,
    Nat.add_zero, hfrom, hto, List.drop_nil, List.take_nil]

/-- A read of word `w` of the aperture. -/
abbrev wordRead (src w : Nat) : Access := { src := src, addr := 0x4010000000 + 4 * w, write := false, bytes := [], len := 4 }

theorem accessLine_wordRead (src w : Nat) (colour : Bool) (s : State) : accessLine colour (wordRead src w) s =
    s.send (.readData src (0x4010000000 + 4 * w) (leBytes 4 (readReg (src == 152) (4 * w) s)) false) := by
  have hoff : 0x4010000000 + 4 * w - 0x4010000000 = 4 * w := Nat.add_sub_cancel_left ..
  have hfirst : 4 * w / 4 = w := by omega
  have hone : (4 * w + 4 + 3) / 4 - w = 1 := by omega
  unfold accessLine
  rw [unitOf_aperture (Nat.le_add_right _ _)]
  simp only [wordRead, hoff, hfirst, hone, span, List.range_one, List.map_cons, List.map_nil, Nat.add_zero, List.flatMap_cons,
    List.flatMap_nil, List.append_nil, Bool.false_eq_true, if_false, OfNat.ofNat_ne_zero, OfNat.ofNat_ne_one]

theorem accessChecked_wordRead {s : State} {src w : Nat} {colour : Bool} (hfence : isFenced s src = false)
    (hok : lineVerdict s (wordRead src w) = .permitted colour) : accessChecked (wordRead src w) s =
      s.send (.readData src (0x4010000000 + 4 * w) (leBytes 4 (readReg (src == 152) (4 * w) s)) false) := by
  have hline : accessLines (wordRead src w) = [wordRead src w] := accessLines_word src _ (by omega)
  have hall : anyRefused s (wordRead src w) = none :=
    anyRefused_of_permitted (colour := colour) (by rw [hline]; exact List.forall_mem_singleton.mpr hok)
  rw [accessChecked_of_served hfence (.inr hall), hline, List.foldl_cons, List.foldl_nil, serveLine_of_permitted hok,
    accessLine_wordRead]

theorem accessCheck_wordRead (s : State) (src w : Nat) (colour : Bool) (hsrc : src < 161) (hw : w < 0x400000)
    (hfence : isFenced s src = false) (hok : checkAccess s src false (0x4010000000 + 4 * w) = .permitted colour) :
    ∃ t, exec (.accessCheck (wordRead src w)) s = .next t ∧
      Sent.readData src (0x4010000000 + 4 * w) (leBytes 4 (readReg (src == 152) (4 * w) s)) false ∈ t.sent ∧
      FieldsOnly [] s t ∧ ChangesOnly queueParts s t := by
  have haddr : 0x4010000000 + 4 * w < 2 ^ 39 := by omega
  refine ⟨_, exec_of_wf (accessCheck_wellFormed hsrc haddr (by simp)) rfl, ?_⟩
  rw [accessChecked_wordRead hfence hok]
  exact ⟨sent_flushEvents (sent_send _ _), (((Within.refl [] [] s).queue (.send _ _)).queue (.flushEvents _))⟩

/-! ### A refused line (R360) -/

theorem unitOf_lt (a : Nat) : (unitOf a).1 < 3 := by
  unfold unitOf
  split
  · simp
  · split <;> simp

theorem QueueOnly.answerRefusal (src : Nat) (write : Bool) (addr len kind : Nat) (s : State) :
    QueueOnly s (answerRefusal src write addr len kind s) := by
  unfold Machine.answerRefusal
  exact .ite (.send _ _) (.ite (.ite (.refl _) (.send _ _)) (.ite (.ite (.refl _) (.send _ _)) (.send _ _)))

/-- The registers of unit `u` keep a refusal. -/
def keepRefusal (u line src kind region : Nat) (s : State) : State :=
  (((s.wr (R.MPU_VIOL_ADDR_LINE u) line).wr (R.MPU_VIOL_INFO_REGION u) region).wr (R.MPU_VIOL_INFO_KIND u) kind).wr
    (R.MPU_VIOL_INFO_SOURCE u) src

/-- Unit `u` has kept a refusal in this tick. -/
def refusedThisTick (u : Nat) (s : State) : State := { s with evq := { s.evq with raisedTick := (0x11FF, u) :: s.evq.raisedTick } }

theorem refusedThisTick_rd (u : Nat) (s : State) (f : Fld) : (refusedThisTick u s).rd f = s.rd f := rfl

/-- The first refusal of a tick at a unit is kept. -/
def firstRefusal (src addr kind region : Nat) (s : State) : State :=
  if (0x11FF, (unitOf addr).1) ∉ s.evq.raisedTick then
    refusedThisTick (unitOf addr).1 (keepRefusal (unitOf addr).1 ((unitOf addr).2 / 64) src kind region s)
  else s

/-- A refusal is kept where it is the first, counted, and raised. -/
theorem noteRefusal_eq (src addr kind region : Nat) (s : State) : ∃ u, QueueOnly ((firstRefusal src addr kind region s).wr
    (R.MPU_VIOL_COUNT_COUNT (unitOf addr).1)
    (satTo 32 ((firstRefusal src addr kind region s).rd (R.MPU_VIOL_COUNT_COUNT (unitOf addr).1) + 1))) u ∧
    noteRefusal src addr kind region s = u :=
  ⟨_, .trans (.raiseOnce _ _ _) (.ite (.raise _ _ _) (.refl _)), rfl⟩

theorem keepRefusal_count (u line src kind region v : Nat) (s : State) :
    (keepRefusal u line src kind region s).rd (R.MPU_VIOL_COUNT_COUNT v) = s.rd (R.MPU_VIOL_COUNT_COUNT v) := by
  have hsource : (R.MPU_VIOL_COUNT_COUNT v).addr ≠ (R.MPU_VIOL_INFO_SOURCE u).addr := by
    simp only [R.MPU_VIOL_COUNT_COUNT, R.MPU_VIOL_INFO_SOURCE]; omega
  have hkind : (R.MPU_VIOL_COUNT_COUNT v).addr ≠ (R.MPU_VIOL_INFO_KIND u).addr := hsource
  have hregion : (R.MPU_VIOL_COUNT_COUNT v).addr ≠ (R.MPU_VIOL_INFO_REGION u).addr := hsource
  have hline : (R.MPU_VIOL_COUNT_COUNT v).addr ≠ (R.MPU_VIOL_ADDR_LINE u).addr := by
    simp only [R.MPU_VIOL_COUNT_COUNT, R.MPU_VIOL_ADDR_LINE]; omega
  rw [keepRefusal, State.rd_wr_elsewhere _ _ hsource, State.rd_wr_elsewhere _ _ hkind, State.rd_wr_elsewhere _ _ hregion,
    State.rd_wr_elsewhere _ _ hline]

theorem firstRefusal_count (src addr kind region v : Nat) (s : State) :
    (firstRefusal src addr kind region s).rd (R.MPU_VIOL_COUNT_COUNT v) = s.rd (R.MPU_VIOL_COUNT_COUNT v) := by
  unfold firstRefusal
  split
  · rw [refusedThisTick_rd, keepRefusal_count]
  · rfl

theorem firstRefusal_changes (src addr kind region : Nat) (s : State) :
    ChangesOnly queueParts s (firstRefusal src addr kind region s) := by
  have h := ChangesOnly.closed queueParts s
  have w (t : State) (f : Fld) (v : Nat) (ht : ChangesOnly queueParts s t) := h.wr (by simp) t f v ht
  exact closed_ite (h.evq (by simp) _ _ (w _ _ _ (w _ _ _ (w _ _ _ (w _ _ _ (.refl _ s)))))) (.refl _ s)

theorem noteRefusal_changes (src addr kind region : Nat) (s : State) :
    ChangesOnly queueParts s (noteRefusal src addr kind region s) := by
  obtain ⟨u, hu, heq⟩ := noteRefusal_eq src addr kind region s
  rw [heq]
  exact ((ChangesOnly.closed queueParts s).wr (by simp) _ _ _ (firstRefusal_changes src addr kind region s)).queue hu (by simp)

theorem refusalCount_notQueue (u : Nat) : queueOffset (R.MPU_VIOL_COUNT_COUNT u).addr = false :=
  queueOffset_above (by simp only [R.MPU_VIOL_COUNT_COUNT]; omega)

theorem noteRefusal_count (src addr kind region : Nat) (s : State) :
    (noteRefusal src addr kind region s).rd (R.MPU_VIOL_COUNT_COUNT (unitOf addr).1) =
      min (s.rd (R.MPU_VIOL_COUNT_COUNT (unitOf addr).1) + 1) (2 ^ 32 - 1) := by
  obtain ⟨u, hu, heq⟩ := noteRefusal_eq src addr kind region s
  rw [heq, hu.rd _ (refusalCount_notQueue _), State.rd_wr _ _ _ (by simp [FldOk, R.MPU_VIOL_COUNT_COUNT]), firstRefusal_count]
  exact Nat.mod_eq_of_lt (lt_of_le_of_lt (min_le_right _ _) (by simp [R.MPU_VIOL_COUNT_COUNT]))

theorem accessCheck_refusedWrite (s : State) (x : Access) (kind region : Nat) (hsrc : x.src < 161) (haddr : x.addr < 2 ^ 39)
    (hone : accessLines x = [x]) (hw : x.write = true) (hbytes : x.bytes ≠ []) (hfence : isFenced s x.src = false)
    (hno : checkAccess s x.src x.write x.addr = .refused kind region) : ∃ t, exec (.accessCheck x) s = .next t ∧
      t.rd (R.MPU_VIOL_COUNT_COUNT (unitOf x.addr).1) =
        min (s.rd (R.MPU_VIOL_COUNT_COUNT (unitOf x.addr).1) + 1) (2 ^ 32 - 1) ∧
      ChangesOnly queueParts s t := by
  refine ⟨_, exec_of_wf (accessCheck_wellFormed hsrc haddr (by rw [if_pos hw]; exact hbytes)) rfl, ?_⟩
  rw [accessChecked_of_served hfence (.inl hw), hone, List.foldl_cons, List.foldl_nil, serveLine_of_refused hno]
  have hskip := (chkLine_skipped_changes (if x.write then 7 else 8) x.src s).mono (L := queueParts) (by simp)
  refine ⟨?_, ((hskip.trans (noteRefusal_changes _ _ _ _ _)).queue (.answerRefusal _ _ _ _ _ _) (by simp)).queue
    (.flushEvents _) (by simp)⟩
  rw [State.flushEvents_rd _ _ (refusalCount_notQueue _), (QueueOnly.answerRefusal _ _ _ _ _ _).rd _ (refusalCount_notQueue _),
    noteRefusal_count, chkLine_rd _ _ _ _ (by simp only [R.MPU_VIOL_COUNT_COUNT]; omega)]

end Sys2Proof.Machine

/-!
PROOFS. The requests of DRAM as they are served (R329, R330, R335, R353): a write of a line without errors, a read of one with the
queued writes over it.
-/
namespace Sys2Proof.Machine

/-! ### Requests move through the matrix -/

/-- From `s` to `t` nothing changes but which requests are outstanding, their arrivals and the source served last. -/
def RequestsOnly (s t : State) : Prop :=
  t = { s with mem := { s.mem with arrivals := t.mem.arrivals, lastServed := t.mem.lastServed, outstanding := t.mem.outstanding } }

theorem RequestsOnly.refl (s : State) : RequestsOnly s s := rfl

theorem RequestsOnly.trans {s t u : State} (h : RequestsOnly s t) (k : RequestsOnly t u) : RequestsOnly s u := by
  unfold RequestsOnly at *
  rw [h] at k
  exact k

theorem RequestsOnly.arrive (m : Nat) (o : Outstanding) (s : State) : RequestsOnly s (arrive m o s) := rfl

theorem RequestsOnly.serveMatrix (m n : Nat) (s : State) : RequestsOnly s (serveMatrix m n s) := by
  induction n generalizing s with
  | zero => exact .refl s
  | succ n ih =>
    unfold Machine.serveMatrix
    split
    · exact .refl s
    · exact (RequestsOnly.arrive _ _ s).trans (ih _)

theorem RequestsOnly.takeServed {s u : State} {src : Nat} {write : Bool} {o : Outstanding}
    (h : takeServed src write s = (some o, u)) : RequestsOnly s u := by
  have hmatrix : RequestsOnly s (matrixServed s) := (RequestsOnly.serveMatrix _ _ _).trans (.serveMatrix _ _ _)
  unfold Machine.takeServed at h
  extract_lets m at h
  unfold takeOutstanding at h
  cases hfind : m.mem.outstanding.find? (fun o => o.access.src == src && o.access.write == write) with
  | none => simp [hfind] at h
  | some o' =>
    simp only [hfind] at h
    split at h
    · obtain ⟨-, rfl⟩ := Prod.mk.inj h
      exact hmatrix.trans rfl
    · exact absurd (congrArg Prod.fst h) (by simp)

theorem RequestsOnly.bytes {s t : State} (h : RequestsOnly s t) : t.mem.bytes = s.mem.bytes := by rw [h]
theorem RequestsOnly.line {s t : State} (h : RequestsOnly s t) (n : Nat) : t.line n = s.line n := by rw [h]; rfl
theorem RequestsOnly.power {s t : State} (h : RequestsOnly s t) : t.power = s.power := by rw [h]
theorem RequestsOnly.memRead {s t : State} (h : RequestsOnly s t) (a n : Nat) : t.memRead a n = s.memRead a n := by rw [h]; rfl

theorem RequestsOnly.changes {s t : State} (h : RequestsOnly s t) : ChangesOnly [.mem] s t := by
  rw [h]
  exact (ChangesOnly.closed _ s).mem (by simp) s _ rfl (.refl _ s)

/-! ### The line of a served request -/

theorem addFlips_zero (n : Nat) (s : State) : addFlips n 0 0 s = s := by simp [addFlips]

/-- A line without errors in a die that is not lost reads its bytes, and the read changes nothing. -/
theorem readLine_of_clean {s : State} {a : Nat} (hline : s.line (a / 64) = {}) (hdies : s.power.diesLost = []) (src : Nat) (scrub : Bool) :
    readLine a src scrub s = (s.memRead (a / 64 * 64) 64, false, s) := by
  simp [readLine, hline, hdies, isCorrectable, isPoisoned]

theorem Closed.noteBatch {K : List Part} {P : State → Prop} (h : Closed K P) (hm : .mem ∈ K) (c : Nat) (s : State) (hs : P s) :
    P (noteBatch c s) := h.setChan hm _ _ _ hs

theorem Closed.openRow {K : List Part} {P : State → Prop} (h : Closed K P) (hm : .mem ∈ K) (c a : Nat) (s : State) (hs : P s) :
    P (openRow c a s) := h.setChan hm _ _ _ hs

theorem Closed.addTraffic {K : List Part} {P : State → Prop} (h : Closed K P) (hm : .mem ∈ K) (c : Nat) (w : Bool) (s : State) (hs : P s) :
    P (addTraffic c w s) := h.setChan hm _ _ _ hs

theorem Closed.injectDram {K : List Part} {P : State → Prop} (h : Closed K P) (hr : .regs ∈ K) (hm : .mem ∈ K) (a : Nat) (s : State)
    (hs : P s) : P (injectDram a s) := closed_ite (h.wr hr _ _ _ (h.setLine hm _ _ _ hs)) hs

/-- `t` has the bytes of memory and the outstanding requests of `s`. -/
structure SameStore (s t : State) : Prop where
  bytes : t.mem.bytes = s.mem.bytes
  outstanding : t.mem.outstanding = s.mem.outstanding

theorem SameStore.setChan (s : State) (c : Nat) (o : ChanState) : SameStore s (s.setChan c o) := ⟨rfl, rfl⟩

theorem SameStore.setLine (s : State) (n : Nat) (o : LineErr) : SameStore s (s.setLine n o) := ⟨rfl, rfl⟩

theorem SameStore.send (s : State) (m : Sent) : SameStore s (s.send m) := ⟨rfl, rfl⟩

theorem SameStore.trans {s t u : State} (h : SameStore s t) (k : SameStore t u) : SameStore s u :=
  ⟨k.bytes.trans h.bytes, k.outstanding.trans h.outstanding⟩

theorem SameStore.of_mem {s t : State} (h : t.mem = s.mem) : SameStore s t := by constructor <;> rw [h]

theorem SameStore.injectDram (a : Nat) (s : State) : SameStore s (injectDram a s) :=
  closed_ite ((SameStore.setLine _ _ _).trans (.of_mem (State.wr_mem _ _ _))) (.of_mem rfl)

/-! ### DRAM_WRITE -/

/-- The write of a served request has reached its bank. -/
def writeArrived (src : Nat) (o : Outstanding) (s : State) : State :=
  chkLine 7 src (some o.access.bytes)
    (openRow (channelOf s o.access.addr) o.access.addr (addTraffic (channelOf s o.access.addr) true s))

theorem writeArrived_mem (src : Nat) (o : Outstanding) (s : State) : SameStore s (writeArrived src o s) :=
  ((SameStore.setChan _ _ _).trans (.setChan _ _ _)).trans (.of_mem (chkLine_mem _ _ _ _))

theorem writeArrived_line (src : Nat) (o : Outstanding) (s : State) (n : Nat) : (writeArrived src o s).line n = s.line n := by
  rw [State.line, writeArrived, chkLine_mem]
  rfl

theorem chkLine_power (point src : Nat) (line : Option (List Byte)) (s : State) : (chkLine point src line s).power = s.power :=
  chkLine_changes point src line s .power (by decide)

theorem writeArrived_power (src : Nat) (o : Outstanding) (s : State) : (writeArrived src o s).power = s.power :=
  chkLine_power _ _ _ _

/-- A write to a line without errors stores its bytes, whether it is of a whole line or merged after a read (R330). -/
theorem dramWrite_of_clean {s u : State} {src : Nat} {o : Outstanding} (h : takeServed src true s = (some o, u))
    (hcolour : o.colour = false) (hline : u.line (o.access.addr / 64) = {}) (hdies : u.power.diesLost = []) :
    dramWrite src 0 0 s = noteBatch (channelOf u o.access.addr) (injectDram o.access.addr
      (((writeArrived src o u).memWrite o.access.addr o.access.bytes).setLine (o.access.addr / 64) {})) := by
  have hread := readLine_of_clean ((writeArrived_line src o u _).trans hline)
    ((congrArg PowerState.diesLost (writeArrived_power src o u)).trans hdies) src false
  unfold dramWrite
  simp only [h, hcolour, Bool.false_and, Bool.false_eq_true, if_false, addFlips_zero]
  split
  · rfl
  · unfold writeArrived at hread
    rw [hread]
    rfl

theorem dramWrite_stores (s : State) (src : Nat) (o : Outstanding) (u : State) (hsrc : src < 161)
    (h : takeServed src true s = (some o, u)) (hcolour : o.colour = false) (hline : s.line (o.access.addr / 64) = {})
    (hdies : s.power.diesLost = []) : ∃ t, exec (.dramWrite src 0 0) s = .next t ∧
      t.mem.bytes = storeCells s.mem.bytes o.access.addr o.access.bytes ∧ t.mem.outstanding = u.mem.outstanding ∧
      ChangesOnly (queueParts ++ [.bytes, .mem, .chk]) s t := by
  refine ⟨_, exec_of_wf (decide_eq_true hsrc) rfl, ?_⟩
  have hreq := RequestsOnly.takeServed h
  rw [dramWrite_of_clean h hcolour ((hreq.line _).trans hline) ((congrArg PowerState.diesLost hreq.power).trans hdies)]
  have harrived := writeArrived_mem src o u
  have hend (v : State) : SameStore v (noteBatch (channelOf u o.access.addr) (injectDram o.access.addr
      (v.setLine (o.access.addr / 64) {}))).flushEvents :=
    (((SameStore.setLine _ _ _).trans (.injectDram _ _)).trans (.setChan _ _ _)).trans (.of_mem (State.flushEvents_mem _))
  refine ⟨?_, (hend _).outstanding.trans harrived.outstanding, ?_⟩
  · rw [(hend _).bytes, ← hreq.bytes, ← harrived.bytes]
    rfl
  · have hc := ChangesOnly.closed (queueParts ++ [.bytes, .mem, .chk]) s
    have h1 : ChangesOnly (queueParts ++ [.bytes, .mem, .chk]) s (writeArrived src o u) :=
      hc.chkLine (by simp) _ _ _ (.inr (by simp)) _ (hc.openRow (by simp) _ _ _ (hc.addTraffic (by simp) _ _ _
        (hreq.changes.mono (by simp))))
    exact (hc.noteBatch (by simp) _ _ (hc.injectDram (by simp) (by simp) _ _ (hc.setLine (by simp) _ _ _
      (hc.store (by simp) _ _ _ (.inl (by simp)) h1)))).queue (.flushEvents _) (by simp)

/-! ### DRAM_READ -/

theorem overQueued_setChan (s : State) (c : Nat) (o : ChanState) (a : Nat) (bs : List Byte) :
    overQueued (s.setChan c o) a bs = overQueued s a bs := rfl

/-- The read of a served request has reached its bank, or the write queue, which holds its whole line. -/
def readArrived (o : Outstanding) (s : State) : State :=
  if (overQueued s o.access.addr []).2 then addTraffic (channelOf s o.access.addr) false s
  else openRow (channelOf s o.access.addr) o.access.addr (addTraffic (channelOf s o.access.addr) false s)

/-- The bytes that a read of a line without errors delivers. -/
def readBytes (o : Outstanding) (s : State) : List Byte :=
  (overQueued s o.access.addr (s.memRead (o.access.addr / 64 * 64) 64)).1

theorem dramRead_of_clean {respond : Nat → Nat → State → State} {s u : State} {src : Nat} {o : Outstanding}
    (h : takeServed src false s = (some o, u)) (hcolour : o.colour = false) (hline : u.line (o.access.addr / 64) = {})
    (hdies : u.power.diesLost = []) : dramRead respond src 0 0 s = noteBatch (channelOf u o.access.addr)
      ((chkLine 8 src (some (readBytes o u)) (readArrived o u)).send (.readData src o.access.addr (readBytes o u) false)) := by
  have hread := readLine_of_clean (s := openRow (channelOf u o.access.addr) o.access.addr
    (addTraffic (channelOf u o.access.addr) false u)) hline hdies src false
  have hwhole : overQueued (addTraffic (channelOf u o.access.addr) false u) o.access.addr [] = overQueued u o.access.addr [] := rfl
  unfold dramRead
  simp only [h, hcolour, Bool.false_and, Bool.false_eq_true, if_false, addFlips_zero, hwhole]
  by_cases hq : (overQueued u o.access.addr []).2 = true
  · simp only [hq, if_true, readArrived]
    rfl
  · simp only [hq, readArrived, hread]
    rfl

theorem dramRead_delivers (s : State) (src : Nat) (o : Outstanding) (u : State) (hsrc : src < 161)
    (h : takeServed src false s = (some o, u)) (hcolour : o.colour = false) (hline : s.line (o.access.addr / 64) = {})
    (hdies : s.power.diesLost = []) : ∃ t, exec (.dramRead src 0 0) s = .next t ∧
      Sent.readData src o.access.addr (overQueued u o.access.addr (s.memRead (o.access.addr / 64 * 64) 64)).1 false ∈ t.sent ∧
      t.mem.outstanding = u.mem.outstanding ∧ ChangesOnly (queueParts ++ [.mem, .chk]) s t := by
  refine ⟨_, exec_of_wf (decide_eq_true hsrc) rfl, ?_⟩
  have hreq := RequestsOnly.takeServed h
  rw [dramRead_of_clean h hcolour ((hreq.line _).trans hline) ((congrArg PowerState.diesLost hreq.power).trans hdies),
    ← hreq.memRead]
  have harrived : SameStore u (readArrived o u) := closed_ite (.setChan _ _ _) ((SameStore.setChan _ _ _).trans (.setChan _ _ _))
  have hc := ChangesOnly.closed (queueParts ++ [.mem, .chk]) s
  have h1 : ChangesOnly (queueParts ++ [.mem, .chk]) s (readArrived o u) := by
    have htraffic := hc.addTraffic (by simp) (channelOf u o.access.addr) false _ (hreq.changes.mono (by simp))
    exact closed_ite htraffic (hc.openRow (by simp) _ _ _ htraffic)
  refine ⟨sent_flushEvents ((sent_closed [.mem] _).noteBatch (by simp) _ _ (sent_send _ _)), ?_, ?_⟩
  · have hchecked := harrived.trans (.of_mem (chkLine_mem 8 src (some (readBytes o u)) _))
    rw [State.flushEvents_mem]
    exact ((hchecked.trans (.send _ _)).trans (.setChan _ _ _)).outstanding
  · exact (hc.noteBatch (by simp) _ _ (hc.send (by simp) _ _ (hc.chkLine (by simp) _ _ _ (.inr (by simp)) _ h1))).queue
      (.flushEvents _) (by simp)

end Sys2Proof.Machine

/-!
PROOFS. The patrol scrubber (R329, R333): the log of a fault that asks for no action, and the step to the channel's next line.
-/
namespace Sys2Proof.Machine

/-! ### A fault that asks for no withdrawal is logged -/

theorem Closed.raiseAll {K : List Part} {P : State → Prop} (h : Closed K P) (hv : .evq ∈ K) (evs : List (Nat × Nat)) (s : State)
    (hs : P s) : P (raiseAll evs s) := closed_foldl (fun _ _ ht => h.raise hv _ _ _ ht) hs

section
variable {K : List Part} {P : State → Prop} (h : Closed K P) (hr : .regs ∈ K) (hv : .evq ∈ K) (hc : .comp ∈ K) (hf : .faults ∈ K)
include h hr hf

theorem Closed.writeRecord (hc : .comp ∈ K) (code level object action st : Nat) (prev : Option Nat) (injected : Bool) (s : State)
    (hs : P s) : P (writeRecord code level object action st prev injected s).2.2 := by
  have w (t : State) (f : Fld) (v : Nat) (ht : P t) : P (t.wr f v) := h.wr hr t f v ht
  unfold Machine.writeRecord
  extract_lets wr slot used unread full s1 s2 s3 s4 s5 s6 s7 s8 s9 s10 fs s11
  have h3 : P s3 := by
    have h2 : P s2 := w _ _ _ (w _ _ _ hs)
    exact closed_ite (w _ _ _ (w _ _ _ (w _ _ _ h2))) h2
  have h6 : P s6 := w _ _ _ (w _ _ _ (w _ _ _ (w _ _ _ (w _ _ _ h3))))
  have h9 : P s9 := w _ _ _ (w _ _ _ (w _ _ _ (w _ _ _ (w _ _ _ (w _ _ _ h6)))))
  have h11 : P s11 := h.faults hf _ _ (h.setFrec hf _ _ _ h9)
  clear_value s11
  exact h.setRecState hr hf (.inr hc) h11

theorem Closed.stopCues_nil (i : Nat) (tnt : Bool) (s : State) (hs : P s) : P (stopCues i [] tnt s).2 :=
  h.wr hr _ _ _ (h.wr hr _ _ _ (h.setFrec hf _ _ _ hs))

include hv hc


/-- A fault whose built-in action withdraws nothing is folded into an open record or queued; it escalates none and stops no cue. -/
theorem Closed.detect_of_noAction {code : Nat} (hact : builtinAction code ∉ [1, 2, 6]) (level object : Nat) (injected : Bool)
    (s : State) (hs : P s) : P (detect code level object injected s) := by
  have hunits : unitsOf (builtinAction code) level object = [] := by
    simp only [List.mem_cons, List.not_mem_nil, or_false, not_or] at hact
    obtain ⟨h1, h2, h6⟩ := hact
    rw [unitsOf, if_neg h1, if_neg h2, if_neg h6]
  unfold Machine.detect
  extract_lets a opens
  split
  · exact h.raiseAll hv _ _ (h.writeRecord hr hf hc _ _ _ _ _ _ _ _ hs)
  · split
    next i hi =>
      have := List.find?_some hi
      simp [a, hact] at this
    next =>
      rw [hunits]
      exact h.raiseAll hv _ _ (h.stopCues_nil hr hf _ _ _ (h.writeRecord hr hf hc _ _ _ _ _ _ _ _ hs))

theorem Closed.checkLost (s : State) (hs : P s) : P (checkLost s) :=
  closed_foldl (fun _ _ ht => closed_ite (h.setFrect hc _ _ _
    (h.detect_of_noAction hr hv hc hf (by decide) _ _ _ _ (h.setFrect hc _ _ _ ht))) ht) hs

theorem Closed.logFault_of_noAction {code : Nat} (hact : builtinAction code ∉ [1, 2, 6]) (level object : Nat) (injected : Bool)
    (s : State) (hs : P s) : P (logFault code level object injected s) :=
  h.checkLost hr hv hc hf _ (h.detect_of_noAction hr hv hc hf hact _ _ _ _ hs)

end

/-! ### SCRUB_READ -/

/-- What changes no part of the memory block leaves the channels. -/
theorem ChangesOnly.chan {K : List Part} {s t : State} (h : ChangesOnly K s t) (hK : .mem ∉ K) (c : Nat) : t.chan c = s.chan c := by
  have hmem : ({ t.mem with bytes := [] } : MemState).chans = ({ s.mem with bytes := [] } : MemState).chans :=
    congrArg MemState.chans (h .mem hK)
  exact congrArg (fun x => Tab.get (fun _ => ({} : ChanState)) x c) hmem

/-- The parts that a fault without an action changes where it is logged. -/
abbrev logParts : List Part := queueParts ++ [.comp, .faults]

theorem reportUe_changes (c a src : Nat) (scrub : Bool) (s : State) : ChangesOnly logParts s (reportUe c a src scrub s) := by
  have h := ChangesOnly.closed logParts s
  unfold reportUe recordError
  extract_lets inj s1 s2 s3 s4 s5
  have w (t : State) (f : Fld) (v : Nat) (ht : ChangesOnly logParts s t) := h.wr (by simp) t f v ht
  have h5 : ChangesOnly logParts s s5 := w _ _ _ (w _ _ _ (w _ _ _ (w _ _ _ (w _ _ _ (.refl _ s)))))
  clear_value s5
  exact closed_ite h5 (h.raiseOnce (by simp) _ _ _ (h.logFault_of_noAction (by simp) (by simp) (by simp) (by simp) (by decide) _ _ _ _ h5))

/-- The scrubber of channel `c` goes on at line `n`, and only the parts in `K` have changed since `s`. -/
def ScrubbedTo (K : List Part) (c n : Nat) (s t : State) : Prop := (t.chan c).scrubLine = n ∧ ChangesOnly K s t

section
variable {K : List Part} {c n : Nat} {s t u : State}

theorem ScrubbedTo.outside {L : List Part} (h : ScrubbedTo K c n s t) (hu : ChangesOnly L t u) (hL : .mem ∉ L) (hLK : L ⊆ K) :
    ScrubbedTo K c n s u := ⟨by rw [hu.chan hL]; exact h.1, h.2.trans (hu.mono hLK)⟩

theorem ScrubbedTo.setLine (h : ScrubbedTo K c n s t) (hK : .mem ∈ K) (i : Nat) (o : LineErr) : ScrubbedTo K c n s (t.setLine i o) :=
  ⟨h.1, (ChangesOnly.closed K s).setLine hK _ _ _ h.2⟩

theorem ScrubbedTo.setChan (h : ScrubbedTo K c n s t) (hK : .mem ∈ K) (i : Nat) (o : ChanState)
    (ho : o.scrubLine = (t.chan i).scrubLine) : ScrubbedTo K c n s (t.setChan i o) := by
  refine ⟨?_, (ChangesOnly.closed K s).setChan hK _ _ _ h.2⟩
  rw [State.setChan_chan]
  split
  next hci => rw [ho, ← hci]; exact h.1
  next => exact h.1

theorem ScrubbedTo.addFlips (h : ScrubbedTo K c n s t) (hK : .mem ∈ K) (i f0 f1 : Nat) : ScrubbedTo K c n s (addFlips i f0 f1 t) :=
  closed_ite h (h.setLine hK _ _)

theorem ScrubbedTo.correctLine (h : ScrubbedTo K c n s t) (hm : .mem ∈ K) (hq : queueParts ⊆ K) (d a src : Nat) (scrub : Bool) :
    ScrubbedTo K c n s (correctLine d a src scrub t) := by
  unfold Machine.correctLine recordError
  extract_lets s1 s2 s3 s4 s5 s6 ch s7
  have h1 : ScrubbedTo K c n s s1 := closed_ite (h.setLine hm _ _) h
  have h6 : ScrubbedTo K c n s s6 := by
    have w (v : State) (f : Fld) (x : Nat) (hv : ChangesOnly queueParts s1 v) := (ChangesOnly.closed _ s1).wr (by simp) v f x hv
    exact h1.outside (w _ _ _ (w _ _ _ (w _ _ _ (w _ _ _ (w _ _ _ (.refl _ s1)))))) (by simp) hq
  clear_value s6
  have h7 : ScrubbedTo K c n s s7 := h6.setChan hm _ _ rfl
  exact closed_ite (h7.outside (QueueOnly.raiseOnce _ _ _).same (by simp) hq) h7

theorem ScrubbedTo.readLine (h : ScrubbedTo K c n s t) (hm : .mem ∈ K) (hl : logParts ⊆ K) (a src : Nat) (scrub : Bool) :
    ScrubbedTo K c n s (readLine a src scrub t).2.2 := by
  unfold Machine.readLine
  extract_lets base e bs
  split
  · exact h
  split
  · exact h.outside (reportUe_changes _ _ _ _ _) (by simp) hl
  split
  · exact h.correctLine hm (List.Subset.trans (by simp) hl) _ _ _ _
  · exact h

end

/-- The line that the scrubber of a channel reads after its present one. -/
def nextScrub (s : State) (c : Nat) : Nat := if dataLines s c ≤ (s.chan c).scrubLine + 1 then 0 else (s.chan c).scrubLine + 1

theorem scrubRead_steps (s : State) (c f0 f1 : Nat) (hc : c < 24) (hon : s.rdb R.HRT_SCRUB_ENABLE = true)
    (hfit : bitOf (s.rd R.HRT_CFG_FITTED) c = true) (hnow : s.tick.current.any (·.deferScrub) = false) :
    ∃ t, exec (.scrubRead c f0 f1) s = .next t ∧ (t.chan c).scrubLine = nextScrub s c ∧
      ChangesOnly (queueParts ++ [.mem, .comp, .faults, .power]) s t := by
  refine ⟨_, exec_of_wf (decide_eq_true hc) rfl, ?_⟩
  have hstep : ScrubbedTo (queueParts ++ [.mem, .comp, .faults, .power]) c (nextScrub s c) s
      (s.setChan c { s.chan c with scrubLine := nextScrub s c }) := by
    refine ⟨by rw [State.setChan_chan, if_pos rfl], ?_⟩
    exact (ChangesOnly.closed _ s).setChan (by simp) _ _ _ (.refl _ s)
  have hread : ScrubbedTo (queueParts ++ [.mem, .comp, .faults, .power]) c (nextScrub s c) s (scrubRead c f0 f1 s) := by
    unfold scrubRead
    rw [if_pos (by simp [hon, hfit, hnow])]
    extract_lets ch next at_ s1
    clear_value at_
    rcases at_ with - | a
    · exact hstep
    · exact (hstep.addFlips (by simp) _ _ _).readLine (by simp) (by simp) _ _ _
  exact hread.outside (QueueOnly.flushEvents _).same (by simp) (by simp)

/-- Settles O37, access by access. -/
theorem hearthAccesses : Obligations.HearthAccesses := by
  unfold Obligations.HearthAccesses
  exact ⟨accessCheck_dram, accessCheck_sramWrite, accessCheck_wordRead, accessCheck_refusedWrite, dramWrite_stores, dramRead_delivers,
    scrubRead_steps⟩

end Sys2Proof.Machine

/-!
PROOFS. Package faults (R248, R253, R273): a declaration shows in both status registers, and the tile table that it clears, its counts
and the notice to the other packages leave them so. A region whose supply is out 1 ms after its reset is given up (R246).
-/
namespace Sys2Proof.Machine

/-! ### A package fault is declared (R248) -/

/-- The field lies outside the tile table and outside the FRS block, which counts its tiles. -/
abbrev NotTile (g : Fld) : Prop := g.addr < 0x90000 ∨ (0xA0000 ≤ g.addr ∧ g.addr < 0x400000) ∨ 0x800000 ≤ g.addr

theorem countStates_rd {f : Nat} (hf : f < 24) {g : Fld} (hg : NotTile g) (sh : Sheet) (s : State) :
    (countStates sh f s).rd g = s.rd g := by
  have hzero : g.addr ≠ 0x090108 + 0x10 * f := by omega
  have hone : g.addr ≠ 0x09010C + 0x10 * f := by omega
  unfold countStates
  extract_lets n
  rw [State.rd_wr_elsewhere _ (f := R.FRS_FLUE_COUNT1_FROZEN f) _ hone,
    State.rd_wr_elsewhere _ (f := R.FRS_FLUE_COUNT1_CONCEALED f) _ hone,
    State.rd_wr_elsewhere _ (f := R.FRS_FLUE_COUNT0_HELD f) _ hzero,
    State.rd_wr_elsewhere _ (f := R.FRS_FLUE_COUNT0_EMBER f) _ hzero]

/-- A notice waits on the up links: no register tells of it. -/
theorem wardenNotice_rd (kind cause : Nat) (s : State) (g : Fld) : (wardenNotice kind cause s).rd g = s.rd g :=
  closed_foldl (P := fun t => t.rd g = s.rd g) (fun _ _ ht => ht) rfl

/-- The tile table with zeros in every entry, and its counts. -/
def clearTiles (s : State) : State :=
  let s := { s with regs := s.regs.filter fun p => decide (p.1 < 0x400000) || decide (0x800000 ≤ p.1) }
  (List.range 24).foldl (fun s f => countStates { regs := s.regs } f s) s

theorem clearTiles_rd {g : Fld} (hg : NotTile g) (s : State) : (clearTiles s).rd g = s.rd g := by
  refine closed_foldl_mem (P := fun t => t.rd g = s.rd g)
    (fun t f hf ht => (countStates_rd (List.mem_range.mp hf) hg _ t).trans ht) ?_
  have hkept : g.addr < 0x400000 ∨ 0x800000 ≤ g.addr := by omega
  exact congrArg (fun x : Word => bits x.toNat g.hi g.lo)
    (get_filter resetWord (fun a => decide (a < 0x400000) || decide (0x800000 ≤ a)) s.regs g.addr (by simpa using hkept))

/-- The two registers that show a package fault, written. -/
def faultShown (s : State) : State := (s.wr R.WDN_STATUS_PKG_FAULT 1).wr R.PWR_STATUS_PKG_FAULT 1

theorem declareFault_of_none {s : State} (h : s.rdb R.WDN_STATUS_PKG_FAULT = false) (queueWorks : Bool) (c : Nat) :
    declareFault queueWorks c s = wardenNotice 1 c (clearTiles ((faultShown s).when queueWorks (·.raise 0x0908 c))) := by
  rw [declareFault, h]
  rfl

theorem declareFault_rd {s : State} (h : s.rdb R.WDN_STATUS_PKG_FAULT = false) (queueWorks : Bool) (c : Nat)
    {g : Fld} (hg : NotTile g) : (declareFault queueWorks c s).rd g = (faultShown s).rd g := by
  rw [declareFault_of_none h, wardenNotice_rd, clearTiles_rd hg]
  exact closed_when (P := fun t => t.rd g = (faultShown s).rd g) (fun _ => State.raise_rd _ _ _ _) rfl

theorem faultShown_rd (s : State) :
    (faultShown s).rd R.WDN_STATUS_PKG_FAULT = 1 ∧ (faultShown s).rd R.PWR_STATUS_PKG_FAULT = 1 := by
  constructor
  · rw [faultShown, State.rd_wr_apart _ _ _ _ (by decide) (by decide), State.rd_wr _ _ _ (by decide)]
    rfl
  · rw [faultShown, State.rd_wr _ _ _ (by decide)]
    rfl

/-- After the declaration the Warden shows a package fault; and the power controller does where none was declared before. -/
theorem declareFault_shows (queueWorks : Bool) (c : Nat) (s : State) :
    (declareFault queueWorks c s).rdb R.WDN_STATUS_PKG_FAULT = true ∧
      (s.rdb R.WDN_STATUS_PKG_FAULT = false → (declareFault queueWorks c s).rdb R.PWR_STATUS_PKG_FAULT = true) := by
  by_cases h : s.rdb R.WDN_STATUS_PKG_FAULT = true
  · have hsame : declareFault queueWorks c s = s := if_pos h
    exact ⟨by rw [hsame, h], fun hnone => by rw [h] at hnone; cases hnone⟩
  · rw [Bool.not_eq_true] at h
    obtain ⟨hwdn, hpwr⟩ := faultShown_rd s
    unfold State.rdb
    rw [declareFault_rd h _ _ (by decide), declareFault_rd h _ _ (by decide), hwdn, hpwr]
    exact ⟨rfl, fun _ => rfl⟩

/-- A field that a declaration leaves alone. -/
theorem declareFault_keeps {g : Fld} (hg : NotTile g) (hwdn : FldApart R.WDN_STATUS_PKG_FAULT g)
    (hpwr : FldApart R.PWR_STATUS_PKG_FAULT g) (queueWorks : Bool) (c : Nat) (s : State) :
    (declareFault queueWorks c s).rd g = s.rd g := by
  by_cases h : s.rdb R.WDN_STATUS_PKG_FAULT = true
  · have hsame : declareFault queueWorks c s = s := if_pos h
    rw [hsame]
  · rw [Bool.not_eq_true] at h
    rw [declareFault_rd h _ _ hg, faultShown, State.rd_wr_apart _ _ _ _ (by decide) hpwr,
      State.rd_wr_apart _ _ _ _ (by decide) hwdn]

@[simp] theorem State.flushEvents_rdb (s : State) (f : Fld) (hf : queueOffset f.addr = false) : s.flushEvents.rdb f = s.rdb f := by
  unfold State.rdb; rw [State.flushEvents_rd _ _ hf]

theorem faultRecordTimeout_declares (s : State) (hdue : s.faults.openRecs.any (timedOut s) = true)
    (hnone : s.rdb R.WDN_STATUS_PKG_FAULT = false) : ∃ t, exec .faultRecordTimeout s = .next t ∧
      t.rdb R.WDN_STATUS_PKG_FAULT = true ∧ t.rdb R.PWR_STATUS_PKG_FAULT = true := by
  refine ⟨_, exec_of_wf rfl rfl, ?_⟩
  obtain ⟨hwdn, hpwr⟩ := declareFault_shows (s.powered 1) 5 s
  rw [faultRecordTimeout, if_pos hdue, State.flushEvents_rdb _ _ (by decide), State.flushEvents_rdb _ _ (by decide)]
  exact ⟨hwdn, hpwr hnone⟩

/-- THERMTRIP_N asserted, and its cause kept over the reset (R273). -/
def tripShown (s : State) : State := (s.wr R.PWR_STATUS_THERMTRIP 1).wr R.PWR_RST_CAUSE_THERMTRIP 1

theorem tripShown_rd (s : State) :
    (tripShown s).rd R.PWR_STATUS_THERMTRIP = 1 ∧ (tripShown s).rd R.PWR_RST_CAUSE_THERMTRIP = 1 := by
  constructor
  · rw [tripShown, State.rd_wr_apart _ _ _ _ (by decide) (by decide), State.rd_wr _ _ _ (by decide)]
    rfl
  · rw [tripShown, State.rd_wr _ _ _ (by decide)]
    rfl

theorem thermtrip_declares (s : State) (k : Nat) (hk : k < 24) : ∃ t, exec (.thermtrip k) s = .next t ∧
    t.rdb R.PWR_STATUS_THERMTRIP = true ∧ t.rdb R.PWR_RST_CAUSE_THERMTRIP = true ∧ t.rdb R.WDN_STATUS_PKG_FAULT = true := by
  refine ⟨_, exec_of_wf (decide_eq_true hk) rfl, ?_⟩
  have htrip : thermTrip k s = declareFault ((tripShown s).powered 1) 2 (tripShown s) := rfl
  obtain ⟨hstatus, hcause⟩ := tripShown_rd s
  rw [htrip, State.flushEvents_rdb _ _ (by decide), State.flushEvents_rdb _ _ (by decide), State.flushEvents_rdb _ _ (by decide)]
  refine ⟨?_, ?_, (declareFault_shows _ _ _).1⟩
  · rw [State.rdb, declareFault_keeps (by decide) (by decide) (by decide), hstatus]
    rfl
  · rw [State.rdb, declareFault_keeps (by decide) (by decide) (by decide), hcause]
    rfl

theorem evqStagingUe_declares (s : State) : ∃ t, exec .evqStagingUe s = .next t ∧ t.rdb R.WDN_STATUS_PKG_FAULT = true ∧
    (s.rdb R.WDN_STATUS_PKG_FAULT = false → t.rdb R.PWR_STATUS_PKG_FAULT = true) := by
  refine ⟨_, exec_of_wf rfl rfl, ?_⟩
  rw [State.flushEvents_rdb _ _ (by decide), State.flushEvents_rdb _ _ (by decide)]
  exact declareFault_shows _ 4 { s with freeCount := s.freeCount + 1 }

/-! ### A region that stays unpowered (R246) -/

section
variable {K : List Part} {P : State → Prop} {s : State} {r : Nat}

theorem Closed.unpowerRegion (h : Closed K P) (hr : .regs ∈ K) (hc : .comp ∈ K) (hf : .faults ∈ K) (hp : .power ∈ K) (hs : P s) :
    P (unpowerRegion r s) := by
  have w {t : State} (f : Fld) (v : Nat) (ht : P t) : P (t.wr f v) := h.wr hr t f v ht
  unfold Machine.unpowerRegion
  extract_lets d p s1 s2 s3
  have h2 : P s2 := w _ _ (w _ _ hs)
  have h3 : P s3 := closed_foldl (fun _ _ ht => h.setUnit hc _ _ _ ht) h2
  clear_value s3
  have h4 := h.power_faults hp hf s3 { p with switching := p.switching.erase d, failedOff := d :: p.failedOff.erase d }
    { s3.faults with
      deadRegions := r :: s3.faults.deadRegions.erase r
      resets := s3.faults.resets.map fun x => if x.region = r then { x with powered := false } else x } h3
  exact w _ _ (w _ _ (w _ _ h4))

/-- The switch of domain `d` is off, and what follows in the same register says so. -/
theorem powered_setBit_off {d : Nat} (hd : d ≤ 16) (s : State) (v : Nat) :
    ((setBit R.PWR_STATUS_POWERED d false s).wr R.PWR_STATUS_SEQ_BUSY v).powered d = false := by
  rw [State.powered, State.rd_wr_apart _ _ _ _ (by decide) (by decide)]
  exact bitOf_setBit_same s (by decide) (by simpa [R.PWR_STATUS_POWERED] using hd) false

theorem refreshHier_powered (d : Nat) (s : State) : (refreshHier s).powered d = s.powered d := by
  unfold State.powered; rw [refreshHier_rd_elsewhere (by decide)]

theorem powerFaults_powered (s : State) (p : PowerState) (o : FaultState) (d : Nat) :
    State.powered { s with power := p, faults := o } d = s.powered d := rfl

theorem unpowerRegion_powered (hr : r < 4) (s : State) : (unpowerRegion r s).powered (regionDomain r) = false := by
  have hd : regionDomain r ≤ 16 := by revert r; decide
  unfold unpowerRegion
  extract_lets d p s1 s2 s3
  have h2 : s2.powered d = false := powered_setBit_off hd s _
  have h3 : s3.powered d = false := closed_foldl (P := fun t => t.powered d = false) (fun _ _ ht => ht) h2
  clear_value s3
  exact (refreshHier_powered d _).trans ((powerFaults_powered s3 _ _ d).trans h3)

theorem unpowerRegion_dead (r : Nat) (s : State) : r ∈ (unpowerRegion r s).faults.deadRegions := List.mem_cons_self

theorem regionResetCheck_unpowers (s : State) (r : Nat) (x : RegionReset) (hr : r < 4)
    (hreset : s.faults.resets.find? (·.region == r) = some x) (hdue : x.atNs + 1000000 ≤ s.monoNs)
    (hout : regionMonitorOut s r = true) : ∃ t, exec (.regionResetCheck r) s = .next t ∧
      t.powered (regionDomain r) = false ∧ r ∈ t.faults.deadRegions ∧
      ChangesOnly [.regs, .evq, .sent, .faults, .power, .comp] s t := by
  refine ⟨_, exec_of_wf (decide_eq_true hr) rfl, ?_⟩
  have hdead : regionResetCheck r s = unpowerRegion r s := by simp [regionResetCheck, hreset, hdue, hout]
  rw [hdead]
  refine ⟨?_, ?_, ?_⟩
  · rw [State.powered, State.flushEvents_rd _ _ (by decide)]
    exact unpowerRegion_powered hr s
  · rw [State.flushEvents_faults]
    exact unpowerRegion_dead r s
  · have h := ChangesOnly.closed [.regs, .evq, .sent, .faults, .power, .comp] s
    exact (h.unpowerRegion (by simp) (by simp) (by simp) (by simp) (.refl _ s)).queue (.flushEvents _) (by simp)

end

/-- Settles O27: the three causes declare a package fault, which both status registers show, and the check of a region whose supply
is still out gives it up. -/
theorem packageFaults : Obligations.PackageFaults := by
  unfold Obligations.PackageFaults
  exact ⟨faultRecordTimeout_declares, thermtrip_declares, evqStagingUe_declares, regionResetCheck_unpowers⟩

end Sys2Proof.Machine

/-!
PROOFS. The detections (R230 to R233): a fault that no open record has to do with is written at the log's write pointer, and the record
stands through the stop of the cues, through the lost rectangles where none is live, and while another record is written.
-/
namespace Sys2Proof.Machine

/-! ### What the stop of cues leaves alone -/

/-- `P` survives all that the stop of a cue does: writes of registers outside the log, events, changes of the composition, of the
sheet being built and of memory, and what a record keeps beside its registers. -/
structure StopKeeps (P : State → Prop) : Prop where
  wr : ∀ {s : State} {f : Fld} {v : Nat}, P s → f.addr < 0xC1000 ∨ 0xC2000 ≤ f.addr → P (s.wr f v)
  raise : ∀ {s : State} {c o : Nat}, P s → P (s.raise c o)
  comp : ∀ {s : State} {o : CompState}, P s → P { s with comp := o }
  building : ∀ {s : State} {o : Option Sheet}, P s → P { s with tick := { s.tick with building := o } }
  memWrite : ∀ {s : State} {a : Nat} {bs : List Byte}, P s → P (s.memWrite a bs)
  setFrec : ∀ {s : State} {i : Nat} {o : RecState}, P s → P (s.setFrec i o)

section
variable {P : State → Prop} (hP : StopKeeps P) {s : State}
include hP

theorem StopKeeps.setUnit {u : Nat} {o : UnitState} (hs : P s) : P (s.setUnit u o) := hP.comp hs

theorem StopKeeps.modFrame {f serial : Nat} {g : FrameRun → FrameRun} (hs : P s) : P (modFrame f serial g s) := hP.comp hs

theorem StopKeeps.tileWord {i j v : Nat} (hs : P s) : P (s.wr (R.TILE_WORD i j) v) :=
  hP.wr hs (.inr (by simp only [R.TILE_WORD]; omega))

theorem StopKeeps.writeEntry {i gen : Nat} {e : TileEval} {badge : Bool} (hs : P s) : P (writeEntry i gen e badge none s) := by
  unfold Machine.writeEntry
  refine closed_ite ?_ ?_
  · exact hP.tileWord (hP.tileWord (hP.tileWord (hP.tileWord hs)))
  · exact hP.tileWord (hP.tileWord (hP.tileWord hs))

theorem StopKeeps.reviseTile {f serial n : Nat} {ctx : TileCtx} (hs : P s) : P (reviseTile f serial n ctx s) := by
  unfold Machine.reviseTile
  split
  · exact hs
  · exact hP.writeEntry (hP.modFrame hs)

theorem StopKeeps.writeSig {f serial n sig : Nat} (hs : P s) : P (writeSig f serial n sig s) := by
  unfold Machine.writeSig
  split
  · exact hs
  · exact closed_ite hs (hP.tileWord (hP.modFrame hs))

theorem StopKeeps.countStates {sh : Sheet} {f : Nat} (hf : f < 24) (hs : P s) : P (countStates sh f s) := by
  have hcount (j : Nat) (hj : j < 16) : 0x090100 + j + 0x10 * f < 0xC1000 := by omega
  unfold Machine.countStates
  extract_lets n
  have h0 := hP.wr (f := R.FRS_FLUE_COUNT0_HELD f) (v := n 2)
    (hP.wr (f := R.FRS_FLUE_COUNT0_EMBER f) (v := n 6) hs (.inl (hcount 8 (by decide)))) (.inl (hcount 8 (by decide)))
  exact hP.wr (hP.wr h0 (.inl (hcount 12 (by decide)))) (.inl (hcount 12 (by decide)))

theorem StopKeeps.reviseHeld {f serial k : Nat} (hf : f < 24) (hs : P s) : P (reviseHeld f serial k s) := by
  unfold Machine.reviseHeld
  split
  · exact hs
  · refine hP.countStates hf (closed_foldl (fun t n ht => ?_) hs)
    split
    · exact hP.reviseTile ht
    · exact hP.writeSig (hP.reviseTile ht)

theorem StopKeeps.holdBandsOf {u : Nat} {taints : Bool} (hs : P s) : P (holdBandsOf u taints s) :=
  closed_foldl_mem (fun _ _ hf h1 => closed_foldl (fun _ _ h2 => closed_foldl (fun _ _ h3 =>
    closed_ite (hP.reviseHeld (List.mem_range.mp hf) (hP.modFrame h3)) h3) h2) h1) hs

theorem StopKeeps.underTile {f serial n : Nat} (hs : P s) : P (underTile f serial s n) := by
  unfold Machine.underTile
  split
  · exact hs
  extract_lets k s1
  have h1 : P s1 := hP.reviseTile hs
  split
  · exact h1
  refine closed_ite h1 ?_
  extract_lets px s2
  have h2 : P s2 := hP.modFrame h1
  split
  · exact h2
  · exact hP.memWrite (closed_foldl (fun _ _ ht => hP.memWrite ht) h2)

theorem StopKeeps.directUnderrun {f : Nat} (hf : f < 24) (hs : P s) : P (directUnderrun f s) := by
  unfold Machine.directUnderrun
  split
  · exact hs
  split
  · exact hs
  extract_lets left s1 s2 key o s3
  have h2 : P s2 := closed_foldl (fun _ _ ht => hP.underTile ht) (hP.modFrame hs)
  have h3 : P s3 := hP.comp h2
  exact hP.raise (hP.countStates hf h3)

theorem StopKeeps.releaseItem {u : Nat} (hs : P s) : P (releaseItem u s) := by
  unfold Machine.releaseItem
  split
  · split
    · exact hP.modFrame hs
    · exact hs
  · exact hs

theorem StopKeeps.endDirectOf {u : Nat} (hs : P s) : P (endDirectOf u s) := by
  unfold Machine.endDirectOf
  refine closed_foldl_mem (fun t f hf ht => hP.directUnderrun ?_ ht) (hP.building hs)
  exact List.mem_range.mp (List.mem_filter.mp hf).1

theorem StopKeeps.stopUnit {taints : Bool} {u : Nat} (hs : P s) : P (stopUnit taints s u) :=
  closed_ite hs (hP.endDirectOf (hP.setUnit (hP.holdBandsOf (hP.releaseItem (hP.setUnit hs)))))

theorem StopKeeps.stopCues {i : Nat} {us : List Nat} {taints : Bool} (hs : P s) : P (stopCues i us taints s).2 := by
  unfold Machine.stopCues
  extract_lets vs begins s1 r
  have h1 : P s1 := closed_foldl (fun _ _ ht => hP.stopUnit ht) hs
  exact hP.wr (hP.wr (hP.setFrec h1) (.inl (by decide))) (.inl (by decide))

theorem StopKeeps.raiseAll {evs : List (Nat × Nat)} (hs : P s) : P (raiseAll evs s) := closed_foldl (fun _ _ ht => hP.raise ht) hs

end

/-! ### A record in the log (R231) -/

/-- The fields of record `i` that say what was detected, and when. -/
abbrev loggedFields (i : Nat) : List Fld :=
  [R.WDN_LOG_W1_CODE i, R.WDN_LOG_W1_LEVEL i, R.WDN_LOG_W1_OBJECT i, R.WDN_LOG_W0_STAMP i]

/-- Record `i` holds a code, a level, an object and a time. -/
structure Logged (i code level object stamp : Nat) (s : State) : Prop where
  code : s.rd (R.WDN_LOG_W1_CODE i) = code
  level : s.rd (R.WDN_LOG_W1_LEVEL i) = level
  object : s.rd (R.WDN_LOG_W1_OBJECT i) = object
  stamp : s.rd (R.WDN_LOG_W0_STAMP i) = stamp

/-- The fields that the writing of record `j` writes besides those that say what was detected. -/
abbrev recordFields (j : Nat) : List Fld :=
  [R.WDN_LOG_PTR_WR, R.WDN_LOG_STAT_UNREAD, R.WDN_LOG_PTR_RD, R.WDN_LOG_STAT_OVERFLOW, R.WDN_LOG_STAT_LOST,
    R.WDN_LOG_W1_ACTION j, R.WDN_LOG_W2_HOLD_NS j, R.WDN_LOG_W2_PREV j, R.WDN_LOG_W2_INJECTED j,
    R.WDN_LOG_W2_HOLD_LONG j, R.WDN_LOG_W3_SEQ j, R.WDN_LOG_W3_DETAIL j] ++ recStateFields j

section
variable {i j code level object stamp : Nat} {s t : State}

theorem Logged.of_rd (h : Logged i code level object stamp s) (ht : ∀ g ∈ loggedFields i, t.rd g = s.rd g) :
    Logged i code level object stamp t where
  code := (ht _ (by simp)).trans h.code
  level := (ht _ (by simp)).trans h.level
  object := (ht _ (by simp)).trans h.object
  stamp := (ht _ (by simp)).trans h.stamp

theorem loggedFields_addr {g : Fld} (hg : g ∈ loggedFields i) : g.addr = 0xC1000 + 0x10 * i ∨
    (g.addr = 0xC1004 + 0x10 * i ∧ 8 ≤ g.lo) := by
  revert g
  simp [R.WDN_LOG_W1_CODE, R.WDN_LOG_W1_LEVEL, R.WDN_LOG_W1_OBJECT, R.WDN_LOG_W0_STAMP]

theorem loggedFields_notQueue {g : Fld} (hg : g ∈ loggedFields i) : queueOffset g.addr = false :=
  queueOffset_above (by rcases loggedFields_addr hg with h | ⟨h, -⟩ <;> omega)

theorem Logged.queue (h : Logged i code level object stamp s) (k : QueueOnly s t) : Logged i code level object stamp t :=
  h.of_rd fun _ hg => k.rd _ (loggedFields_notQueue hg)

theorem Logged.fields {l : List Fld} (h : Logged i code level object stamp s) (k : FieldsOnly l s t)
    (hl : ∀ f ∈ l, ∀ g ∈ loggedFields i, FldApart f g) : Logged i code level object stamp t :=
  h.of_rd fun g hg => k g (fun f hf => hl f hf g hg) (loggedFields_notQueue hg)

theorem Logged.stopKeeps (hi : i < 256) : StopKeeps (Logged i code level object stamp) where
  wr h hf := h.of_rd fun g hg => State.rd_wr_elsewhere _ _ (by rcases loggedFields_addr hg with e | ⟨e, -⟩ <;> omega)
  raise h := h.of_rd fun _ _ => State.raise_rd _ _ _ _
  comp h := h.of_rd fun _ _ => rfl
  building h := h.of_rd fun _ _ => rfl
  memWrite h := h.of_rd fun _ _ => rfl
  setFrec h := h.of_rd fun _ _ => rfl

/-- The open records are those of a list. -/
def OpenRecs (is : List Nat) (s : State) : Prop := s.faults.openRecs = is

theorem OpenRecs.wr {is : List Nat} (h : OpenRecs is s) (f : Fld) (v : Nat) : OpenRecs is (s.wr f v) := h

theorem OpenRecs.setFrec {is : List Nat} (h : OpenRecs is s) (i : Nat) (o : RecState) : OpenRecs is (s.setFrec i o) := h

theorem OpenRecs.faults {is : List Nat} (h : OpenRecs is s) {o : FaultState} (ho : o.openRecs = s.faults.openRecs) :
    OpenRecs is { s with faults := o } := ho.trans h

theorem OpenRecs.stopKeeps (is : List Nat) : StopKeeps (OpenRecs is) where
  wr h _ := h.wr _ _
  raise h := by unfold OpenRecs; rw [State.raise_faults]; exact h
  comp h := h
  building h := h
  memWrite h := h
  setFrec h := h.setFrec _ _

theorem recordFields_ok (j : Nat) : ∀ f ∈ recordFields j, FldOk f := by
  simp [FldOk, R.WDN_LOG_PTR_WR, R.WDN_LOG_STAT_UNREAD, R.WDN_LOG_PTR_RD, R.WDN_LOG_STAT_OVERFLOW, R.WDN_LOG_STAT_LOST,
    R.WDN_LOG_W1_ACTION, R.WDN_LOG_W2_HOLD_NS, R.WDN_LOG_W2_PREV, R.WDN_LOG_W2_INJECTED, R.WDN_LOG_W2_HOLD_LONG, R.WDN_LOG_W3_SEQ,
    R.WDN_LOG_W3_DETAIL, R.WDN_LOG_W1_STATE, R.WDN_STATUS_OPEN, R.WDN_STATUS_QUEUED]

theorem recordFields_addr {f : Fld} (hf : f ∈ recordFields j) : f.addr < 0xC1000 ∨ (f.addr = 0xC1004 + 0x10 * j ∧ f.hi < 8) ∨
    f.addr = 0xC1008 + 0x10 * j ∨ f.addr = 0xC100C + 0x10 * j := by
  revert f
  simp [R.WDN_LOG_PTR_WR, R.WDN_LOG_STAT_UNREAD, R.WDN_LOG_PTR_RD, R.WDN_LOG_STAT_OVERFLOW, R.WDN_LOG_STAT_LOST,
    R.WDN_LOG_W1_ACTION, R.WDN_LOG_W2_HOLD_NS, R.WDN_LOG_W2_PREV, R.WDN_LOG_W2_INJECTED, R.WDN_LOG_W2_HOLD_LONG, R.WDN_LOG_W3_SEQ,
    R.WDN_LOG_W3_DETAIL, R.WDN_LOG_W1_STATE, R.WDN_STATUS_OPEN, R.WDN_STATUS_QUEUED]

/-- What else is written about a record stands in other words than what was detected, or below it in the same word. -/
theorem recordFields_apart (i j : Nat) : ∀ f ∈ recordFields j, ∀ g ∈ loggedFields i, FldApart f g := by
  intro f hf g hg
  rcases recordFields_addr hf with h | ⟨h, hlow⟩ | h | h <;> rcases loggedFields_addr hg with e | ⟨e, hhigh⟩ <;>
    simp only [FldApart] <;> omega

theorem loggedFields_apart (hij : i ≠ j) : ∀ f ∈ loggedFields j, ∀ g ∈ loggedFields i, FldApart f g := by
  intro f hf g hg
  refine .inl ?_
  rcases loggedFields_addr hf with e | ⟨e, -⟩ <;> rcases loggedFields_addr hg with e' | ⟨e', -⟩ <;> omega

/-- Record `j` says what was detected, and when. -/
def recordNamed (j code level object : Nat) (s : State) : State :=
  (((s.wr (R.WDN_LOG_W0_STAMP j) s.wus).wr (R.WDN_LOG_W1_CODE j) code).wr (R.WDN_LOG_W1_LEVEL j) level).wr
    (R.WDN_LOG_W1_OBJECT j) object

theorem loggedFields_ok (j : Nat) : ∀ f ∈ loggedFields j, FldOk f := by
  simp [FldOk, R.WDN_LOG_W1_CODE, R.WDN_LOG_W1_LEVEL, R.WDN_LOG_W1_OBJECT, R.WDN_LOG_W0_STAMP]

theorem recordNamed_logged (hcode : code < 256) (hlevel : level < 16) (hobject : object < 256) (s : State) :
    Logged j code level object s.wus (recordNamed j code level object s) := by
  have hok {f : Fld} (hf : f ∈ loggedFields j) : FldOk f := loggedFields_ok j f hf
  have hstamp {f : Fld} (hf : f.addr = 0xC1004 + 0x10 * j) : (R.WDN_LOG_W0_STAMP j).addr ≠ f.addr := by
    simp only [R.WDN_LOG_W0_STAMP]; omega
  unfold recordNamed
  constructor
  · rw [State.rd_wr_apart _ _ _ _ (hok (by simp)) (.inr (.inl (show 15 < 24 by decide))),
      State.rd_wr_apart _ _ _ _ (hok (by simp)) (.inr (.inl (show 23 < 24 by decide))), State.rd_wr _ _ _ (hok (by simp))]
    exact Nat.mod_eq_of_lt hcode
  · rw [State.rd_wr_apart _ _ _ _ (hok (by simp)) (.inr (.inl (show 15 < 20 by decide))), State.rd_wr _ _ _ (hok (by simp))]
    exact Nat.mod_eq_of_lt hlevel
  · rw [State.rd_wr _ _ _ (hok (by simp))]
    exact Nat.mod_eq_of_lt hobject
  · rw [State.rd_wr_elsewhere _ _ (hstamp rfl), State.rd_wr_elsewhere _ _ (hstamp rfl), State.rd_wr_elsewhere _ _ (hstamp rfl),
      State.rd_wr _ _ _ (hok (by simp))]
    exact Nat.mod_eq_of_lt (Nat.mod_lt _ (by decide))

theorem recordNamed_fields (j code level object : Nat) (s : State) :
    FieldsOnly (loggedFields j) s (recordNamed j code level object s) := by
  have hw {t : State} {f : Fld} (v : Nat) (ht : FieldsOnly (loggedFields j) s t) (hf : f ∈ loggedFields j) :
      FieldsOnly (loggedFields j) s (t.wr f v) := ht.wr hf (loggedFields_ok j f hf) v
  exact hw _ (hw _ (hw _ (hw _ (.refl _ s) (by simp)) (by simp)) (by simp)) (by simp)

/-- The slot of the next record. -/
def nextSlot (s : State) : Nat := freeSlot s 256 (s.rd R.WDN_LOG_PTR_WR)

theorem FieldsOnly.faults {l : List Fld} (h : FieldsOnly l s t) (o : FaultState) : FieldsOnly l s { t with faults := o } :=
  h.of_regs rfl

theorem FieldsOnly.setFrec {l : List Fld} (h : FieldsOnly l s t) (i : Nat) (o : RecState) : FieldsOnly l s (t.setFrec i o) :=
  h.of_regs rfl

/-- A record is written in three steps: the log's pointers and counts move on, the record says what was detected, and the rest of it
is written. -/
theorem writeRecord_names (code level object action st : Nat) (prev : Option Nat) (injected : Bool) (s : State) :
    ∃ t, FieldsOnly (recordFields (nextSlot s)) s t ∧ t.wus = s.wus ∧
      FieldsOnly (recordFields (nextSlot s)) (recordNamed (nextSlot s) code level object t)
        (writeRecord code level object action st prev injected s).2.2 := by
  unfold writeRecord
  extract_lets wr slot used unread full s1 s2 s3 s4 s5 s6 s7 s8 s9 s10 fs s11
  have hslot : nextSlot s = slot := rfl
  rw [hslot]
  clear_value slot
  have hw {r t : State} {f : Fld} (v : Nat) (hf : f ∈ recordFields slot) (ht : FieldsOnly (recordFields slot) r t) :
      FieldsOnly (recordFields slot) r (t.wr f v) := ht.wr hf (recordFields_ok slot f hf) v
  have h3 : FieldsOnly (recordFields slot) s s3 := by
    have h2 : FieldsOnly (recordFields slot) s s2 := hw _ (by simp) (hw _ (by simp) (.refl _ s))
    exact closed_ite (P := FieldsOnly (recordFields slot) s) (hw _ (by simp) (hw _ (by simp) (hw _ (by simp) h2))) h2
  have htime : s3.time = s.time := by
    have h {t : State} (f : Fld) (v : Nat) (ht : t.time = s.time) : (t.wr f v).time = s.time := ht
    have h2 : s2.time = s.time := h _ _ (h _ _ rfl)
    exact closed_ite (P := fun t => t.time = s.time) (h _ _ (h _ _ (h _ _ h2))) h2
  refine ⟨s3, h3, by simp only [State.wus, State.nowNs, htime], ?_⟩
  have h5 : recordNamed slot code level object s3 = s5 := rfl
  rw [h5]
  have h9 : FieldsOnly (recordFields slot) s5 s9 :=
    hw _ (by simp) (hw _ (by simp) (hw _ (by simp) (hw _ (by simp) (hw _ (by simp) (hw _ (by simp) (hw _ (by simp) (.refl _ s5)))))))
  have h10 : FieldsOnly (recordFields slot) s5 s10 := h9.setFrec _ _
  have h11 : FieldsOnly (recordFields slot) s5 s11 := h10.faults _
  clear_value s11
  exact setRecState_fields h11 (by simp) st

theorem writeRecord_logged (hcode : code < 256) (hlevel : level < 16) (hobject : object < 256) (action st : Nat) (prev : Option Nat)
    (injected : Bool) (s : State) :
    Logged (nextSlot s) code level object s.wus (writeRecord code level object action st prev injected s).2.2 := by
  obtain ⟨t, -, hwus, hrest⟩ := writeRecord_names code level object action st prev injected s
  exact (hwus ▸ recordNamed_logged hcode hlevel hobject t).fields hrest (recordFields_apart _ _)

/-- Another record stands. -/
theorem Logged.writeRecord (h : Logged i code level object stamp s) (hi : i ≠ nextSlot s) (c l o action st : Nat) (prev : Option Nat)
    (injected : Bool) : Logged i code level object stamp (writeRecord c l o action st prev injected s).2.2 := by
  obtain ⟨t, hcounts, -, hrest⟩ := writeRecord_names c l o action st prev injected s
  have hbefore := h.fields hcounts (recordFields_apart _ _)
  exact (hbefore.fields (recordNamed_fields _ c l o t) (loggedFields_apart hi)).fields hrest (recordFields_apart _ _)

theorem OpenRecs.setRecState {is : List Nat} {st : Nat} (h : OpenRecs is s) (hst : isOpenState st = true) (j : Nat) :
    OpenRecs (is.erase j ++ [j]) (setRecState j st s) := by
  subst h
  simp [OpenRecs, Machine.setRecState, refreshWdn, State.when, hst]

theorem writeRecord_openRecs (h : OpenRecs [] s) (code level object action : Nat) (prev : Option Nat) (injected : Bool) :
    OpenRecs [nextSlot s] (writeRecord code level object action 1 prev injected s).2.2 := by
  unfold writeRecord
  extract_lets wr slot used unread full s1 s2 s3 s4 s5 s6 s7 s8 s9 s10 fs s11
  have hslot : nextSlot s = slot := rfl
  have h2 : OpenRecs [] s2 := (h.wr _ _).wr _ _
  have h3 : OpenRecs [] s3 := closed_ite (((h2.wr _ _).wr _ _).wr _ _) h2
  have h6 : OpenRecs [] s6 := ((((h3.wr _ _).wr _ _).wr _ _).wr _ _).wr _ _
  have h9 : OpenRecs [] s9 := (((((h6.wr _ _).wr _ _).wr _ _).wr _ _).wr _ _).wr _ _
  have h10 : OpenRecs [] s10 := h9.setFrec _ _
  have h11 : OpenRecs [] s11 := h10.faults rfl
  clear_value s11
  rw [hslot]
  exact h11.setRecState rfl slot

theorem freeSlot_of_free (h : j ∉ s.faults.openRecs) (n : Nat) : freeSlot s n j = j := by
  cases n with
  | zero => rfl
  | succ n => exact if_neg (by simpa using h)

theorem nextSlot_of_noneOpen (hnone : OpenRecs [] s) : nextSlot s = s.rd R.WDN_LOG_PTR_WR := by
  refine freeSlot_of_free ?_ 256
  rw [hnone]
  exact List.not_mem_nil

theorem nextSlot_lt (s : State) : nextSlot s < 256 := freeSlot_lt s 256 _ (s.rd_lt R.WDN_LOG_PTR_WR)

/-- The one open record is not overwritten (R233). -/
theorem nextSlot_ne_open (hone : OpenRecs [i] s) : i ≠ nextSlot s := by
  have hfree {j : Nat} (hj : j ≠ i) (n : Nat) : freeSlot s n j = j := freeSlot_of_free (by rw [hone]; simpa using hj) n
  by_cases hi : s.rd R.WDN_LOG_PTR_WR = i
  · have hlt : i < 256 := hi ▸ s.rd_lt R.WDN_LOG_PTR_WR
    have hnext : (i + 1) % 256 ≠ i := by omega
    have hopen : s.faults.openRecs.contains i = true := by rw [hone]; simp
    have hslot : nextSlot s = freeSlot s 255 ((i + 1) % 256) := by
      rw [nextSlot, hi]
      exact if_pos hopen
    rw [hslot, hfree hnext]
    exact hnext.symm
  · rw [nextSlot, hfree hi]
    exact Ne.symm hi

end

/-! ### A fault that no open record has to do with -/

/-- No open record is about the object, and none about its containment unit (R232, R243). -/
def Apart (level object : Nat) (s : State) : Prop := ∀ i ∈ s.faults.openRecs,
  (s.rd (R.WDN_LOG_W1_LEVEL i) == level && s.rd (R.WDN_LOG_W1_OBJECT i) == object) = false ∧ sameUnit s level object i = false

section
variable {code level object : Nat} {s : State}

/-- Such a fault has a record of its own, and its cues stop. -/
theorem detect_of_apart (h : Apart level object s) (code : Nat) (injected : Bool) : ∃ i us evs,
    detect code level object injected s = raiseAll evs (stopCues i us (taints code)
      (writeRecord code level object (builtinAction code) 1 none injected s).2.2).2 := by
  have hsame : s.faults.openRecs.find? (fun i => s.rd (R.WDN_LOG_W1_LEVEL i) == level
      && s.rd (R.WDN_LOG_W1_OBJECT i) == object) = none := List.find?_eq_none.mpr fun i hi => by simp [(h i hi).1]
  have hunit (a : Nat) : s.faults.openRecs.find? (fun i => decide (a ∈ [1, 2, 6]) && decide ((s.frec i).action ∈ [1, 2, 6])
      && sameUnit s level object i) = none := List.find?_eq_none.mpr fun i hi => by simp [(h i hi).2]
  unfold detect
  simp only [hsame, hunit]
  exact ⟨_, _, _, rfl⟩

theorem StopKeeps.detect_of_apart {P : State → Prop} (hP : StopKeeps P) (h : Apart level object s) {injected : Bool}
    (hs : P (Machine.writeRecord code level object (builtinAction code) 1 none injected s).2.2) :
    P (detect code level object injected s) := by
  obtain ⟨i, us, evs, hdetect⟩ := Machine.detect_of_apart h code injected
  rw [hdetect]
  exact hP.raiseAll (hP.stopCues hs)

theorem SameRects.detect_of_apart (h : Apart level object s) (code : Nat) (injected : Bool) :
    SameRects s (detect code level object injected s) := by
  obtain ⟨i, us, evs, hdetect⟩ := Machine.detect_of_apart h code injected
  have hkeeps := SameRects.logKeeps s
  rw [hdetect]
  exact hkeeps.raiseAll ((hkeeps.writeRecord _ _ _ _ _ _ _ (.refl s)).stopCues _ _ _)

theorem logFault_of_apart (h : Apart level object s) (hlive : noRectLive s) (code : Nat) (injected : Bool) :
    logFault code level object injected s = detect code level object injected s :=
  checkLost_of_noRectLive ((SameRects.detect_of_apart h code injected).noRectLive hlive)

theorem apart_of_noneOpen (hnone : OpenRecs [] s) (level object : Nat) : Apart level object s := by
  intro i hi
  rw [hnone] at hi
  cases hi

/-- Another region is apart from the one of the only open record. -/
theorem Logged.region_apart {i r stamp : Nat} (h : Logged i code 2 r stamp s) (hone : OpenRecs [i] s) (hr : object ≠ r) :
    Apart 2 object s := by
  intro j hj
  rw [hone, List.mem_singleton] at hj
  subst hj
  simp [sameUnit, objRegion, h.level, h.object, hr, hr.symm]

theorem logFault_logged (hnone : OpenRecs [] s) (hlive : noRectLive s) (hcode : code < 256) (hlevel : level < 16)
    (hobject : object < 256) : Logged (s.rd R.WDN_LOG_PTR_WR) code level object s.wus (logFault code level object false s) := by
  have hapart := apart_of_noneOpen hnone level object
  rw [logFault_of_apart hapart hlive, ← nextSlot_of_noneOpen hnone]
  exact (Logged.stopKeeps (nextSlot_lt s)).detect_of_apart hapart (writeRecord_logged hcode hlevel hobject _ _ _ _ s)

theorem logFault_openRecs (hnone : OpenRecs [] s) (hlive : noRectLive s) (code level object : Nat) :
    OpenRecs [s.rd R.WDN_LOG_PTR_WR] (logFault code level object false s) := by
  have hapart := apart_of_noneOpen hnone level object
  rw [logFault_of_apart hapart hlive, ← nextSlot_of_noneOpen hnone]
  exact (OpenRecs.stopKeeps _).detect_of_apart hapart (writeRecord_openRecs hnone _ _ _ _ _ _)

/-- The record of a die's first region stands while the second's is written. -/
theorem dieClock_logged {d : Nat} (hd : d < 2) (hnone : OpenRecs [] s) (hlive : noRectLive s) :
    Logged (s.rd R.WDN_LOG_PTR_WR) 9 2 (2 * d) s.wus (dieClock d s) := by
  have hfirst := logFault_logged (level := 2) (object := 2 * d) hnone hlive (code := 9) (by decide) (by decide) (by omega)
  have hopen := logFault_openRecs hnone hlive 9 2 (2 * d)
  have hrects : noRectLive (logFault 9 2 (2 * d) false s) := by
    have hapart := apart_of_noneOpen hnone 2 (2 * d)
    rw [logFault_of_apart hapart hlive]
    exact (SameRects.detect_of_apart hapart 9 false).noRectLive hlive
  have hapart : Apart 2 (2 * d + 1) (logFault 9 2 (2 * d) false s) := hfirst.region_apart hopen (by omega)
  rw [dieClock, logFault_of_apart hapart hrects]
  exact (Logged.stopKeeps (s.rd_lt R.WDN_LOG_PTR_WR)).detect_of_apart hapart
    (hfirst.writeRecord (nextSlot_ne_open hopen) _ _ _ _ _ _ _)

end

/-! ### The detections (R230) -/

/-- A command that leaves record `i` in the log answers with it there. -/
theorem exec_logged {c : Instr} {s u : State} {i code level object stamp : Nat} (hc : WellFormed c) (h : exec c s = checked c u)
    (hu : Logged i code level object stamp u) : ∃ t, exec c s = .next t ∧
      t.rd (R.WDN_LOG_W1_CODE i) = code ∧ t.rd (R.WDN_LOG_W1_LEVEL i) = level ∧ t.rd (R.WDN_LOG_W1_OBJECT i) = object ∧
      t.rd (R.WDN_LOG_W0_STAMP i) = stamp := by
  obtain ⟨hcode, hlevel, hobject, hstamp⟩ := hu.queue (.flushEvents u)
  exact ⟨_, exec_of_wf hc h, hcode, hlevel, hobject, hstamp⟩

/-- A command that detects a fault of a cluster. -/
theorem exec_clusterFault {c : Instr} {s : State} {code k i : Nat} (hc : WellFormed c)
    (h : exec c s = checked c (clusterFault code k s)) (hcode : code < 256) (hk : k < 8)
    (hnone : s.faults.openRecs = []) (hlive : noRectLive s) (hi : i = s.rd R.WDN_LOG_PTR_WR) :
    ∃ t, exec c s = .next t ∧
      t.rd (R.WDN_LOG_W1_CODE i) = code ∧ t.rd (R.WDN_LOG_W1_LEVEL i) = 1 ∧ t.rd (R.WDN_LOG_W1_OBJECT i) = k ∧
      t.rd (R.WDN_LOG_W0_STAMP i) = s.wus :=
  exec_logged hc h (hi ▸ logFault_logged hnone hlive hcode (by decide) (by omega))

theorem unitStall_logs (s : State) (u i : Nat) (hu : u < 32) (hwork : (s.unit u).work.isSome = true) (hnone : s.faults.openRecs = [])
    (hlive : noRectLive s) (hi : i = s.rd R.WDN_LOG_PTR_WR) : ∃ t, exec (.unitStall u) s = .next t ∧
      t.rd (R.WDN_LOG_W1_CODE i) = 3 ∧ t.rd (R.WDN_LOG_W1_LEVEL i) = 0 ∧ t.rd (R.WDN_LOG_W1_OBJECT i) = u ∧
      t.rd (R.WDN_LOG_W0_STAMP i) = s.wus := by
  have hstall : unitStall u s = logFault 3 0 u false s := if_pos hwork
  exact exec_logged (decide_eq_true hu) (congrArg (checked _) hstall)
    (hi ▸ logFault_logged hnone hlive (by decide) (by decide) (by omega))

theorem flueOut_logs (s : State) (f i : Nat) (hf : f < 24) (hnone : s.faults.openRecs = []) (hlive : noRectLive s)
    (hi : i = s.rd R.WDN_LOG_PTR_WR) : ∃ t, exec (.flueOut f) s = .next t ∧
      t.rd (R.WDN_LOG_W1_CODE i) = 10 ∧ t.rd (R.WDN_LOG_W1_LEVEL i) = 3 ∧ t.rd (R.WDN_LOG_W1_OBJECT i) = f ∧
      t.rd (R.WDN_LOG_W0_STAMP i) = s.wus :=
  exec_logged (decide_eq_true hf) rfl (hi ▸ logFault_logged hnone hlive (by decide) (by decide) (by omega))

theorem dieClock_logs (s : State) (d i : Nat) (hd : d < 2) (hnone : s.faults.openRecs = []) (hlive : noRectLive s)
    (hi : i = s.rd R.WDN_LOG_PTR_WR) : ∃ t, exec (.dieClock d) s = .next t ∧
      t.rd (R.WDN_LOG_W1_CODE i) = 9 ∧ t.rd (R.WDN_LOG_W1_LEVEL i) = 2 ∧ t.rd (R.WDN_LOG_W1_OBJECT i) = (2 * d) ∧
      t.rd (R.WDN_LOG_W0_STAMP i) = s.wus :=
  exec_logged (decide_eq_true hd) rfl (hi ▸ dieClock_logged hd hnone hlive)

/-- Settles O28: each detection writes its record at the log's write pointer, and nothing that follows touches it. -/
theorem faultDetections : Obligations.FaultDetections := by
  unfold Obligations.FaultDetections
  exact ⟨unitStall_logs, fun _ _ _ hc => exec_clusterFault (decide_eq_true hc) rfl (by decide) hc,
    fun _ _ _ hc => exec_clusterFault (decide_eq_true hc) rfl (by decide) hc,
    fun _ _ _ hc => exec_clusterFault (decide_eq_true hc) rfl (by decide) hc, flueOut_logs, dieClock_logs⟩

end Sys2Proof.Machine

/-!
PROOFS. Fault injection (R249, R251, R255): a register whose fields are all of type RW takes its bits of the word written, an injection
without its permission is denied, and one whose count is used up is disarmed.
-/
namespace Sys2Proof.Machine

/-! ### A word written to a register whose fields are all of type RW -/

/-- Each field of a list takes its bits of a word. -/
def wrFields (fs : List Fld) (w : Nat) (s : State) : State := fs.foldl (fun s f => s.wr f (bits w f.hi f.lo)) s

theorem FldApart.symm {f g : Fld} (h : FldApart f g) : FldApart g f := h.imp Ne.symm Or.symm

theorem wrFields_rd_apart {fs : List Fld} {g : Fld} (hok : ∀ f ∈ fs, FldOk f) (hg : ∀ f ∈ fs, FldApart f g) (w : Nat)
    (s : State) : (wrFields fs w s).rd g = s.rd g :=
  closed_foldl_mem (P := fun t => t.rd g = s.rd g)
    (fun t f hf ht => (State.rd_wr_apart t f g _ (hok f hf) (hg f hf)).trans ht) rfl

/-- Of fields that share no bit each reads its bits of the word. -/
theorem wrFields_rd {fs : List Fld} (hok : ∀ f ∈ fs, FldOk f) (hapart : fs.Pairwise FldApart) (w : Nat) (s : State) :
    ∀ g ∈ fs, (wrFields fs w s).rd g = bits w g.hi g.lo := by
  induction fs generalizing s with
  | nil => simp
  | cons f fs ih =>
    obtain ⟨hf, hfs⟩ := List.pairwise_cons.mp hapart
    have hrest : ∀ g ∈ fs, FldOk g := fun g hg => hok g (List.mem_cons_of_mem _ hg)
    intro g hg
    rcases List.mem_cons.mp hg with rfl | hg
    · refine (wrFields_rd_apart hrest (fun x hx => (hf x hx).symm) w _).trans ?_
      rw [State.rd_wr _ _ _ (hok g List.mem_cons_self), Nat.mod_eq_of_lt (bits_lt _ _ _)]
    · exact ih hrest hfs _ g hg

theorem wrFields_within {fs : List Fld} (hok : ∀ f ∈ fs, FldOk f) (q : List Part) (w : Nat) (s : State) :
    Within fs q s (wrFields fs w s) :=
  closed_foldl_mem (fun _ f hf ht => Within.wr ht hf (hok f hf) _) (.refl fs q s)

theorem applyWrite_of_rw {a : Nat} {d : RegDesc} {ix : List Nat} (h : findReg a = some (d, ix))
    (hrw : ∀ f ∈ d.fields, f.acc = .rw ∧ touches allBits f = true) (w : Nat) (s : State) :
    applyWrite a w s = wrFields (d.fields.map fun f => ⟨a, f.hi, f.lo⟩) w s := by
  have hnone : d.fields.any (fun f => f.acc == .rwl && touches allBits f) = false := by
    rw [List.any_eq_false]
    intro f hf
    simp [(hrw f hf).1]
  unfold applyWrite applyTouched wrFields
  simp only [h, hnone, Bool.and_false, Bool.false_eq_true, if_false, List.foldl_map]
  refine List.foldl_ext _ _ _ fun t f hf => ?_
  obtain ⟨hacc, htouched⟩ := hrw f hf
  simp only [writeField, htouched, hacc, Bool.true_eq_false, if_false]

/-! ### The injection registers (R249) -/

/-- The fields of INJ_RX_CFG for path `n`, of INJ_VOTER, of INJ_DRAM and of INJ_LANE. -/
abbrev injRxFields (n : Nat) : List Fld := [R.INJ_RX_CFG_MODE n, R.INJ_RX_CFG_DIST n, R.INJ_RX_CFG_RATE n]
abbrev injVoterFields : List Fld := [R.INJ_VOTER_ENABLE, R.INJ_VOTER_UNIT, R.INJ_VOTER_COUNT]
abbrev injDramFields : List Fld := [R.INJ_DRAM_ENABLE, R.INJ_DRAM_BITS, R.INJ_DRAM_CHANNEL, R.INJ_DRAM_COUNT]
abbrev injLaneFields : List Fld := [R.INJ_LANE_ENABLE, R.INJ_LANE_LANE, R.INJ_LANE_EXP]

/-- INJ_RX_CFG in the register map. -/
def injRxReg : RegDesc := ⟨"INJ_RX_CFG", 0x1C0100, [(0x4, 12)], .const,
  [⟨31, 30, .rw, 0x0⟩, ⟨26, 24, .rw, 0x1⟩, ⟨15, 0, .rw, 0x0⟩]⟩

theorem findReg_injRx : ∀ n < 12, findReg (R.INJ_RX_CFG_MODE n).addr = some (injRxReg, [n]) := by decide +kernel

theorem applyWrite_injRx {n : Nat} (hn : n < 12) (w : Nat) (s : State) :
    applyWrite (R.INJ_RX_CFG_MODE n).addr w s = wrFields (injRxFields n) w s :=
  applyWrite_of_rw (findReg_injRx n hn) (by decide) w s

theorem applyWrite_injVoter (w : Nat) (s : State) : applyWrite R.INJ_VOTER_ENABLE.addr w s = wrFields injVoterFields w s :=
  applyWrite_of_rw (d := ⟨"INJ_VOTER", 0x1C0200, [], .const,
      [⟨31, 31, .rw, 0x0⟩, ⟨20, 16, .rw, 0x0⟩, ⟨15, 0, .rw, 0x0⟩]⟩) (ix := [])
    (by decide +kernel) (by decide) w s

theorem applyWrite_injDram (w : Nat) (s : State) : applyWrite R.INJ_DRAM_ENABLE.addr w s = wrFields injDramFields w s :=
  applyWrite_of_rw (d := ⟨"INJ_DRAM", 0x1C0300, [], .const,
      [⟨31, 31, .rw, 0x0⟩, ⟨25, 24, .rw, 0x1⟩, ⟨20, 16, .rw, 0x0⟩, ⟨15, 0, .rw, 0x0⟩]⟩) (ix := [])
    (by decide +kernel) (by decide) w s

theorem applyWrite_injLane (w : Nat) (s : State) : applyWrite R.INJ_LANE_ENABLE.addr w s = wrFields injLaneFields w s :=
  applyWrite_of_rw (d := ⟨"INJ_LANE", 0x1C0400, [], .const,
      [⟨31, 31, .rw, 0x0⟩, ⟨22, 16, .rw, 0x0⟩, ⟨5, 0, .rw, 0x14⟩]⟩) (ix := [])
    (by decide +kernel) (by decide) w s

theorem injRxFields_ok (n : Nat) : ∀ f ∈ injRxFields n, FldOk f := by
  simp [FldOk, R.INJ_RX_CFG_MODE, R.INJ_RX_CFG_DIST, R.INJ_RX_CFG_RATE]

theorem injRxFields_pairwise (n : Nat) : (injRxFields n).Pairwise FldApart := by
  simp [FldApart, R.INJ_RX_CFG_MODE, R.INJ_RX_CFG_DIST, R.INJ_RX_CFG_RATE]

theorem injRxFields_notQueue (n : Nat) : ∀ f ∈ injRxFields n, queueOffset f.addr = false := by
  have haddr : queueOffset (0x1C0100 + 0x4 * n) = false := queueOffset_above (by omega)
  simpa [R.INJ_RX_CFG_MODE, R.INJ_RX_CFG_DIST, R.INJ_RX_CFG_RATE] using haddr

theorem QueueOnly.inj {s t : State} (h : QueueOnly s t) : t.inj = s.inj := h.same .inj (by decide)

/-- The state with `o` for what the injections keep beside their registers. -/
def withInj (o : InjState) (s : State) : State := { s with inj := o }

@[simp] theorem withInj_regs (o : InjState) (s : State) : (withInj o s).regs = s.regs := rfl
@[simp] theorem withInj_inj (o : InjState) (s : State) : (withInj o s).inj = o := rfl

theorem withInj_changes {K : List Part} (hK : .inj ∈ K) (o : InjState) (s : State) : ChangesOnly K s (withInj o s) :=
  (ChangesOnly.closed K s).inj hK s o (.refl K s)

/-- A command that writes the word `w` to the fields `fs` and then changes no register: every field holds its bits of the word. -/
theorem exec_wrFields {c : Instr} {s u : State} {fs : List Fld} {q : List Part} {w : Nat} (hc : WellFormed c)
    (h : exec c s = checked c u) (hok : ∀ f ∈ fs, FldOk f) (hapart : fs.Pairwise FldApart)
    (hq : ∀ f ∈ fs, queueOffset f.addr = false) (hregs : u.regs = (wrFields fs w s).regs)
    (hu : ChangesOnly (queueParts ++ q) (wrFields fs w s) u) :
    ∃ t, exec c s = .next t ∧ (∀ f ∈ fs, t.rd f = bits w f.hi f.lo) ∧ t.inj = u.inj ∧ Within fs q s t := by
  obtain ⟨hfields, hparts⟩ := wrFields_within hok q w s
  have hrd (f : Fld) : u.rd f = (wrFields fs w s).rd f := by unfold State.rd State.word; rw [hregs]
  refine ⟨_, exec_of_wf hc h, fun f hf => ?_, (QueueOnly.flushEvents u).inj, ?_⟩
  · rw [State.flushEvents_rd _ _ (hq f hf), hrd, wrFields_rd hok hapart w s f hf]
  · exact Within.queue ⟨hfields.of_regs hregs, hparts.trans hu⟩ (.flushEvents _)

/-! ### The commands -/

theorem injDenied_only (a : Nat) (s : State) : (injDenied a s).rdb R.INJ_PERMIT_DENIED = true ∧
    Within [R.INJ_PERMIT_DENIED] [] s (injDenied a s) := by
  refine ⟨?_, ((Within.refl _ _ s).wr (by simp) (by decide) 1).raise _ _⟩
  rw [State.rdb, injDenied, State.raise_rd, State.rd_wr _ _ _ (by decide)]
  rfl

theorem injRxCfgWrite_wellFormed {n w : Nat} (hn : n < 12) (hw : w < 2 ^ 32) : WellFormed (.injRxCfgWrite n w) := by
  simpa [WellFormed, Instr.wf, hn] using hw

theorem injRxCfgWrite_denied (s : State) (n w : Nat) (hn : n < 12) (hw : w < 2 ^ 32) (hmode : bits w 31 30 ≠ 0)
    (hpermit : s.rdb (if n < 4 then R.INJ_PERMIT_CRL_RX else R.INJ_PERMIT_ETH_RX) = false) :
    ∃ t, exec (.injRxCfgWrite n w) s = .next t ∧
      t.rdb R.INJ_PERMIT_DENIED = true ∧ FieldsOnly [R.INJ_PERMIT_DENIED] s t ∧ ChangesOnly [.regs, .evq, .sent] s t := by
  refine ⟨_, exec_of_wf (injRxCfgWrite_wellFormed hn hw) rfl, ?_⟩
  have hdenied : injRxCfgWrite n w s = injDenied (R.INJ_RX_CFG_MODE n).addr s := by
    rw [injRxCfgWrite]
    exact if_pos ⟨hmode, hpermit⟩
  obtain ⟨hbit, hwithin⟩ := injDenied_only (R.INJ_RX_CFG_MODE n).addr s
  rw [hdenied]
  refine ⟨?_, hwithin.queue (.flushEvents _)⟩
  rw [State.rdb, State.flushEvents_rd _ _ (by decide)]
  exact hbit

theorem injRxFields_rd_seed (n w : Nat) (s : State) : (wrFields (injRxFields n) w s).rd R.INJ_SEED_SEED = s.rd R.INJ_SEED_SEED := by
  have hne : 0x1C0100 + 0x4 * n ≠ R.INJ_SEED_SEED.addr := by simp only [R.INJ_SEED_SEED]; omega
  refine wrFields_rd_apart (injRxFields_ok n) (fun f hf => .inl ?_) w s
  simp only [injRxFields, List.mem_cons, List.not_mem_nil, or_false] at hf
  rcases hf with rfl | rfl | rfl <;> exact hne

theorem injRxCfgWrite_of_permitted {s : State} {n w : Nat} (hn : n < 12) (hmode : bits w 31 30 ≠ s.rd (R.INJ_RX_CFG_MODE n))
    (hpermit : s.rdb (if n < 4 then R.INJ_PERMIT_CRL_RX else R.INJ_PERMIT_ETH_RX) = true) :
    injRxCfgWrite n w s = withInj { (wrFields (injRxFields n) w s).inj with
      lfsr := (wrFields (injRxFields n) w s).inj.lfsr.set (fun _ => 0) n (max 1 (s.rd R.INJ_SEED_SEED) ^^^ n) }
        (wrFields (injRxFields n) w s) := by
  unfold injRxCfgWrite withInj
  simp only [hpermit, Bool.true_eq_false, and_false, if_false, hmode, applyWrite_injRx hn, injRxFields_rd_seed]

theorem injRxCfgWrite_seeds (s : State) (n w : Nat) (hn : n < 12) (hw : w < 2 ^ 32)
    (hmode : bits w 31 30 ≠ s.rd (R.INJ_RX_CFG_MODE n))
    (hpermit : s.rdb (if n < 4 then R.INJ_PERMIT_CRL_RX else R.INJ_PERMIT_ETH_RX) = true) :
    ∃ t, exec (.injRxCfgWrite n w) s = .next t ∧
      t.rd (R.INJ_RX_CFG_MODE n) = bits w 31 30 ∧ t.rd (R.INJ_RX_CFG_DIST n) = bits w 26 24 ∧
      t.rd (R.INJ_RX_CFG_RATE n) = bits w 15 0 ∧ t.inj.lfsr.get (fun _ => 0) n = max 1 (s.rd R.INJ_SEED_SEED) ^^^ n ∧
      FieldsOnly [R.INJ_RX_CFG_MODE n, R.INJ_RX_CFG_DIST n, R.INJ_RX_CFG_RATE n] s t ∧
      ChangesOnly [.regs, .evq, .sent, .inj] s t := by
  obtain ⟨t, hnext, hrd, hinj, hwithin⟩ := exec_wrFields (q := [.inj]) (injRxCfgWrite_wellFormed hn hw)
    (congrArg (checked _) (injRxCfgWrite_of_permitted hn hmode hpermit)) (injRxFields_ok n) (injRxFields_pairwise n)
    (injRxFields_notQueue n) (withInj_regs _ _) (withInj_changes (by decide) _ _)
  refine ⟨t, hnext, hrd _ (by simp), hrd _ (by simp), hrd _ (by simp), ?_, hwithin⟩
  rw [hinj, withInj_inj, Tab.get_set_same]

theorem injVoterWrite_takes (s : State) (w : Nat) (hw : w < 2 ^ 32)
    (hpermit : bitOf w 31 = false ∨ s.rdb R.INJ_PERMIT_VOTER = true) : ∃ t, exec (.injVoterWrite w) s = .next t ∧
      t.rd R.INJ_VOTER_ENABLE = bits w 31 31 ∧ t.rd R.INJ_VOTER_UNIT = bits w 20 16 ∧ t.rd R.INJ_VOTER_COUNT = bits w 15 0 ∧
      FieldsOnly [R.INJ_VOTER_ENABLE, R.INJ_VOTER_UNIT, R.INJ_VOTER_COUNT] s t ∧ ChangesOnly [.regs, .evq, .sent] s t := by
  have htakes : injVoterWrite w s = wrFields injVoterFields w s := by
    rw [injVoterWrite, applyWrite_injVoter]
    exact if_neg (by rcases hpermit with h | h <;> simp [h])
  obtain ⟨t, hnext, hrd, -, hwithin⟩ := exec_wrFields (q := []) (c := .injVoterWrite w) (decide_eq_true hw)
    (congrArg (checked _) htakes) (by decide) (by decide) (by decide) rfl (.refl _ _)
  exact ⟨t, hnext, hrd _ (by simp), hrd _ (by simp), hrd _ (by simp), hwithin⟩

theorem injDramWrite_takes (s : State) (w : Nat) (hw : w < 2 ^ 32) (harm : bitOf w 31 = true)
    (hpermit : s.rdb R.INJ_PERMIT_DRAM = true) (hbits : bits w 25 24 = 1 ∨ bits w 25 24 = 2) :
    ∃ t, exec (.injDramWrite w) s = .next t ∧
      t.rd R.INJ_DRAM_ENABLE = 1 ∧ t.rd R.INJ_DRAM_BITS = bits w 25 24 ∧ t.rd R.INJ_DRAM_CHANNEL = bits w 20 16 ∧
      t.rd R.INJ_DRAM_COUNT = bits w 15 0 ∧
      FieldsOnly [R.INJ_DRAM_ENABLE, R.INJ_DRAM_BITS, R.INJ_DRAM_CHANNEL, R.INJ_DRAM_COUNT] s t ∧
      ChangesOnly [.regs, .evq, .sent] s t := by
  have htakes : injDramWrite w s = wrFields injDramFields w s := by
    rw [injDramWrite, applyWrite_injDram]
    refine (if_neg (by simp [hpermit])).trans (if_neg ?_)
    rcases hbits with h | h <;> simp [h]
  obtain ⟨t, hnext, hrd, -, hwithin⟩ := exec_wrFields (q := []) (c := .injDramWrite w) (decide_eq_true hw)
    (congrArg (checked _) htakes) (by decide) (by decide) (by decide) rfl (.refl _ _)
  have hone : bits w 31 31 = 1 := by rwa [bitOf_eq_bits, beq_iff_eq] at harm
  exact ⟨t, hnext, (hrd _ (by simp)).trans hone, hrd _ (by simp), hrd _ (by simp), hrd _ (by simp), hwithin⟩

theorem injLaneWrite_takes (s : State) (w : Nat) (hw : w < 2 ^ 32)
    (hpermit : bitOf w 31 = false ∨ s.rdb R.INJ_PERMIT_LANE = true) : ∃ t, exec (.injLaneWrite w) s = .next t ∧
      t.rd R.INJ_LANE_ENABLE = bits w 31 31 ∧ t.rd R.INJ_LANE_LANE = bits w 22 16 ∧ t.rd R.INJ_LANE_EXP = bits w 5 0 ∧
      FieldsOnly [R.INJ_LANE_ENABLE, R.INJ_LANE_LANE, R.INJ_LANE_EXP] s t ∧ ChangesOnly [.regs, .evq, .sent, .inj] s t := by
  have htakes : injLaneWrite w s = withInj { (wrFields injLaneFields w s).inj with laneNs := (wrFields injLaneFields w s).monoNs }
      (wrFields injLaneFields w s) := by
    rw [injLaneWrite, applyWrite_injLane]
    exact if_neg (by rcases hpermit with h | h <;> simp [h])
  obtain ⟨t, hnext, hrd, -, hwithin⟩ := exec_wrFields (q := [.inj]) (c := .injLaneWrite w) (decide_eq_true hw)
    (congrArg (checked _) htakes) (by decide) (by decide) (by decide) (withInj_regs _ _)
    (withInj_changes (by decide) _ _)
  exact ⟨t, hnext, hrd _ (by simp), hrd _ (by simp), hrd _ (by simp), hwithin⟩

/-- The field that enables an injection of a counted kind, and its count. -/
def injKind (kind : Nat) : Fld × Fld :=
  if kind = 0 then (R.INJ_VOTER_ENABLE, R.INJ_VOTER_COUNT) else (R.INJ_DRAM_ENABLE, R.INJ_DRAM_COUNT)

theorem injDone_disarms (s : State) {kind : Nat} (hkind : kind < 2) (hon : s.rdb (injKind kind).1 = true)
    (hzero : s.rd (injKind kind).2 = 0) : ∃ t, exec (.injDone kind) s = .next t ∧
      t.rd (injKind kind).1 = 0 ∧ FieldsOnly [(injKind kind).1] s t ∧ ChangesOnly [.regs, .evq, .sent] s t := by
  have hfield : FldOk (injKind kind).1 ∧ queueOffset (injKind kind).1.addr = false := by
    unfold injKind
    split <;> decide
  obtain ⟨hok, hq⟩ := hfield
  refine ⟨_, exec_of_wf (decide_eq_true hkind) rfl, ?_⟩
  have hdisarms : injDone kind s = (s.wr (injKind kind).1 0).raise 0x1802 (injKind kind).1.addr := by
    change (if (s.rdb (injKind kind).1 && s.rd (injKind kind).2 == 0) = true then _ else s) = _
    exact if_pos (by simp [hon, hzero])
  rw [hdisarms]
  refine ⟨?_, (((Within.refl [(injKind kind).1] [] s).wr (by simp) hok 0).raise _ _).queue (.flushEvents _)⟩
  rw [State.flushEvents_rd _ _ hq, State.raise_rd, State.rd_wr _ _ _ hok, Nat.zero_mod]

/-- Settles O29: a write without its permission is denied; one with it puts the word into the register's fields, which are all of
type RW; and a count that is used up disarms its kind. -/
theorem injectionCommands : Obligations.InjectionCommands := by
  unfold Obligations.InjectionCommands
  exact ⟨injRxCfgWrite_denied, injRxCfgWrite_seeds, injVoterWrite_takes, injDramWrite_takes, injLaneWrite_takes,
    fun s => injDone_disarms s (kind := 0) (by decide), fun s => injDone_disarms s (kind := 1) (by decide)⟩

end Sys2Proof.Machine

/-!
PROOFS. The states of the balls (R512): while PORST_N is asserted, in a domain without power, at THERMTRIP and after a package fault.
-/
namespace Sys2Proof.Machine

section
variable {s : State}

theorem ballState_of_porst (h : s.power.porst = true) (b : Ball) : ballState s b = ballAtReset s b := if_pos h

/-- THERMTRIP_N follows its status bit in reset and out of it (R273). -/
theorem ballState_thermtrip (s : State) : ballState s .thermtrip = if s.rdb R.PWR_STATUS_THERMTRIP then .low else .highZ := by
  unfold ballState
  split <;> rfl

/-! ### A domain without power (R512, column Domain off) -/

theorem lane_off {n : Nat} (hrun : s.power.porst = false) (hoff : s.powered (laneDomain n) = false) :
    ballState s (.laneTx n) = .highZ ∧ ballState s (.laneRx n) = .highZ := by
  simp [ballState, hrun, hoff]

theorem dram_off {d : Nat} (hrun : s.power.porst = false) (hoff : s.powered (memoryDomain d) = false) :
    ballState s (.dramReset d) = .low ∧ ballState s (.dramBus d) = .highZ := by
  simp [ballState, hrun, hoff]

theorem audioBall_off (hoff : s.powered 6 = false) (out : Bool) : audioBall s out = .pulledLow := if_pos hoff

theorem audio_off (hrun : s.power.porst = false) (hoff : s.powered 6 = false) (p : Nat) :
    ballState s (.iecOut p) = .pulledLow ∧ ballState s (.tdmOut p) = .pulledLow := by
  simp [ballState, hrun, audioBall_off hoff]

theorem touch_off (hrun : s.power.porst = false) (hoff : s.powered 6 = false) (n : Nat) :
    ballState s (.touchDrive n) = .highZ ∧ ballState s (.senseIn n) = .highZ := by
  simp [ballState, hrun, lineUsed, hoff]

/-! ### Audio outputs after a package fault (R471) -/

theorem audioBall_fault (hon : s.powered 6 = true) (hfault : s.rdb R.WDN_STATUS_PKG_FAULT = true) :
    audioBall s true = .low := by
  simp [audioBall, hon, hfault]

theorem iecOut_fault {p : Nat} (hrun : s.power.porst = false) (hon : s.powered 6 = true)
    (hfault : s.rdb R.WDN_STATUS_PKG_FAULT = true) (hout : s.rd (R.AUD_IEC_CFG_MODE p) = 2) :
    ballState s (.iecOut p) = .low := by
  simp [ballState, hrun, hout, audioBall_fault hon hfault]

theorem tdmOut_fault {p : Nat} (hrun : s.power.porst = false) (hon : s.powered 6 = true)
    (hfault : s.rdb R.WDN_STATUS_PKG_FAULT = true) (hout : s.rdb (R.AUD_TDM_CFG_DIR p) = true) :
    ballState s (.tdmOut p) = .low := by
  simp [ballState, hrun, hout, audioBall_fault hon hfault]

end

theorem thermtrip_drivesLow (s : State) (k : Nat) (hk : k < 24) :
    ∃ t, exec (.thermtrip k) s = .next t ∧ ballState t .thermtrip = .low := by
  obtain ⟨t, hnext, htrip, -⟩ := thermtrip_declares s k hk
  exact ⟨t, hnext, by rw [ballState_thermtrip, if_pos htrip]⟩

/-- Settles O55, column by column of R512. -/
theorem ballStates : Obligations.BallStates := by
  unfold Obligations.BallStates
  refine ⟨fun s hreset => ?_, fun s hrun => ⟨fun n => lane_off hrun, fun d => dram_off hrun, fun hoff => ?_⟩,
    thermtrip_drivesLow, fun s hrun hon hfault => ⟨fun p => iecOut_fault hrun hon hfault, fun p => tdmOut_fault hrun hon hfault⟩⟩
  · simp [ballState_of_porst hreset, ballAtReset]
  · exact ⟨fun p => (audio_off hrun hoff p).1, fun p => (audio_off hrun hoff p).2, fun n => (touch_off hrun hoff n).1,
      fun c => (touch_off hrun hoff c).2⟩

end Sys2Proof.Machine

/-!
PROOFS. The thermal commands of the damper (R257, R260, R270, R272, R516): what a sample writes, what a failed sensor loses, and what
stands through the refresh of the damper's registers, the sheet being built and the records of lost rectangles.
-/
namespace Sys2Proof.Machine

/-! ### What the damper keeps beside its registers -/

/-- The state with `o` for what the damper keeps. -/
def withDamper (o : DamperState) (s : State) : State := { s with damper := o }

@[simp] theorem withDamper_rd (o : DamperState) (s : State) (f : Fld) : (withDamper o s).rd f = s.rd f := rfl
@[simp] theorem withDamper_damper (o : DamperState) (s : State) : (withDamper o s).damper = o := rfl

theorem Within.withDamper {l : List Fld} {q : List Part} {s t : State} (h : Within l q s t) (hq : .damper ∈ q) (o : DamperState) :
    Within l q s (withDamper o t) :=
  ⟨h.1.of_regs rfl, (ChangesOnly.closed _ s).damper (by simp [hq]) t o h.2⟩

theorem QueueOnly.damper {s t : State} (h : QueueOnly s t) : t.damper = s.damper := h.same .damper (by decide)

@[simp] theorem State.flushEvents_damper (s : State) : s.flushEvents.damper = s.damper := (QueueOnly.flushEvents s).damper
@[simp] theorem State.raise_damper (s : State) (c o : Nat) : (s.raise c o).damper = s.damper := (QueueOnly.raise s c o).damper

/-! ### A sensor fails (R516) -/

section
variable {s : State} {i : Nat}

theorem temp_ok (i : Nat) : FldOk (R.PWR_TEMP_TEMP i) ∧ FldOk (R.PWR_TEMP_VALID i) := by
  simp [FldOk, R.PWR_TEMP_TEMP, R.PWR_TEMP_VALID]

theorem temp_notQueue (i : Nat) : queueOffset (0x1B0200 + 0x4 * i) = false := queueOffset_above (by omega)

theorem sensorFail_of_valid (h : s.rdb (R.PWR_TEMP_VALID i) = true) : sensorFail i s =
    withDamper { s.damper with tickMax := s.damper.tickMax.filter (·.1 != i) }
      ((s.wr (R.PWR_TEMP_VALID i) 0).raise 0x1904 i) := by
  rw [sensorFail, if_pos h]
  rfl

/-- A valid sensor that fails, in a command with that effect. -/
theorem exec_sensorFail {c : Instr} (hc : WellFormed c) (hexec : exec c s = checked c (sensorFail i s))
    (h : s.rdb (R.PWR_TEMP_VALID i) = true) : ∃ t, exec c s = .next t ∧
      t.rdb (R.PWR_TEMP_VALID i) = false ∧ t.damper.tickMax = s.damper.tickMax.filter (·.1 != i) ∧
      FieldsOnly [R.PWR_TEMP_VALID i] s t ∧ ChangesOnly [.regs, .evq, .sent, .damper] s t := by
  refine ⟨_, exec_of_wf hc hexec, ?_⟩
  rw [sensorFail_of_valid h]
  refine ⟨?_, ?_, ?_⟩
  · rw [State.flushEvents_rdb _ _ (temp_notQueue i), State.rdb, withDamper_rd, State.raise_rd, State.rd_wr _ _ _ (temp_ok i).2]
    simp
  · rw [State.flushEvents_damper, withDamper_damper]
  · exact ((((Within.refl _ [.damper] s).wr (by simp) (temp_ok i).2 0).raise _ _).withDamper (by simp) _).queue (.flushEvents _)

end

theorem sensorFail_clearsValid (s : State) (i : Nat) (hi : i < 24) (h : s.rdb (R.PWR_TEMP_VALID i) = true) :
    ∃ t, exec (.sensorFail i) s = .next t ∧
      t.rdb (R.PWR_TEMP_VALID i) = false ∧ t.damper.tickMax = s.damper.tickMax.filter (·.1 != i) ∧
      FieldsOnly [R.PWR_TEMP_VALID i] s t ∧ ChangesOnly [.regs, .evq, .sent, .damper] s t :=
  exec_sensorFail (decide_eq_true hi) rfl h

theorem tempSample_outOfRange (s : State) (i : Nat) (v : Int) (hi : i < 24) (hv : v < -320 ∨ 1200 < v)
    (h : s.rdb (R.PWR_TEMP_VALID i) = true) : ∃ t, exec (.tempSample i v) s = .next t ∧
      t.rdb (R.PWR_TEMP_VALID i) = false ∧ FieldsOnly [R.PWR_TEMP_VALID i] s t ∧
      ChangesOnly [.regs, .evq, .sent, .damper] s t := by
  have hfail : tempSample i v s = sensorFail i s := if_pos hv
  obtain ⟨t, hnext, hvalid, -, hwithin⟩ := exec_sensorFail (c := .tempSample i v) (decide_eq_true hi)
    (congrArg (checked _) hfail) h
  exact ⟨t, hnext, hvalid, hwithin⟩

/-! ### A sample within the sensor's range (R257) -/

theorem twos16_lt (v : Int) : twos16 v < 2 ^ 16 := by
  have hlt : v % 65536 < 65536 := Int.emod_lt_of_pos v (by decide)
  have hnn : 0 ≤ v % 65536 := Int.emod_nonneg v (by decide)
  have heq : twos16 v = (v % 65536).toNat := rfl
  rw [heq]
  omega

/-- The highest sample that a tick has brought of sensor `i`, if any. -/
def tickHighest (s : State) (i : Nat) : Option Int := (s.damper.tickMax.find? (·.1 == i)).map Prod.snd

/-- The highest of a sample and those of its sensor that the tick brought before. -/
def highestWith (s : State) (i : Nat) (v : Int) : Int := match tickHighest s i with | none => v | some o => max o v

/-- The fields that a sample writes. -/
abbrev sampleFields (i : Nat) : List Fld := [R.PWR_TEMP_TEMP i, R.PWR_TEMP_VALID i, R.DMP_STATUS_EMERGENCY]

/-- The state with a sample taken, before an emergency that it may begin. -/
def sampled (i : Nat) (v : Int) (s : State) : State :=
  withDamper { s.damper with tickMax := (i, highestWith s i v) :: s.damper.tickMax.filter (·.1 != i) }
    ((s.wr (R.PWR_TEMP_TEMP i) (twos16 v)).wr (R.PWR_TEMP_VALID i) 1)

section
variable {s : State} {i : Nat} {v : Int}

theorem tempSample_inRange (hlow : -320 ≤ v) (hhigh : v ≤ 1200) :
    tempSample i v s = if 880 ≤ v then beginEmergency (sensorDie i) (sampled i v s) else sampled i v s := by
  have hin : ¬(v < -320 ∨ 1200 < v) := by omega
  unfold sampled highestWith tickHighest tempSample
  rcases htop : (s.damper.tickMax.find? (·.1 == i)).map Prod.snd with - | o <;>
    simp only [hin, if_false, State.wr_damper, htop, withDamper]

theorem sampled_temp : (sampled i v s).rd (R.PWR_TEMP_TEMP i) = twos16 v := by
  rw [sampled, withDamper_rd, State.rd_wr_apart _ _ _ _ (temp_ok i).2 (by simp [FldApart, R.PWR_TEMP_TEMP, R.PWR_TEMP_VALID]),
    State.rd_wr _ _ _ (temp_ok i).1]
  exact Nat.mod_eq_of_lt (twos16_lt v)

theorem sampled_valid : (sampled i v s).rd (R.PWR_TEMP_VALID i) = 1 := by
  rw [sampled, withDamper_rd, State.rd_wr _ _ _ (temp_ok i).2]
  simp [R.PWR_TEMP_VALID]

theorem sampled_highest : tickHighest (sampled i v s) i = some (highestWith s i v) := by
  simp [tickHighest, sampled]

theorem sampled_emergency : (sampled i v s).rdb R.DMP_STATUS_EMERGENCY = s.rdb R.DMP_STATUS_EMERGENCY := by
  have hne : R.DMP_STATUS_EMERGENCY.addr ≠ 0x1B0200 + 0x4 * i := by simp only [R.DMP_STATUS_EMERGENCY]; omega
  rw [State.rdb, sampled, withDamper_rd, State.rd_wr_elsewhere (f := R.PWR_TEMP_VALID i) _ _ hne,
    State.rd_wr_elsewhere (f := R.PWR_TEMP_TEMP i) _ _ hne, State.rdb]

theorem sampled_within : Within (sampleFields i) [.damper] s (sampled i v s) :=
  (((Within.refl _ _ s).wr (by simp) (temp_ok i).1 _).wr (by simp) (temp_ok i).2 _).withDamper (by simp) _

end

/-! ### An emergency begins (R272) -/

theorem beginEmergency_of_none {s : State} (h : s.rdb R.DMP_STATUS_EMERGENCY = false) (die : Nat) : beginEmergency die s =
    ((withDamper { s.damper with coolRun := 0 } s).wr R.DMP_STATUS_EMERGENCY 1).raise 0x0A07 die := by
  simp only [beginEmergency, withDamper, h, Bool.false_eq_true, if_false]

theorem beginEmergency_of_emergency {s : State} (h : s.rdb R.DMP_STATUS_EMERGENCY = true) (die : Nat) :
    beginEmergency die s = s := if_pos h

/-- An emergency sets its bit and no other, and the highest samples stand. -/
theorem beginEmergency_shows (die : Nat) (s : State) : (beginEmergency die s).rdb R.DMP_STATUS_EMERGENCY = true ∧
    (∀ f, FldApart R.DMP_STATUS_EMERGENCY f → (beginEmergency die s).rd f = s.rd f) ∧
    (beginEmergency die s).damper.tickMax = s.damper.tickMax := by
  cases hon : s.rdb R.DMP_STATUS_EMERGENCY with
  | true =>
    rw [beginEmergency_of_emergency hon]
    exact ⟨hon, fun _ _ => rfl, rfl⟩
  | false =>
    rw [beginEmergency_of_none hon]
    refine ⟨?_, fun f hf => ?_, by rw [State.raise_damper, State.wr_damper, withDamper_damper]⟩
    · rw [State.rdb, State.raise_rd, State.rd_wr _ _ _ (by decide)]
      rfl
    · rw [State.raise_rd, State.rd_wr_apart _ _ _ _ (by decide) hf, withDamper_rd]

theorem Within.beginEmergency {l : List Fld} {q : List Part} {s t : State} (h : Within l q s t)
    (hl : R.DMP_STATUS_EMERGENCY ∈ l) (hq : .damper ∈ q) (die : Nat) : Within l q s (beginEmergency die t) := by
  cases hon : t.rdb R.DMP_STATUS_EMERGENCY with
  | true => rwa [beginEmergency_of_emergency hon]
  | false =>
    rw [beginEmergency_of_none hon]
    exact ((h.withDamper hq _).wr hl (by decide) 1).raise _ _

/-- What a sample leaves, whether or not it begins an emergency. -/
theorem tempSample_shows {i : Nat} {v : Int} (hlow : -320 ≤ v) (hhigh : v ≤ 1200) (s : State) :
    (tempSample i v s).rd (R.PWR_TEMP_TEMP i) = twos16 v ∧ (tempSample i v s).rd (R.PWR_TEMP_VALID i) = 1 ∧
    (tempSample i v s).rdb R.DMP_STATUS_EMERGENCY = (s.rdb R.DMP_STATUS_EMERGENCY || decide (880 ≤ v)) ∧
    tickHighest (tempSample i v s) i = some (highestWith s i v) ∧
    Within (sampleFields i) [.damper] s (tempSample i v s) := by
  rw [tempSample_inRange hlow hhigh]
  by_cases hhot : 880 ≤ v
  · rw [if_pos hhot]
    obtain ⟨hon, hrd, hmax⟩ := beginEmergency_shows (sensorDie i) (sampled i v s)
    have hne : R.DMP_STATUS_EMERGENCY.addr ≠ 0x1B0200 + 0x4 * i := by simp only [R.DMP_STATUS_EMERGENCY]; omega
    refine ⟨(hrd _ (.inl hne)).trans sampled_temp, (hrd _ (.inl hne)).trans sampled_valid, by simp [hon, hhot], ?_,
      sampled_within.beginEmergency (by simp) (by simp) _⟩
    rw [tickHighest, hmax]
    exact sampled_highest
  · rw [if_neg hhot]
    exact ⟨sampled_temp, sampled_valid, by simp [sampled_emergency, hhot], sampled_highest, sampled_within⟩

theorem tempSample_takes (s : State) (i : Nat) (v : Int) (hi : i < 24) (hlow : -320 ≤ v) (hhigh : v ≤ 1200) :
    ∃ t, exec (.tempSample i v) s = .next t ∧
      t.rd (R.PWR_TEMP_TEMP i) = twos16 v ∧ t.rdb (R.PWR_TEMP_VALID i) = true ∧
      t.rdb R.DMP_STATUS_EMERGENCY = (s.rdb R.DMP_STATUS_EMERGENCY || decide (880 ≤ v)) ∧
      tickHighest t i = some (highestWith s i v) ∧
      FieldsOnly (sampleFields i) s t ∧ ChangesOnly [.regs, .evq, .sent, .damper] s t := by
  refine ⟨_, exec_of_wf (decide_eq_true hi) rfl, ?_⟩
  obtain ⟨htemp, hvalid, hemergency, hmax, hwithin⟩ := tempSample_shows hlow hhigh s
  refine ⟨?_, ?_, ?_, ?_, hwithin.queue (.flushEvents _)⟩
  · rw [State.flushEvents_rd _ _ (temp_notQueue i), htemp]
  · rw [State.flushEvents_rdb _ _ (temp_notQueue i), State.rdb, hvalid]
    rfl
  · rw [State.flushEvents_rdb _ _ (by decide), hemergency]
  · rw [tickHighest, State.flushEvents_damper]
    exact hmax

/-! ### The registers that follow the actions in force -/

/-- The fields of DMP_STATUS that a refresh writes, and two that it leaves as they were decided. -/
abbrev refreshedFields : List Fld := [R.DMP_STATUS_STAGE, R.DMP_STATUS_REELS_REDUCED, R.DMP_STATUS_RESTED]
abbrev decidedFields : List Fld := [R.DMP_STATUS_EMERGENCY, R.DMP_STATUS_EXHAUSTED]

/-- A field that a refresh may write: of DMP_STATUS only the refreshed ones. -/
abbrev Refreshed (f : Fld) : Prop := f.addr ≠ R.DMP_STATUS_STAGE.addr ∨ f ∈ refreshedFields

section
variable {P : State → Prop} (hP : ∀ {t : State} {f : Fld} {v : Nat}, P t → Refreshed f → P (t.wr f v)) {s : State}
include hP

theorem setLevel_of_wr (p : Nat × Nat) (hs : P s) : P (setLevel s p) := by
  obtain ⟨r, v⟩ := p
  have hlevel : Refreshed (levelFld r) := .inl (by simp only [levelFld, R.DMP_REEL_LEVEL_LEVELS, R.DMP_STATUS_STAGE]; omega)
  have hreel : Refreshed (R.REEL_STATUS_LEVEL r) := .inl (by simp only [R.REEL_STATUS_LEVEL, R.DMP_STATUS_STAGE]; omega)
  have henc : Refreshed (R.ENC_STATUS_STATE r) := .inl (by simp only [R.ENC_STATUS_STATE, R.DMP_STATUS_STAGE]; omega)
  unfold setLevel
  exact closed_ite (hP (hP (hP hs hlevel) hreel) henc) (hP (hP hs hlevel) hreel)

theorem refreshClocks_of_wr (hs : P s) : P (refreshClocks s) := by
  have hclock (r : Nat) : Refreshed (clockFld r) :=
    .inl (by simp [clockFld, R.GLB_REGION_STAT_REGION0, R.DMP_STATUS_STAGE])
  exact closed_foldl (fun _ r ht => closed_ite ht (hP ht (hclock r))) hs

theorem refreshDamper_of_wr (hs : P s) : P (refreshDamper s).2 := by
  unfold refreshDamper
  extract_lets lv ch s1 stage evs s2 s3 n
  have h1 : P s1 := closed_foldl (fun _ p ht => setLevel_of_wr hP p ht) hs
  have h2 : P s2 := hP h1 (.inr (by simp))
  have h3 : P s3 := hP h2 (.inr (by simp))
  exact refreshClocks_of_wr hP (hP h3 (.inr (by simp)))

end

/-- From `s` to `t` only registers change, and of DMP_STATUS no decided field. -/
def RefreshOnly (s t : State) : Prop := ChangesOnly [.regs] s t ∧ ∀ g ∈ decidedFields, t.rd g = s.rd g

theorem RefreshOnly.wr {s t : State} {f : Fld} (h : RefreshOnly s t) (hf : Refreshed f) (v : Nat) : RefreshOnly s (t.wr f v) := by
  refine ⟨(ChangesOnly.closed _ s).wr (by simp) t f v h.1, fun g hg => Eq.trans ?_ (h.2 g hg)⟩
  rcases hf with hne | hf
  · have haddr : ∀ g ∈ decidedFields, g.addr = R.DMP_STATUS_STAGE.addr := by decide
    exact State.rd_wr_elsewhere _ _ (by rw [haddr g hg]; exact hne.symm)
  · have hapart : ∀ f ∈ refreshedFields, FldOk f ∧ ∀ g ∈ decidedFields, FldApart f g := by decide
    obtain ⟨hok, hdecided⟩ := hapart f hf
    exact State.rd_wr_apart _ _ _ _ hok (hdecided g hg)

theorem refreshDamper_only (s : State) : RefreshOnly s (refreshDamper s).2 :=
  refreshDamper_of_wr (fun h hf => h.wr hf _) ⟨.refl _ s, fun _ _ => rfl⟩

/-! ### THERM_CLEAR (R272) -/

theorem rebuildDamper_rd (s : State) (f : Fld) : (rebuildDamper s).rd f = s.rd f := rfl

theorem thermClear_ends (s : State) (hon : s.rdb R.DMP_STATUS_EMERGENCY = true) (hcool : 64 ≤ s.damper.coolRun) :
    ∃ t, exec (.thermClear) s = .next t ∧
      t.rdb R.DMP_STATUS_EMERGENCY = false ∧ ChangesOnly [.regs, .evq, .sent, .tick, .damper, .comp] s t := by
  refine ⟨_, exec_of_wf rfl rfl, ?_⟩
  obtain ⟨hparts, hdecided⟩ := refreshDamper_only (s.wr R.DMP_STATUS_EMERGENCY 0)
  rw [thermClear, if_pos (by simp [hon, hcool])]
  generalize refreshDamper (s.wr R.DMP_STATUS_EMERGENCY 0) = p at hparts hdecided
  obtain ⟨e, u⟩ := p
  have hqueue := QueueOnly.raiseEdges ((0x0A08, 0) :: e) u
  refine ⟨?_, ?_⟩
  · rw [State.flushEvents_rdb _ _ (by decide), State.rdb, rebuildDamper_rd, hqueue.rd _ (by decide), hdecided _ (by simp),
      State.rd_wr _ _ _ (by decide)]
    rfl
  · have hc := ChangesOnly.closed [.regs, .evq, .sent, .tick, .damper, .comp] s
    have hcleared := hc.wr (by simp) s R.DMP_STATUS_EMERGENCY 0 (.refl _ s)
    have hrefreshed := hcleared.trans (hparts.mono (by simp))
    exact (hc.tick (by simp) _ _ (hrefreshed.queue hqueue (by simp))).queue (.flushEvents _) (by simp)

/-! ### The records of lost rectangles -/

theorem unitsOf_of_noAction {action : Nat} (hact : action ∉ [1, 2, 6]) (level object : Nat) : unitsOf action level object = [] := by
  simp only [List.mem_cons, List.not_mem_nil, or_false, not_or] at hact
  obtain ⟨hunit, hcluster, hregion⟩ := hact
  rw [unitsOf, if_neg hunit, if_neg hcluster, if_neg hregion]

section
variable {P : State → Prop} (hP : LogKeeps P) {s : State}
include hP

/-- A fault whose action withdraws nothing escalates no record and stops no cue. -/
theorem LogKeeps.detect_of_noAction {code : Nat} (hact : builtinAction code ∉ [1, 2, 6]) (level object : Nat) (injected : Bool)
    (hs : P s) : P (detect code level object injected s) := by
  have hunits := unitsOf_of_noAction hact level object
  unfold Machine.detect
  extract_lets a opens
  split
  · exact hP.raiseAll (hP.writeRecord _ _ _ _ _ _ _ hs)
  · split
    next i hi =>
      have := List.find?_some hi
      simp [a, hact] at this
    next =>
      rw [hunits]
      exact hP.raiseAll (hP.stopCues_nil _ (hP.writeRecord _ _ _ _ _ _ _ hs))

theorem LogKeeps.checkLost (hs : P s) : P (checkLost s) :=
  closed_foldl (fun _ _ ht => closed_ite (hP.rects (hP.detect_of_noAction (by decide) _ _ _ (hP.rects ht))) ht) hs

end

/-! ### DAMPER_RELAX (R260, R270) -/

/-- The damper has `as` in force, begins a new run, waits for no edge, and is not exhausted. -/
structure Relaxed (as : List DmpTaken) (t : State) : Prop where
  actions : t.damper.actions = as
  relaxRun : t.damper.relaxRun = 0
  wait : t.damper.wait = 0
  exhausted : t.rd R.DMP_STATUS_EXHAUSTED = 0

section
variable {as : List DmpTaken} {t u : State}

theorem Relaxed.of_damper (h : Relaxed as t) (hd : u.damper = t.damper)
    (he : u.rd R.DMP_STATUS_EXHAUSTED = t.rd R.DMP_STATUS_EXHAUSTED) : Relaxed as u :=
  ⟨by rw [hd, h.actions], by rw [hd, h.relaxRun], by rw [hd, h.wait], he.trans h.exhausted⟩

theorem Relaxed.queue (h : Relaxed as t) (k : QueueOnly t u) : Relaxed as u := h.of_damper k.damper (k.rd _ (by decide))

theorem Relaxed.refreshDamper (h : Relaxed as t) : Relaxed as (refreshDamper t).2 := by
  obtain ⟨hparts, hdecided⟩ := refreshDamper_only t
  exact h.of_damper (hparts .damper (by decide)) (hdecided _ (by simp))

theorem Relaxed.logKeeps (as : List DmpTaken) : LogKeeps (Relaxed as) where
  wr {s f v} h hf := h.of_damper rfl (State.rd_wr_elsewhere s v fun e => by rw [← e] at hf; exact absurd hf (by decide))
  raise h := h.queue (.raise _ _ _)
  faults h _ := h.of_damper rfl rfl
  rects h := h.of_damper rfl rfl

/-- The end of a rest, without its event. -/
def restEnded (f : Nat) (t : State) : State :=
  setBit R.DMP_RESTED_FLUES f false (withDamper { t.damper with announcing := t.damper.announcing.filter (·.1 != f) } t)

theorem endAction_rest (f : Nat) (t : State) : (endAction (.rest f) t).2 = restEnded f t := by
  simp only [Machine.endAction, restEnded, withDamper]

theorem restEnded_damper (f : Nat) (t : State) :
    (restEnded f t).damper = { t.damper with announcing := t.damper.announcing.filter (·.1 != f) } := by
  rw [restEnded, setBit, State.wr_damper, withDamper_damper]

theorem Relaxed.endAction (h : Relaxed as t) (a : DmpAction) : Relaxed as (endAction a t).2 := by
  cases a with
  | rest f =>
    rw [endAction_rest]
    have hbit : (restEnded f t).rd R.DMP_STATUS_EXHAUSTED = t.rd R.DMP_STATUS_EXHAUSTED := by
      rw [restEnded, setBit, State.rd_wr_apart _ _ _ _ (by decide) (by decide), withDamper_rd]
    constructor
    · rw [restEnded_damper, h.actions]
    · rw [restEnded_damper, h.relaxRun]
    · rw [restEnded_damper, h.wait]
    · rw [hbit, h.exhausted]
  | _ => exact h

theorem undoAction_cons {a : DmpTaken} (h : t.damper.actions = a :: as) : undoAction t =
    endAction a.act (withDamper { t.damper with actions := as } (t.wr R.DMP_STATUS_EXHAUSTED 0)) := by
  simp only [undoAction, h, withDamper]

/-- Undoing the latest action leaves the others in force. -/
theorem undoAction_relaxed {a : DmpTaken} (h : t.damper.actions = a :: as) : Relaxed as (undoAction (setWait 0 0 t)).2 := by
  have hacts : (setWait 0 0 t).damper.actions = a :: as := h
  have hexhausted : ((setWait 0 0 t).wr R.DMP_STATUS_EXHAUSTED 0).rd R.DMP_STATUS_EXHAUSTED = 0 := by
    rw [State.rd_wr _ _ _ (by decide), Nat.zero_mod]
  rw [undoAction_cons hacts]
  refine Relaxed.endAction ?_ a.act
  exact ⟨rfl, rfl, rfl, hexhausted⟩

theorem Relaxed.rebuildDamper (h : Relaxed as t) : Relaxed as (rebuildDamper t) :=
  ⟨h.actions, h.relaxRun, h.wait, h.exhausted⟩

theorem damperRelax_relaxed {a : DmpTaken} (hoff : t.rdb R.DMP_STATUS_EMERGENCY = false)
    (hrun : max 1 (t.rd R.DMP_RELAX_RELAX_TICKS) ≤ t.damper.relaxRun) (hacts : t.damper.actions = a :: as) :
    Relaxed as (damperRelax t) := by
  have hundone := undoAction_relaxed hacts
  have hdue : ¬(t.damper.relaxRun < max 1 (t.rd R.DMP_RELAX_RELAX_TICKS) ∨ t.damper.actions.isEmpty = true ∨
      t.rdb R.DMP_STATUS_EMERGENCY = true) := by
    simp [hoff, hacts]
    omega
  unfold damperRelax
  extract_lets lim
  rw [if_neg hdue]
  generalize undoAction (setWait 0 0 t) = p at hundone
  obtain ⟨e1, u⟩ := p
  have hrefreshed := hundone.refreshDamper
  dsimp only at hrefreshed ⊢
  generalize refreshDamper u = q at hrefreshed
  obtain ⟨e2, v⟩ := q
  exact (Relaxed.logKeeps as).checkLost (hrefreshed.queue (.raiseEdges _ _)).rebuildDamper

end

theorem damperRelax_undoes (s : State) (a : DmpTaken) (as : List DmpTaken) (hoff : s.rdb R.DMP_STATUS_EMERGENCY = false)
    (hrun : max 1 (s.rd R.DMP_RELAX_RELAX_TICKS) ≤ s.damper.relaxRun) (hacts : s.damper.actions = a :: as) :
    ∃ t, exec (.damperRelax) s = .next t ∧
      t.damper.actions = as ∧ t.damper.relaxRun = 0 ∧ t.damper.wait = 0 ∧ t.rd R.DMP_STATUS_EXHAUSTED = 0 := by
  obtain ⟨hactions, hrelax, hwait, hexhausted⟩ := (damperRelax_relaxed hoff hrun hacts).queue (.flushEvents _)
  exact ⟨_, exec_of_wf rfl rfl, hactions, hrelax, hwait, hexhausted⟩

/-- Settles O30, command by command. -/
theorem thermalCommands : Obligations.ThermalCommands := by
  unfold Obligations.ThermalCommands
  exact ⟨tempSample_takes, tempSample_outOfRange, sensorFail_clearsValid, thermClear_ends, fun s a as _ => damperRelax_undoes s a as⟩

end Sys2Proof.Machine

/-!
PROOFS. Reception of a decode reel (chapter 12): what intake and the engines' taking of work leave of a reel's reception (R284 to
R287), and its sender reports (R288).
-/
namespace Sys2Proof.Machine

/-! ### The codec's state by object -/

section
variable {l : List Fld} {q : List Part} {s t : State}

theorem QueueOnly.codec (h : QueueOnly s t) : t.codec = s.codec := h.same .codec (by decide)

theorem QueueOnly.reel (h : QueueOnly s t) (r : Nat) : t.reel r = s.reel r := by unfold State.reel; rw [h.codec]

theorem QueueOnly.enc (h : QueueOnly s t) (e : Nat) : t.enc e = s.enc e := by unfold State.enc; rw [h.codec]

theorem QueueOnly.engine (h : QueueOnly s t) (v : Nat) : t.engine v = s.engine v := by unfold State.engine; rw [h.codec]

@[simp] theorem State.flushEvents_reel (s : State) (r : Nat) : s.flushEvents.reel r = s.reel r := (QueueOnly.flushEvents s).reel r

@[simp] theorem State.raise_reel (s : State) (c o r : Nat) : (s.raise c o).reel r = s.reel r := (QueueOnly.raise s c o).reel r

@[simp] theorem State.wr_reel (s : State) (f : Fld) (v r : Nat) : (s.wr f v).reel r = s.reel r := by
  unfold State.reel; rw [State.wr_codec]

theorem State.reel_of_damper (s : State) (o : DamperState) (r : Nat) : ({ s with damper := o } : State).reel r = s.reel r := rfl

@[simp] theorem State.setReel_monoNs (s : State) (r : Nat) (o : ReelState) : (s.setReel r o).monoNs = s.monoNs := rfl

theorem Within.setReel (h : Within l q s t) (hq : .codec ∈ q) (r : Nat) (o : ReelState) : Within l q s (t.setReel r o) :=
  ⟨h.1.of_regs rfl, (ChangesOnly.closed _ s).codec (by simp [hq]) t _ h.2⟩

end

theorem reelMapped_ok (r : Nat) : FldOk (R.REEL_STATUS_MAPPED r) := by simp [FldOk, R.REEL_STATUS_MAPPED]
theorem reelSilent_ok (r : Nat) : FldOk (R.REEL_STATUS_SILENT r) := by simp [FldOk, R.REEL_STATUS_SILENT]

theorem reelStatus_notQueue (r : Nat) : queueOffset (0x100040 + 0x400 * r) = false := queueOffset_above (by omega)

/-! ### Silence, sender reports and their loss -/

theorem decSilent_of_silent {s : State} {r : Nat} (hup : (s.reel r).up = true) (hms : s.rd (R.REEL_JB_LOSS_MS r) ≠ 0)
    (hheard : s.rdb (R.REEL_STATUS_SILENT r) = false)
    (hdue : (s.reel r).acceptedNs + s.rd (R.REEL_JB_LOSS_MS r) * 1000000 ≤ s.monoNs) :
    decSilent r s = (s.wr (R.REEL_STATUS_SILENT r) 1).raise 0x0D0B r := by
  simp [decSilent, hup, hms, hheard, hdue]

theorem decSilent_sets (s : State) (r : Nat) (hr : r < 128) (hup : (s.reel r).up = true) (hms : s.rd (R.REEL_JB_LOSS_MS r) ≠ 0)
    (hheard : s.rdb (R.REEL_STATUS_SILENT r) = false)
    (hdue : (s.reel r).acceptedNs + s.rd (R.REEL_JB_LOSS_MS r) * 1000000 ≤ s.monoNs) :
    ∃ t, exec (.decSilent r) s = .next t ∧ t.rdb (R.REEL_STATUS_SILENT r) = true ∧ Within [R.REEL_STATUS_SILENT r] [] s t := by
  refine ⟨_, exec_of_wf (by simpa [WellFormed, Instr.wf] using hr) rfl, ?_⟩
  rw [decSilent_of_silent hup hms hheard hdue]
  refine ⟨?_, (((Within.refl _ _ s).wr (by simp) (reelSilent_ok r) 1).raise _ _).queue (.flushEvents _)⟩
  rw [State.flushEvents_rdb _ _ (reelStatus_notQueue r), State.rdb, State.raise_rd, State.rd_wr _ _ _ (reelSilent_ok r)]
  rfl

/-- Reel `st` with the sender report `x` from `src` that arrives at `now` (R288, R408). -/
def ReelState.withReport (st : ReelState) (x src : Nat × Nat) (now : Nat) : ReelState :=
  { st with sr := some (x.1, x.2, now), srFrom := src, srLost := false, rrNs := if st.sr.isNone then now else st.rrNs }

theorem rtcpSrReceived_of_up {s : State} {r : Nat} (hup : (s.reel r).up = true) (ntp rtp addr udp : Nat) :
    ∃ v, rtcpSrReceived r ntp rtp addr udp s =
      (s.setReel r ((s.reel r).withReport (ntp, rtp) (addr, udp) s.monoNs)).wr (R.REEL_STATUS_MAPPED r) v :=
  ⟨_, by simp only [rtcpSrReceived, hup, if_true, ReelState.withReport]; rfl⟩

theorem rtcpSrReceived_keeps (s : State) (r ntp rtp addr udp : Nat) (hr : r < 128) (hup : (s.reel r).up = true) :
    ∃ t, exec (.rtcpSrReceived r ntp rtp addr udp) s = .next t ∧
      (t.reel r).sr = some (ntp, rtp, s.monoNs) ∧ (t.reel r).srFrom = (addr, udp) ∧ (t.reel r).srLost = false ∧
      (∀ q, q ≠ r → t.reel q = s.reel q) ∧ Within [R.REEL_STATUS_MAPPED r] [.codec] s t := by
  obtain ⟨v, heff⟩ := rtcpSrReceived_of_up hup ntp rtp addr udp
  refine ⟨_, exec_of_wf (by simpa [WellFormed, Instr.wf] using hr) rfl, ?_⟩
  rw [heff]
  have hreel (q : Nat) : (((s.setReel r ((s.reel r).withReport (ntp, rtp) (addr, udp) s.monoNs)).wr (R.REEL_STATUS_MAPPED r)
      v).flushEvents).reel q = if q = r then (s.reel r).withReport (ntp, rtp) (addr, udp) s.monoNs else s.reel q := by simp
  refine ⟨by rw [hreel, if_pos rfl]; rfl, by rw [hreel, if_pos rfl]; rfl, by rw [hreel, if_pos rfl]; rfl,
    fun q hq => by rw [hreel, if_neg hq], ?_⟩
  exact (((Within.refl _ _ s).setReel (by simp) _ _).wr (by simp) (reelMapped_ok r) v).queue (.flushEvents _)

/-- When a reel last heard a sender report; before the first, when it came up (R288). -/
def ReelState.heardNs (st : ReelState) : Nat := st.sr.elim st.upNs fun x => x.2.2

theorem decSrLost_of_lost {s : State} {r : Nat} (hup : (s.reel r).up = true) (hstamp : s.rdb (R.REEL_CFG_STAMP r) = true)
    (hnew : (s.reel r).srLost = false)
    (hdue : (s.reel r).heardNs + max 1 (s.rd (R.REEL_SR_TIMEOUT_100MS r)) * 100000000 ≤ s.monoNs) :
    decSrLost r s = ((s.setReel r { s.reel r with srLost := true }).wr (R.REEL_STATUS_MAPPED r) 0).raise 0x0D09 r := by
  cases hsr : (s.reel r).sr with
  | none => simp_all [decSrLost, ReelState.heardNs]
  | some x => simp_all [decSrLost, ReelState.heardNs]

theorem decSrLost_clears (s : State) (r : Nat) (hr : r < 128) (hup : (s.reel r).up = true)
    (hstamp : s.rdb (R.REEL_CFG_STAMP r) = true) (hnew : (s.reel r).srLost = false)
    (hdue : (s.reel r).heardNs + max 1 (s.rd (R.REEL_SR_TIMEOUT_100MS r)) * 100000000 ≤ s.monoNs) :
    ∃ t, exec (.decSrLost r) s = .next t ∧ t.reel r = { s.reel r with srLost := true } ∧
      t.rdb (R.REEL_STATUS_MAPPED r) = false ∧ Within [R.REEL_STATUS_MAPPED r] [.codec] s t := by
  refine ⟨_, exec_of_wf (by simpa [WellFormed, Instr.wf] using hr) rfl, ?_⟩
  rw [decSrLost_of_lost hup hstamp hnew hdue]
  refine ⟨by simp, ?_, ?_⟩
  · rw [State.flushEvents_rdb _ _ (reelStatus_notQueue r), State.rdb, State.raise_rd, State.rd_wr _ _ _ (reelMapped_ok r)]
    rfl
  · exact ((((Within.refl _ _ s).setReel (by simp) _ _).wr (by simp) (reelMapped_ok r) 0).raise _ _).queue (.flushEvents _)

/-! ### What intake keeps -/

/-- A reel's access units being collected are some of those before; of its reception the rest is as before. -/
structure ReceptionKept (st o : ReelState) : Prop where
  ssrc : o.ssrc = st.ssrc
  highSeq : o.highSeq = st.highSeq
  acceptedNs : o.acceptedNs = st.acceptedNs
  opens : o.open_ ⊆ st.open_

theorem ReceptionKept.of_eq {st o : ReelState} (hssrc : o.ssrc = st.ssrc := by rfl) (hhigh : o.highSeq = st.highSeq := by rfl)
    (haccepted : o.acceptedNs = st.acceptedNs := by rfl) (hopens : o.open_ = st.open_ := by rfl) : ReceptionKept st o :=
  ⟨hssrc, hhigh, haccepted, hopens ▸ List.Subset.refl _⟩

/-- A field of a word, and no part of REEL_STATUS.SILENT. -/
structure NotSilence (f : Fld) : Prop where
  ok : FldOk f
  apart : ∀ r, FldApart f (R.REEL_STATUS_SILENT r)

/-- What survives a packet that leaves an Ethernet port: events, the port's cache and its count of packets dropped (R406, R409). -/
structure SendKeeps (P : State → Prop) : Prop where
  queue : ∀ {s t : State}, QueueOnly s t → P s → P t
  setPort : ∀ (s : State) (p : Nat) (o : PortState), P s → P (s.setPort p o)
  dropCount : ∀ (s : State) (i v : Nat), P s → P (s.wr (R.PORT_ETH_DROP_TX i) v)

theorem SendKeeps.sendNet {P : State → Prop} (hP : SendKeeps P) (p dst : Nat) (m : Sent) (s : State) (hs : P s) :
    P (sendNet p dst m s) := by
  have hsend (t : State) (m : Sent) (ht : P t) : P (t.send m) := hP.queue (.send t m) ht
  unfold Machine.sendNet
  refine closed_ite hs (closed_ite (hP.queue (.raiseOnce _ _ _) (hP.dropCount _ _ _ hs)) (closed_ite (hsend _ _ hs) ?_))
  extract_lets hop o use s1
  split
  · exact hsend _ _ (hP.setPort _ _ _ hs)
  · exact hsend _ _ (hP.setPort _ _ _ hs)

/-- What survives intake: events, registers other than SILENT, ports, encode reels, engines, the damper's stamps, and any change
of a reel that keeps its reception (R284 to R287). -/
structure IntakeKeeps (P : State → Prop) : Prop where
  queue : ∀ {s t : State}, QueueOnly s t → P s → P t
  wr : ∀ (s : State) {f : Fld} (v : Nat), NotSilence f → P s → P (s.wr f v)
  setPort : ∀ (s : State) (p : Nat) (o : PortState), P s → P (s.setPort p o)
  setReel : ∀ (s : State) (q : Nat) {o : ReelState}, ReceptionKept (s.reel q) o → P s → P (s.setReel q o)
  setEnc : ∀ (s : State) (e : Nat) (o : EncState), P s → P (s.setEnc e o)
  setEngine : ∀ (s : State) (v : Nat) (o : EngineState), P s → P (s.setEngine v o)
  damper : ∀ (s : State) (o : DamperState), P s → P { s with damper := o }

/-- No offset ending in other than 0x40 is that of a REEL_STATUS. -/
theorem NotSilence.of_offset {f : Fld} (hok : FldOk f) (h : f.addr % 0x100 ≠ 0x40) : NotSilence f :=
  ⟨hok, fun r => .inl (by simp only [R.REEL_STATUS_SILENT]; omega)⟩

theorem notSilence_state (r : Nat) : NotSilence (R.REEL_STATUS_STATE r) :=
  ⟨by simp [FldOk, R.REEL_STATUS_STATE], fun _ => .inr (.inr (by simp [R.REEL_STATUS_STATE, R.REEL_STATUS_SILENT]))⟩

theorem notSilence_profile (r : Nat) : NotSilence (R.REEL_STATUS_PROFILE r) :=
  ⟨by simp [FldOk, R.REEL_STATUS_PROFILE], fun _ => .inr (.inl (by simp [R.REEL_STATUS_PROFILE, R.REEL_STATUS_SILENT]))⟩

theorem notSilence_levelIdc (r : Nat) : NotSilence (R.REEL_STATUS_LEVEL_IDC r) :=
  ⟨by simp [FldOk, R.REEL_STATUS_LEVEL_IDC], fun _ => .inr (.inl (by simp [R.REEL_STATUS_LEVEL_IDC, R.REEL_STATUS_SILENT]))⟩

theorem notSilence_unsup (r : Nat) : NotSilence (R.REEL_STATUS_UNSUP r) :=
  ⟨by simp [FldOk, R.REEL_STATUS_UNSUP], fun _ => .inr (.inl (by simp [R.REEL_STATUS_UNSUP, R.REEL_STATUS_SILENT]))⟩

theorem notSilence_lost (r : Nat) : NotSilence (R.REEL_PKT_LOST r) :=
  .of_offset (by simp [FldOk, R.REEL_PKT_LOST]) (by simp only [R.REEL_PKT_LOST]; omega)

theorem notSilence_late (r : Nat) : NotSilence (R.REEL_PKT_LATE r) :=
  .of_offset (by simp [FldOk, R.REEL_PKT_LATE]) (by simp only [R.REEL_PKT_LATE]; omega)

theorem notSilence_dropped (r : Nat) : NotSilence (R.REEL_PICS_DROPPED r) :=
  .of_offset (by simp [FldOk, R.REEL_PICS_DROPPED]) (by simp only [R.REEL_PICS_DROPPED]; omega)

theorem notSilence_syntax (r : Nat) : NotSilence (R.REEL_ERR_SYNTAX r) :=
  .of_offset (by simp [FldOk, R.REEL_ERR_SYNTAX]) (by simp only [R.REEL_ERR_SYNTAX]; omega)

theorem notSilence_encState (e : Nat) : NotSilence (R.ENC_STATUS_STATE e) :=
  .of_offset (by simp [FldOk, R.ENC_STATUS_STATE]) (by simp only [R.ENC_STATUS_STATE]; omega)

theorem notSilence_dropTx (i : Nat) : NotSilence (R.PORT_ETH_DROP_TX i) :=
  .of_offset (by simp [FldOk, R.PORT_ETH_DROP_TX]) (by simp only [R.PORT_ETH_DROP_TX]; omega)

section
variable {P : State → Prop} (hP : IntakeKeeps P)
include hP

theorem IntakeKeeps.sends : SendKeeps P where
  queue := hP.queue
  setPort := hP.setPort
  dropCount s i v := hP.wr s v (notSilence_dropTx i)

theorem IntakeKeeps.sendPli (r keyreq : Nat) (s : State) (hs : P s) : P (sendPli r keyreq s).2 := by
  unfold Machine.sendPli
  extract_lets st gap early
  split
  · exact hs
  · exact hP.sends.sendNet _ _ _ _ (hP.setReel _ _ .of_eq hs)

theorem IntakeKeeps.parseAu (r : Nat) (a : AccessUnit) (s : State) (hs : P s) : P (parseAu r a s) := by
  unfold Machine.parseAu
  extract_lets st bad o s1
  have h1 : P s1 := hP.setReel _ _ .of_eq hs
  exact closed_when (hP.queue (.raiseOnce _ _ _)) (hP.wr _ _ (notSilence_syntax r) h1)

theorem IntakeKeeps.countDropped (r : Nat) (s : State) (hs : P s) : P (countDropped r s) := hP.wr _ _ (notSilence_dropped r) hs

theorem IntakeKeeps.takeAu (r : Nat) (a : AccessUnit) (s : State) (hs : P s) : P (takeAu r a s).2 := by
  unfold Machine.takeAu
  extract_lets s1 c par u lvl was intra o s2 s3
  have h1 : P s1 := hP.parseAu r a s hs
  clear_value s1
  split
  · split
    · exact h1
    · exact hP.queue (.raise _ _ _) (hP.wr _ _ (notSilence_unsup r) (hP.wr _ _ (notSilence_state r) (hP.setReel _ _ .of_eq h1)))
  have h3 : P s3 := closed_ite (hP.wr _ _ (notSilence_unsup r) (hP.wr _ _ (notSilence_state r) h1)) h1
  clear_value s3 par u
  split
  · exact h1
  split
  · exact h1
  extract_lets s4
  have h4 : P s4 := hP.wr _ _ (notSilence_levelIdc r) (hP.wr _ _ (notSilence_profile r) h3)
  clear_value s4
  split
  · exact hP.countDropped r _ h4
  split
  · exact closed_ite (hP.sendPli _ _ _ h4) h4
  · exact hP.setReel _ _ .of_eq h4

theorem IntakeKeeps.saveContext (v r : Nat) (s : State) (hs : P s) : P (saveContext v r s) := by
  unfold Machine.saveContext
  split
  · exact hs
  · exact closed_ite hs (hP.setReel _ _ .of_eq hs)

theorem IntakeKeeps.engineTake (d n : Nat) (s : State) (hs : P s) : P (engineTake d n s) := by
  induction n generalizing s with
  | zero => exact hs
  | succ n ih =>
    unfold Machine.engineTake
    split
    · exact hs
    split
    · exact hs
    have htaken (r : Nat) (a : AccessUnit) :
        P (Machine.takeAu r a (s.setReel r { s.reel r with ready := (s.reel r).ready.drop 1 })).2 :=
      hP.takeAu r a _ (hP.setReel _ _ .of_eq hs)
    split
    · split
      · exact hs
      next a _ => exact ih _ (closed_ite (hP.setEngine _ _ _ (hP.saveContext _ _ _ (htaken _ a))) (htaken _ a))
    · exact ih _ (hP.wr _ _ (notSilence_encState _) (hP.setEngine _ _ _ (hP.setEnc _ _ _ (hP.saveContext _ _ _ hs))))

theorem IntakeKeeps.dispatchEngines (s : State) (hs : P s) : P (dispatchEngines s) :=
  hP.engineTake _ _ _ (hP.engineTake _ _ _ hs)

theorem IntakeKeeps.setLost (r n : Nat) (s : State) (hs : P s) : P (setLost r n s) :=
  hP.wr _ _ (notSilence_lost r) (hP.setReel _ _ .of_eq hs)

theorem IntakeKeeps.makeReady (r : Nat) (s : State) (a : AccessUnit) (hs : P s) : P (makeReady r s a) := by
  unfold Machine.makeReady
  extract_lets st gone s1 c q o s2 lvl now old d s3
  have h1 : P s1 := hP.setLost r _ s hs
  have hst : s1.reel r = { st with lost := st.lost + gone.length } := by simp [s1, Machine.setLost, st]
  have h2 : P s2 := hP.setReel _ _ ⟨rfl, rfl, rfl, by rw [hst]; exact List.filter_subset_self _⟩ h1
  have h3 : P s3 := hP.damper _ _ h2
  exact closed_ite (hP.queue (.raiseOnce _ _ _) (hP.countDropped r _ h3)) h3

theorem IntakeKeeps.expireAus (r : Nat) (s : State) (hs : P s) : P (expireAus r s) := closed_foldl (hP.makeReady r) hs

theorem IntakeKeeps.readyAus (r n : Nat) (s : State) (hs : P s) : P (readyAus r n s) := by
  induction n generalizing s with
  | zero => exact hs
  | succ n ih =>
    unfold Machine.readyAus
    split
    · exact hs
    · exact ih _ (hP.makeReady r s _ hs)

end

/-- The parts that intake changes. -/
abbrev intakeParts : List Part := queueParts ++ [.codec, .damper, .ports]

theorem ChangesOnly.intakeKeeps {K : List Part} (hK : intakeParts ⊆ K) (s : State) : IntakeKeeps (ChangesOnly K s) where
  queue k h := h.queue k (List.Subset.trans (by simp) hK)
  wr t _ v _ h := (ChangesOnly.closed K s).wr (hK (by decide)) t _ v h
  setPort t p o h := (ChangesOnly.closed K s).setPort (hK (by decide)) t p o h
  setReel t q _ _ h := (ChangesOnly.closed K s).setReel (hK (by decide)) t q _ h
  setEnc t e o h := (ChangesOnly.closed K s).setEnc (hK (by decide)) t e o h
  setEngine t v o h := (ChangesOnly.closed K s).setEngine (hK (by decide)) t v o h
  damper t o h := (ChangesOnly.closed K s).damper (hK (by decide)) t o h

/-- Of reel `r` the SSRC taken, the highest sequence number, the time of the last packet accepted and SILENT are as in `s`, and so is
the present time. -/
structure SameReception (r : Nat) (s t : State) : Prop where
  ssrc : (t.reel r).ssrc = (s.reel r).ssrc
  highSeq : (t.reel r).highSeq = (s.reel r).highSeq
  acceptedNs : (t.reel r).acceptedNs = (s.reel r).acceptedNs
  silent : t.rd (R.REEL_STATUS_SILENT r) = s.rd (R.REEL_STATUS_SILENT r)
  monoNs : t.monoNs = s.monoNs

theorem SameReception.refl (r : Nat) (s : State) : SameReception r s s := ⟨rfl, rfl, rfl, rfl, rfl⟩

theorem SameReception.of_reel {r : Nat} {s t u : State} (h : SameReception r s t) (hreel : u.reel r = t.reel r)
    (hsilent : u.rd (R.REEL_STATUS_SILENT r) = t.rd (R.REEL_STATUS_SILENT r)) (hnow : u.monoNs = t.monoNs) :
    SameReception r s u :=
  ⟨hreel ▸ h.ssrc, hreel ▸ h.highSeq, hreel ▸ h.acceptedNs, hsilent.trans h.silent, hnow.trans h.monoNs⟩

theorem SameReception.queue {r : Nat} {s t u : State} (h : SameReception r s t) (k : QueueOnly t u) : SameReception r s u :=
  h.of_reel (k.reel r) (k.rd _ (reelStatus_notQueue r)) k.monoNs

theorem SameReception.setReel {r q : Nat} {s t : State} {o : ReelState} (h : SameReception r s t)
    (hssrc : o.ssrc = (t.reel q).ssrc) (hhigh : o.highSeq = (t.reel q).highSeq)
    (haccepted : o.acceptedNs = (t.reel q).acceptedNs) : SameReception r s (t.setReel q o) := by
  by_cases hq : r = q
  · subst hq
    have hreel : (t.setReel r o).reel r = o := by simp
    exact ⟨by rw [hreel, hssrc, h.ssrc], by rw [hreel, hhigh, h.highSeq], by rw [hreel, haccepted, h.acceptedNs], h.silent, h.monoNs⟩
  · exact h.of_reel (by simp [hq]) rfl rfl

theorem SameReception.intakeKeeps (r : Nat) (s : State) : IntakeKeeps (SameReception r s) where
  queue k h := h.queue k
  wr t f v hf h := h.of_reel (State.wr_reel t f v r) (State.rd_wr_apart t f _ v hf.ok (hf.apart r)) rfl
  setPort _ _ _ h := h.of_reel rfl rfl rfl
  setReel _ _ _ hk h := h.setReel hk.ssrc hk.highSeq hk.acceptedNs
  setEnc _ _ _ h := h.of_reel rfl rfl rfl
  setEngine _ _ _ h := h.of_reel rfl rfl rfl
  damper _ _ h := h.of_reel rfl rfl rfl

/-- Of reel `r` no access unit is being collected but those of `s`. -/
def OpensWithin (r : Nat) (s t : State) : Prop := (t.reel r).open_ ⊆ (s.reel r).open_

theorem OpensWithin.intakeKeeps (r : Nat) (s : State) : IntakeKeeps (OpensWithin r s) where
  queue k h := by rw [OpensWithin, k.reel]; exact h
  wr t f v _ h := by rw [OpensWithin, State.wr_reel]; exact h
  setPort _ _ _ h := h
  setReel t q o hk h := by
    rw [OpensWithin, State.setReel_reel]
    split
    · next hq => exact List.Subset.trans hk.opens (hq ▸ h)
    · exact h
  setEnc _ _ _ h := h
  setEngine _ _ _ h := h
  damper _ _ h := h

/-! ### The jitter time of an access unit -/

theorem makeReady_open (r : Nat) (s : State) (a : AccessUnit) :
    ((makeReady r s a).reel r).open_ = (s.reel r).open_.filter (·.ts != a.ts) := by
  unfold makeReady
  extract_lets st gone s1 c q o s2 lvl now old d s3
  have h2 : (s2.reel r).open_ = st.open_.filter (·.ts != a.ts) := by simp [s2]
  have h3 : (s3.reel r).open_ = st.open_.filter (·.ts != a.ts) := by rw [State.reel_of_damper]; exact h2
  split
  · rw [(QueueOnly.raiseOnce _ _ _).reel, countDropped, State.wr_reel, h3]
  · exact h3

/-- Each access unit made ready leaves those being collected, with all of its timestamp. -/
theorem mem_open_of_makeReady {r : Nat} {l : List AccessUnit} {x : AccessUnit} {s : State}
    (h : x ∈ ((l.foldl (makeReady r) s).reel r).open_) : x ∈ (s.reel r).open_ ∧ ∀ a ∈ l, x.ts ≠ a.ts := by
  induction l generalizing s with
  | nil => exact ⟨h, by simp⟩
  | cons a l ih =>
    obtain ⟨hopen, hl⟩ := ih h
    rw [makeReady_open] at hopen
    obtain ⟨hs, ha⟩ := List.mem_filter.mp hopen
    exact ⟨hs, List.forall_mem_cons.mpr ⟨by simpa using ha, hl⟩⟩

theorem expireAus_open {r : Nat} {s : State} {a : AccessUnit} (h : a ∈ ((expireAus r s).reel r).open_) :
    s.monoNs < a.firstNs + s.rd (R.REEL_JB_JB_US r) * 1000 := by
  by_contra hdue
  obtain ⟨hopen, hts⟩ := mem_open_of_makeReady h
  exact hts a (List.mem_filter.mpr ⟨hopen, by simpa using hdue⟩) rfl

theorem IntakeKeeps.accessUnitJbExpiry {P : State → Prop} (hP : IntakeKeeps P) {r : Nat} {s : State} (hs : P (Machine.expireAus r s)) :
    P (accessUnitJbExpiry r s) := hP.dispatchEngines _ (hP.readyAus _ _ _ hs)

theorem accessUnitJbExpiry_closes (s : State) (r : Nat) (hr : r < 128) : ∃ t, exec (.accessUnitJbExpiry r) s = .next t ∧
    (∀ a ∈ (t.reel r).open_, s.monoNs < a.firstNs + s.rd (R.REEL_JB_JB_US r) * 1000) ∧ ChangesOnly intakeParts s t := by
  have hparts := ChangesOnly.intakeKeeps (List.Subset.refl _) s
  have hopen := OpensWithin.intakeKeeps r (expireAus r s)
  refine ⟨_, exec_of_wf (by simpa [WellFormed, Instr.wf] using hr) rfl, fun a ha => expireAus_open ?_, ?_⟩
  · exact hopen.queue (.flushEvents _) (hopen.accessUnitJbExpiry (List.Subset.refl _)) ha
  · exact hparts.queue (.flushEvents _) (hparts.accessUnitJbExpiry (hparts.expireAus r s (.refl _ s)))

/-! ### A packet is received -/

/-- The SSRC of a packet becomes the reel's in its register, where none was taken and none is demanded (R284). -/
def ssrcShown (r : Nat) (p : RtpPacket) (s : State) : State :=
  if (s.reel r).ssrc.isNone && !s.rdb (R.REEL_CFG_SSRC_EN r) then s.wrBoth (R.REEL_SSRC_SSRC r) p.ssrc else s

/-- Reel `st` when it accepts packet `p` at `now` (R284, R286, R287). -/
def ReelState.withPacket (st : ReelState) (p : RtpPacket) (now : Nat) : ReelState :=
  { st with
    ssrc := some (st.ssrc.getD p.ssrc)
    highSeq := some (max (extendSeq st.highSeq p.seq) (st.highSeq.getD (extendSeq st.highSeq p.seq)))
    acceptedNs := now }

/-- Reel `r` has accepted the packet, which is not yet in an access unit. -/
def packetAccepted (r : Nat) (p : RtpPacket) (s : State) : State :=
  let s := ssrcShown r p s
  (s.setReel r ((s.reel r).withPacket p s.monoNs)).wr (R.REEL_STATUS_SILENT r) 0

theorem State.wrBoth_reel (s : State) (f : Fld) (v r : Nat) : (s.wrBoth f v).reel r = s.reel r := State.wr_reel s f v r

theorem State.wrBoth_monoNs (s : State) (f : Fld) (v : Nat) : (s.wrBoth f v).monoNs = s.monoNs := rfl

theorem ssrcShown_reel (r : Nat) (p : RtpPacket) (s : State) : (ssrcShown r p s).reel r = s.reel r :=
  closed_ite (P := fun t => t.reel r = s.reel r) (State.wrBoth_reel _ _ _ _) rfl

theorem ssrcShown_monoNs (r : Nat) (p : RtpPacket) (s : State) : (ssrcShown r p s).monoNs = s.monoNs :=
  closed_ite (P := fun t => t.monoNs = s.monoNs) (State.wrBoth_monoNs _ _ _) rfl

theorem packetAccepted_reel (r : Nat) (p : RtpPacket) (s : State) :
    (packetAccepted r p s).reel r = (s.reel r).withPacket p s.monoNs := by
  simp [packetAccepted, ssrcShown_reel, ssrcShown_monoNs]

theorem packetAccepted_silent (r : Nat) (p : RtpPacket) (s : State) : (packetAccepted r p s).rd (R.REEL_STATUS_SILENT r) = 0 := by
  rw [packetAccepted, State.rd_wr _ _ _ (reelSilent_ok r), Nat.zero_mod]

theorem packetAccepted_changes {K : List Part} (hK : intakeParts ++ [.shadow] ⊆ K) (r : Nat) (p : RtpPacket) {s t : State}
    (h : ChangesOnly K s t) : ChangesOnly K s (packetAccepted r p t) := by
  have hclosed := ChangesOnly.closed K s
  exact hclosed.wr (hK (by decide)) _ _ _ (hclosed.setReel (hK (by decide)) _ _ _
    (closed_ite (hclosed.wrBoth (hK (by decide)) (hK (by decide)) _ _ _ h) h))

/-- A packet joins an access unit or begins one: the access units being collected change, and whether the last stamp lay ahead. -/
theorem joinAu_only (r : Nat) (p : RtpPacket) (e : Nat) (s : State) : ∃ (l : List AccessUnit) (b : Bool),
    QueueOnly (s.setReel r { s.reel r with open_ := l, ahead := b }) (joinAu r p e s) := by
  unfold joinAu
  extract_lets st
  split
  · exact ⟨_, (s.reel r).ahead, .refl _⟩
  · exact ⟨_, _, .ite (.raise _ _ _) (.refl _)⟩

theorem IntakeKeeps.rtpPacketReceived {P : State → Prop} (hP : IntakeKeeps P) {r : Nat} {p : RtpPacket} {s : State}
    (hbelongs : packetBelongs s r p = true) (hjoin : ∀ e t, P t → P (joinAu r p e t))
    (hs : P (packetAccepted r p (Machine.expireAus r s))) : P (rtpPacketReceived r p s) := by
  unfold Machine.rtpPacketReceived
  rw [if_neg (by simp [hbelongs])]
  extract_lets s1 s2 st e s3 st3 isOpen late s4 s5
  have h3 : P s3 := hs
  clear_value s3
  split
  · have h4 : P s4 := hP.setReel _ _ .of_eq h3
    exact hP.dispatchEngines _ (hP.wr _ _ (notSilence_late r) (closed_ite (hP.setLost _ _ _ h4) h4))
  · exact hP.dispatchEngines _ (hP.readyAus _ _ _ (hjoin _ _ h3))

theorem SameReception.joinAu {r : Nat} {s t : State} (h : SameReception r s t) (p : RtpPacket) (e : Nat) :
    SameReception r s (joinAu r p e t) := by
  obtain ⟨l, b, k⟩ := joinAu_only r p e t
  refine SameReception.queue ?_ k
  exact h.setReel rfl rfl rfl

theorem ChangesOnly.joinAu {K : List Part} (hK : intakeParts ⊆ K) {s t : State} (h : ChangesOnly K s t) (r : Nat) (p : RtpPacket)
    (e : Nat) : ChangesOnly K s (joinAu r p e t) := by
  obtain ⟨l, b, k⟩ := joinAu_only r p e t
  exact ((ChangesOnly.closed K s).setReel (hK (by decide)) _ _ _ h).queue k (List.Subset.trans (by simp) hK)

theorem rtpPacketReceived_accepts (s : State) (r : Nat) (p : RtpPacket) (hr : r < 128) (hbelongs : packetBelongs s r p = true) :
    ∃ t, exec (.rtpPacketReceived r p) s = .next t ∧
      (t.reel r).ssrc = some ((s.reel r).ssrc.getD p.ssrc) ∧
      (t.reel r).highSeq = some (max (extendSeq (s.reel r).highSeq p.seq) ((s.reel r).highSeq.getD (extendSeq (s.reel r).highSeq p.seq))) ∧
      (t.reel r).acceptedNs = s.monoNs ∧ t.rdb (R.REEL_STATUS_SILENT r) = false ∧
      ChangesOnly (intakeParts ++ [.shadow]) s t := by
  have hexpired : SameReception r s (expireAus r s) := (SameReception.intakeKeeps r s).expireAus r s (.refl r s)
  generalize hu : expireAus r s = u at hexpired
  have hkeeps := SameReception.intakeKeeps r (packetAccepted r p u)
  have hdone : SameReception r (packetAccepted r p u) (rtpPacketReceived r p s).flushEvents :=
    (hkeeps.rtpPacketReceived hbelongs (fun e t h => h.joinAu p e) (hu ▸ .refl r _)).queue (.flushEvents _)
  have hparts := ChangesOnly.intakeKeeps (K := intakeParts ++ [.shadow]) (List.subset_append_left _ _) s
  refine ⟨_, exec_of_wf (by simpa [WellFormed, Instr.wf] using hr) rfl, ?_, ?_, ?_, ?_, ?_⟩
  · rw [hdone.ssrc, packetAccepted_reel, ReelState.withPacket, hexpired.ssrc]
  · rw [hdone.highSeq, packetAccepted_reel, ReelState.withPacket, hexpired.highSeq]
  · rw [hdone.acceptedNs, packetAccepted_reel, ReelState.withPacket, hexpired.monoNs]
  · rw [State.rdb, hdone.silent, packetAccepted_silent]
    rfl
  · refine hparts.queue (.flushEvents _) (hparts.rtpPacketReceived hbelongs
      (fun e t h => h.joinAu (List.subset_append_left _ _) r p e) ?_)
    exact packetAccepted_changes (List.Subset.refl _) r p (hparts.expireAus r s (.refl _ s))

/-- Settles O34, command by command. -/
theorem decodeReceive : Obligations.DecodeReceive := by
  unfold Obligations.DecodeReceive
  refine ⟨rtpPacketReceived_accepts, accessUnitJbExpiry_closes, decSilent_sets, rtcpSrReceived_keeps,
    fun s r hr hup hstamp hnew hdue => decSrLost_clears s r hr hup hstamp hnew ?_⟩
  unfold ReelState.heardNs
  cases hsr : (s.reel r).sr <;> simpa [hsr] using hdue

end Sys2Proof.Machine

/-!
PROOFS. The codec engines of a decode reel (chapter 12): a picture that is decoded (R277, R289 to R299), an engine reset (R283), the
FIR of a damage episode (R298) and the receiver reports (R408).
-/
namespace Sys2Proof.Machine

/-! ### Packets to the sender of the sender reports -/

theorem SendKeeps.codec (c : CodecState) : SendKeeps fun s => s.codec = c where
  queue k h := k.codec.trans h
  setPort _ _ _ h := h
  dropCount _ _ _ h := h

theorem sendRtcp_reel (r : Nat) (m : Sent) (s : State) (q : Nat) : (sendRtcp r m s).reel q = s.reel q := by
  have hcodec : (sendRtcp r m s).codec = s.codec := (SendKeeps.codec s.codec).sendNet _ _ _ _ rfl
  unfold State.reel
  rw [hcodec]

/-- A new record of a reel and a packet sent change the codec, the port and events alone. -/
theorem sendRtcp_changes (r : Nat) (m : Sent) (o : ReelState) (s : State) :
    ChangesOnly engineParts s (sendRtcp r m (s.setReel r o)) :=
  have hclosed := ChangesOnly.closed engineParts s
  hclosed.sendNet (List.Subset.refl _) _ _ _ _ (hclosed.setReel (by decide) _ _ _ (.refl _ s))

theorem firTimer_of_due {s : State} {r e : Nat} (hepisode : (s.reel r).episode = some e)
    (hon : s.rdb (R.REEL_KEYREQ_FIR_EN r) = true) (hcodec : s.rd (R.REEL_CFG_CODEC r) ≠ 2) (hsr : (s.reel r).sr.isSome = true)
    (hdue : (s.reel r).firNs.getD e + max 1 (s.rd (R.REEL_KEYREQ_FIR_MS r)) * 1000000 ≤ s.monoNs) :
    firTimer r s = (sendRtcp r (.rtcpFir r (s.reel r).firSeq (s.reel r).srFrom.1 (s.reel r).srFrom.2)
      (s.setReel r { s.reel r with firNs := some s.monoNs, firSeq := ((s.reel r).firSeq + 1) % 256 })).raise 0x0D06 r := by
  simp [firTimer, hepisode, hon, hcodec, hsr, hdue]

theorem firTimer_sends (s : State) (r e : Nat) (hr : r < 128) (hepisode : (s.reel r).episode = some e)
    (hon : s.rdb (R.REEL_KEYREQ_FIR_EN r) = true) (hcodec : s.rd (R.REEL_CFG_CODEC r) ≠ 2) (hsr : (s.reel r).sr.isSome = true)
    (hdue : (s.reel r).firNs.getD e + max 1 (s.rd (R.REEL_KEYREQ_FIR_MS r)) * 1000000 ≤ s.monoNs) :
    ∃ t, exec (.firTimer r) s = .next t ∧
      t.reel r = { s.reel r with firNs := some s.monoNs, firSeq := ((s.reel r).firSeq + 1) % 256 } ∧
      ChangesOnly engineParts s t := by
  refine ⟨_, exec_of_wf (by simpa [WellFormed, Instr.wf] using hr) rfl, ?_⟩
  rw [firTimer_of_due hepisode hon hcodec hsr hdue]
  refine ⟨by simp [sendRtcp_reel], ?_⟩
  exact ((sendRtcp_changes r _ _ s).queue (.raise _ _ _) (by simp)).queue (.flushEvents _) (by simp)

theorem rtcpRrTimer_of_due {s : State} {r : Nat} (hup : (s.reel r).up = true) (hsr : (s.reel r).sr.isSome = true)
    (hdue : (s.reel r).rrNs + 5000000000 ≤ s.monoNs) :
    rtcpRrTimer r s = sendRtcp r (.rtcpRr r (s.reel r).srFrom.1 (s.reel r).srFrom.2)
      (s.setReel r { s.reel r with rrNs := s.monoNs }) := by
  simp [rtcpRrTimer, hup, hsr, hdue]

theorem rtcpRrTimer_begins (s : State) (r : Nat) (hr : r < 128) (hup : (s.reel r).up = true) (hsr : (s.reel r).sr.isSome = true)
    (hdue : (s.reel r).rrNs + 5000000000 ≤ s.monoNs) :
    ∃ t, exec (.rtcpRrTimer r) s = .next t ∧ t.reel r = { s.reel r with rrNs := s.monoNs } ∧ ChangesOnly engineParts s t := by
  refine ⟨_, exec_of_wf (by simpa [WellFormed, Instr.wf] using hr) rfl, ?_⟩
  rw [rtcpRrTimer_of_due hup hsr hdue]
  exact ⟨by simp [sendRtcp_reel], (sendRtcp_changes r _ _ s).queue (.flushEvents _) (by simp)⟩

/-! ### An engine is reset -/

@[simp] theorem State.wr_engine (s : State) (f : Fld) (v k : Nat) : (s.wr f v).engine k = s.engine k := by
  unfold State.engine; rw [State.wr_codec]

@[simp] theorem State.wr_enc (s : State) (f : Fld) (v e : Nat) : (s.wr f v).enc e = s.enc e := by
  unfold State.enc; rw [State.wr_codec]

@[simp] theorem State.setReel_engine (s : State) (r : Nat) (o : ReelState) (v : Nat) : (s.setReel r o).engine v = s.engine v := rfl

@[simp] theorem State.setReel_enc (s : State) (r : Nat) (o : ReelState) (e : Nat) : (s.setReel r o).enc e = s.enc e := rfl

@[simp] theorem State.setEngine_reel (s : State) (v : Nat) (o : EngineState) (r : Nat) : (s.setEngine v o).reel r = s.reel r := rfl

@[simp] theorem State.setEngine_enc (s : State) (v : Nat) (o : EngineState) (e : Nat) : (s.setEngine v o).enc e = s.enc e := rfl

@[simp] theorem State.flushEvents_engine (s : State) (v : Nat) : s.flushEvents.engine v = s.engine v :=
  (QueueOnly.flushEvents s).engine v

@[simp] theorem State.raise_engine (s : State) (c o v : Nat) : (s.raise c o).engine v = s.engine v :=
  (QueueOnly.raise s c o).engine v

theorem Within.setEngine {l : List Fld} {q : List Part} {s t : State} (h : Within l q s t) (hq : .codec ∈ q) (v : Nat)
    (o : EngineState) : Within l q s (t.setEngine v o) :=
  ⟨h.1.of_regs rfl, (ChangesOnly.closed _ s).codec (by simp [hq]) t _ h.2⟩

/-- Waiting jobs are those of the reels' access units and the encode reels' frames. -/
theorem noJobReady.of_ready {s t : State} (h : noJobReady s) (hreel : ∀ r, (t.reel r).ready = (s.reel r).ready)
    (henc : ∀ e, (t.enc e).ready = (s.enc e).ready) : noJobReady t :=
  fun r hr => ⟨(hreel r).trans (h r hr).1, (henc r).trans (h r hr).2⟩

theorem State.engine_of_codec {s t : State} (h : t.codec = s.codec) (v : Nat) : t.engine v = s.engine v := by
  unfold State.engine; rw [h]

theorem noJobReady.of_codec {s t : State} (h : noJobReady s) (hcodec : t.codec = s.codec) : noJobReady t :=
  h.of_ready (fun r => by unfold State.reel; rw [hcodec]) fun e => by unfold State.enc; rw [hcodec]

theorem noJobReady.queue {s t : State} (h : noJobReady s) (k : QueueOnly s t) : noJobReady t := h.of_codec k.codec

theorem setReel_ready {s : State} {r : Nat} {o : ReelState} (ho : o.ready = (s.reel r).ready) (q : Nat) :
    ((s.setReel r o).reel q).ready = (s.reel q).ready := by
  rw [State.setReel_reel]
  split
  · next hq => rw [hq, ho]
  · rfl

/-- The engine `e` when it has no work any more. -/
def EngineState.freed (e : EngineState) : EngineState := { e with busy := false, au := none }

theorem restoreContext_ready (r : Nat) (s : State) (q : Nat) : ((restoreContext r s).reel q).ready = (s.reel q).ready := by
  unfold restoreContext
  refine setReel_ready ?_ q
  rfl

/-- Engine `v` is reset in its work: it is free, its reel's context goes back to the saved copy, and the picture is dropped (R283). -/
def engineReset (v : Nat) (s : State) : State :=
  (countDropped (s.engine v).reel (restoreContext (s.engine v).reel (s.setEngine v (s.engine v).freed))).raise 0x0D0D v

theorem reelDropped_ok (r : Nat) : FldOk (R.REEL_PICS_DROPPED r) := by simp [FldOk, R.REEL_PICS_DROPPED]

theorem engineReset_engine (v : Nat) (s : State) : (engineReset v s).engine v = (s.engine v).freed := by
  simp [engineReset, countDropped, restoreContext]

theorem engineReset_noJobReady {s : State} (h : noJobReady s) (v : Nat) : noJobReady (engineReset v s) := by
  refine noJobReady.queue (h.of_ready (fun r => ?_) fun e => ?_) (.raise _ _ _)
  · rw [countDropped, State.wr_reel, restoreContext_ready, State.setEngine_reel]
  · rw [countDropped, State.wr_enc]
    rfl

theorem satTo_mod (x : Nat) : satTo 16 x % 2 ^ 16 = min x 65535 := by
  have hlow : satTo 16 x ≤ 65535 := Nat.min_le_right _ _
  rw [Nat.mod_eq_of_lt (by omega)]
  rfl

theorem engineReset_dropped (v : Nat) (s : State) : (engineReset v s).rd (R.REEL_PICS_DROPPED (s.engine v).reel) =
    min (s.rd (R.REEL_PICS_DROPPED (s.engine v).reel) + 1) 65535 := by
  rw [engineReset, State.raise_rd, countDropped, State.rd_wr _ _ _ (reelDropped_ok _)]
  exact satTo_mod _

theorem engineReset_within (v : Nat) (s : State) :
    Within [R.REEL_PICS_DROPPED (s.engine v).reel] [.codec] s (engineReset v s) :=
  ((((Within.refl _ _ s).setEngine (by simp) _ _).setReel (by simp) _ _).wr (by simp) (reelDropped_ok _) _).raise _ _

theorem decEngineReset_of_late {s : State} {v : Nat} (hbusy : (s.engine v).busy = true) (hau : (s.engine v).au.isSome = true)
    (hlate : (s.engine v).sinceNs + 50000000 ≤ s.monoNs) : decEngineReset v s = dispatchEngines (engineReset v s) := by
  simp [decEngineReset, hbusy, hau, hlate, engineReset, EngineState.freed]

theorem decEngineReset_drops (s : State) (v : Nat) (hv : v < 24) (hbusy : (s.engine v).busy = true)
    (hau : (s.engine v).au.isSome = true) (hlate : (s.engine v).sinceNs + 50000000 ≤ s.monoNs) (hidle : noJobReady s) :
    ∃ t, exec (.decEngineReset v) s = .next t ∧ t.engine v = (s.engine v).freed ∧
      t.rd (R.REEL_PICS_DROPPED (s.engine v).reel) = min (s.rd (R.REEL_PICS_DROPPED (s.engine v).reel) + 1) 65535 ∧
      Within [R.REEL_PICS_DROPPED (s.engine v).reel] [.codec] s t := by
  refine ⟨_, exec_of_wf (by simpa [WellFormed, Instr.wf] using hv) rfl, ?_⟩
  rw [decEngineReset_of_late hbusy hau hlate, dispatchEngines_of_noJobReady (engineReset_noJobReady hidle v)]
  refine ⟨by rw [State.flushEvents_engine, engineReset_engine], ?_, (engineReset_within v s).queue (.flushEvents _)⟩
  rw [State.flushEvents_rd _ _ (queueOffset_above (by simp only [R.REEL_PICS_DROPPED]; omega)), engineReset_dropped]

/-! ### What survives a picture -/

/-- What survives the storing of a picture of reel `r` and what follows it: packets sent, memory, sources, DAMAGED, and any change of
the reel that keeps its last picture and its ready access units (R277, R290 to R298). -/
structure PictureKeeps (r : Nat) (P : State → Prop) : Prop extends SendKeeps P where
  store : ∀ (s : State) (a : Nat) (bs : List Byte), P s → P (s.memWrite a bs)
  comp : ∀ (s : State) (o : CompState), P s → P { s with comp := o }
  damaged : ∀ (s : State) (v : Nat), P s → P (s.wr (R.REEL_STATUS_DAMAGED r) v)
  setReel : ∀ (s : State) {o : ReelState}, o.last = (s.reel r).last → o.ready = (s.reel r).ready → P s → P (s.setReel r o)

section
variable {r : Nat} {P : State → Prop} (hP : PictureKeeps r P)
include hP

theorem PictureKeeps.writePicture (a pitch uv area : Nat) (i : AuInfo) (sample : Nat → Nat → Nat → Nat) (map_ : List Byte) (s : State)
    (hs : P s) : P (writePicture a pitch uv area i sample map_ s) :=
  hP.store _ _ _ (closed_foldl (fun _ _ => hP.store _ _ _) (closed_foldl (fun _ _ => hP.store _ _ _) hs))

theorem PictureKeeps.outputPictures (n : Nat) (s : State) (hs : P s) : P (outputPictures r n s) := by
  induction n generalizing s with
  | zero => exact hs
  | succ n ih =>
    unfold Machine.outputPictures
    extract_lets st
    split
    · exact hs
    next x _ =>
    extract_lets t
    have ht : P t := hP.comp _ _ (hP.setReel _ rfl rfl hs)
    exact ih _ (closed_ite ht (hP.queue (.raise _ _ _) ht))

theorem PictureKeeps.damageEpisode (fr : Frame) (s : State) (hs : P s) : P (damageEpisode r fr s).2 := by
  unfold Machine.damageEpisode
  extract_lets st bad
  split
  · exact hP.queue (.raise _ _ _) (hP.damaged _ _ (hP.setReel _ rfl rfl hs))
  · exact hs
  · exact hP.queue (.raise _ _ _) (hP.damaged _ _ (hP.setReel _ rfl rfl hs))
  · exact hs

theorem PictureKeeps.sendPli (keyreq : Nat) (s : State) (hs : P s) : P (sendPli r keyreq s).2 := by
  unfold Machine.sendPli
  extract_lets st gap early
  split
  · exact hs
  · exact hP.sendNet _ _ _ _ (hP.setReel _ rfl rfl hs)

end

/-! ### A picture is done -/

/-- The events of a picture: references that it misses, units that break the standard (R289, R291). -/
def pictureErrors (r : Nat) (gone : List Nat) (bad : Nat) (s : State) : State :=
  (s.when (!gone.isEmpty) (·.raiseOnce 0x0D04 r)).when (decide (0 < bad)) (·.raiseOnce 0x0D05 r)

/-- What follows a picture: its damage episode, its events, and a PLI where one is due (R298). -/
def pictureFollowed (r keyreq : Nat) (fr : Frame) (gone : List Nat) (bad : Nat) (s : State) : State :=
  let d := damageEpisode r fr s
  let t := pictureErrors r gone bad d.2
  let q := if d.1 then sendPli r keyreq t else (false, t)
  if q.1 && !(q.2.reel r).pliRaised then (q.2.setReel r { q.2.reel r with pliRaised := true }).raise 0x0D06 r else q.2

/-- How many whole NAL units of an access unit break the standard (R289). -/
def badNals (us : List NalUnit) (p : Picture) : Nat := (p.bad.filter fun k => (us[k]?).any (·.whole)).length

/-- Engine `v` is free again, and the errors of its picture are counted for reel `r`. -/
def errorsCounted (r v : Nat) (us : List NalUnit) (p : Picture) (s : State) : State :=
  let gone := missingRefs (s.reel r) p
  let s := s.setEngine v (s.engine v).freed
  let s := s.wr (R.REEL_ERR_SYNTAX r) (satTo 16 (s.rd (R.REEL_ERR_SYNTAX r) + badNals us p))
  let s := s.wr (R.REEL_ERR_REF_MISSING r) (satTo 8 (s.rd (R.REEL_ERR_REF_MISSING r) + gone.length))
  s.wr (R.REEL_ERR_DRAM_UE r) (satTo 8 (s.rd (R.REEL_ERR_DRAM_UE r) + p.dramUe))

/-- The picture of engine `v` for reel `r`, with parameters `i` and the stamp of its access unit, is stored and shown in the reel's
registers. -/
def pictureNoted (r v : Nat) (us : List NalUnit) (p : Picture) (stamp : Nat) (i : AuInfo) (s : State) : State :=
  let x := storePicture r i stamp (decodedBlocks us p) p (errorsCounted r v us p s)
  notePicture r v (s.engine v).sinceNs x.1 x.2

theorem decodePictureDone_of_decoded {s : State} {v : Nat} {p : Picture} {a : AccessUnit} {i : AuInfo}
    (hbusy : (s.engine v).busy = true) (hau : (s.engine v).au = some a) (hinfo : a.info = some i) {r : Nat} {us : List NalUnit}
    (hr : (s.engine v).reel = r) (hus : a.nals (s.rd (R.REEL_CFG_CODEC r)) = us) (hdec : decodedBlocks us p ≠ []) :
    decodePictureDone v p s = dispatchEngines (pictureFollowed r ((s.engine v).words.headD 0)
      (storePicture r i a.stamp (decodedBlocks us p) p (errorsCounted r v us p s)).1 (missingRefs (s.reel r) p) (badNals us p)
      (pictureNoted r v us p a.stamp i s)) := by
  subst hr hus
  have hwork : ((s.engine v).au.bind fun a => a.info.map fun i => (a, i)) = some (a, i) := by simp [hau, hinfo]
  unfold decodePictureDone
  extract_lets e
  rw [hbusy, hwork]
  dsimp -zeta only
  exact if_neg (by simpa using hdec)

section
variable {r : Nat} {P : State → Prop} (hP : PictureKeeps r P)
include hP

theorem PictureKeeps.pictureErrors (gone : List Nat) (bad : Nat) (s : State) (hs : P s) : P (pictureErrors r gone bad s) :=
  closed_when (hP.queue (.raiseOnce _ _ _)) (closed_when (hP.queue (.raiseOnce _ _ _)) hs)

theorem PictureKeeps.pictureFollowed (keyreq : Nat) (fr : Frame) (gone : List Nat) (bad : Nat) (s : State) (hs : P s) :
    P (pictureFollowed r keyreq fr gone bad s) := by
  unfold Machine.pictureFollowed
  extract_lets d t q
  have ht : P t := hP.pictureErrors _ _ _ (hP.damageEpisode fr s hs)
  have hq : P q.2 := by
    unfold q
    split
    · exact hP.sendPli _ _ ht
    · exact ht
  exact closed_ite (hP.queue (.raise _ _ _) (hP.setReel _ rfl rfl hq)) hq

/-- Of what survives the change of the reel's last picture too. -/
theorem PictureKeeps.storePicture (hlast : ∀ (s : State) {o : ReelState}, o.ready = (s.reel r).ready → P s → P (s.setReel r o))
    (i : AuInfo) (stamp : Nat) (dec : List Nat) (p : Picture) (s : State) (hs : P s) : P (storePicture r i stamp dec p s).2 := by
  unfold Machine.storePicture
  exact hP.outputPictures _ _ (hlast _ rfl (hP.comp _ _ (hP.writePicture _ _ _ _ _ _ _ _ hs)))

end

/-! ### Parts, counts and the last picture survive -/

/-- The parts that a picture done changes. -/
abbrev pictureParts : List Part := queueParts ++ [.codec, .comp, .ports, .bytes, .mem]

theorem ChangesOnly.pictureKeeps (r : Nat) (s : State) : PictureKeeps r (ChangesOnly pictureParts s) where
  queue k h := h.queue k (by simp)
  setPort t p o h := (ChangesOnly.closed _ s).setPort (by decide) t p o h
  dropCount t i v h := (ChangesOnly.closed _ s).wr (by decide) t _ v h
  store t a bs h := (ChangesOnly.closed _ s).store (by decide) t a bs (.inl (by decide)) h
  comp t o h := (ChangesOnly.closed _ s).comp (by decide) t o h
  damaged t v h := (ChangesOnly.closed _ s).wr (by decide) t _ v h
  setReel t _ _ _ h := (ChangesOnly.closed _ s).setReel (by decide) t r _ h

/-- The registers of reel `r` that count its pictures and their errors and show the stamp of the newest. -/
abbrev pictureCounts (r : Nat) : List Fld := [R.REEL_PICS_DECODED r, R.REEL_LAST_STAMP_WUS r, R.REEL_ERR_SYNTAX r]

/-- The engines are as in `s`, the same jobs wait for them, and reel `r` shows the same counts. -/
structure SameWork (r : Nat) (s t : State) : Prop where
  counts : ∀ g ∈ pictureCounts r, t.rd g = s.rd g
  engine : ∀ v, t.engine v = s.engine v
  ready : ∀ q, (t.reel q).ready = (s.reel q).ready
  encReady : ∀ e, (t.enc e).ready = (s.enc e).ready

theorem SameWork.refl (r : Nat) (s : State) : SameWork r s s := ⟨fun _ _ => rfl, fun _ => rfl, fun _ => rfl, fun _ => rfl⟩

theorem SameWork.noJobReady {r : Nat} {s t : State} (h : SameWork r s t) (hidle : noJobReady s) : noJobReady t :=
  noJobReady.of_ready hidle h.ready h.encReady

theorem pictureCounts_notQueue (r : Nat) : ∀ g ∈ pictureCounts r, queueOffset g.addr = false := by
  simp only [List.forall_mem_cons, List.not_mem_nil, false_implies, implies_true, and_true]
  exact ⟨queueOffset_above (by simp only [R.REEL_PICS_DECODED]; omega), queueOffset_above (by simp only [R.REEL_LAST_STAMP_WUS]; omega),
    queueOffset_above (by simp only [R.REEL_ERR_SYNTAX]; omega)⟩

/-- The counts share no word with a field at another offset. -/
theorem pictureCounts_apart (r : Nat) {f : Fld} (hf : f.addr % 0x100 ∉ [0x54, 0x48, 0x58]) :
    ∀ g ∈ pictureCounts r, FldApart f g := by
  simp only [List.mem_cons, List.not_mem_nil, or_false, not_or] at hf
  obtain ⟨hpics, hstamp, herr⟩ := hf
  simp only [List.forall_mem_cons, List.not_mem_nil, false_implies, implies_true, and_true]
  exact ⟨.inl (by simp only [R.REEL_PICS_DECODED]; omega), .inl (by simp only [R.REEL_LAST_STAMP_WUS]; omega),
    .inl (by simp only [R.REEL_ERR_SYNTAX]; omega)⟩

section
variable {r : Nat} {s t u : State}

theorem SameWork.of_codec (h : SameWork r s t) (hcodec : u.codec = t.codec) (hcounts : ∀ g ∈ pictureCounts r, u.rd g = t.rd g) :
    SameWork r s u where
  counts g hg := (hcounts g hg).trans (h.counts g hg)
  engine v := (State.engine_of_codec hcodec v).trans (h.engine v)
  ready q := by rw [← h.ready q]; unfold State.reel; rw [hcodec]
  encReady e := by rw [← h.encReady e]; unfold State.enc; rw [hcodec]

theorem SameWork.queue (h : SameWork r s t) (k : QueueOnly t u) : SameWork r s u :=
  h.of_codec k.codec fun g hg => k.rd g (pictureCounts_notQueue r g hg)

theorem SameWork.wr (h : SameWork r s t) {f : Fld} (hok : FldOk f) (hf : f.addr % 0x100 ∉ [0x54, 0x48, 0x58]) (v : Nat) :
    SameWork r s (t.wr f v) :=
  h.of_codec (State.wr_codec _ _ _) fun g hg => State.rd_wr_apart t f g v hok (pictureCounts_apart r hf g hg)

theorem SameWork.setReel (h : SameWork r s t) {o : ReelState} (ho : o.ready = (t.reel r).ready) : SameWork r s (t.setReel r o) :=
  ⟨h.counts, h.engine, fun q => (setReel_ready ho q).trans (h.ready q), h.encReady⟩

end

theorem SameWork.pictureKeeps (r : Nat) (s : State) : PictureKeeps r (SameWork r s) where
  queue k h := h.queue k
  setPort _ _ _ h := h.of_codec rfl fun _ _ => rfl
  dropCount t i v h := h.wr (by simp [FldOk, R.PORT_ETH_DROP_TX])
    (by simp only [R.PORT_ETH_DROP_TX, List.mem_cons, List.not_mem_nil, or_false]; omega) v
  store _ _ _ h := h.of_codec rfl fun _ _ => rfl
  comp _ _ h := h.of_codec rfl fun _ _ => rfl
  damaged t v h := h.wr (by simp [FldOk, R.REEL_STATUS_DAMAGED])
    (by simp only [R.REEL_STATUS_DAMAGED, List.mem_cons, List.not_mem_nil, or_false]; omega) v
  setReel _ _ _ ho h := h.setReel ho

/-- The last picture of reel `r` is `o`. -/
def LastIs (r : Nat) (o : Option Frame) (s : State) : Prop := (s.reel r).last = o

theorem LastIs.of_codec {r : Nat} {o : Option Frame} {s t : State} (h : LastIs r o s) (hcodec : t.codec = s.codec) : LastIs r o t := by
  unfold LastIs State.reel at h ⊢
  rw [hcodec, h]

theorem LastIs.pictureKeeps (r : Nat) (o : Option Frame) : PictureKeeps r (LastIs r o) where
  queue k h := h.of_codec k.codec
  setPort _ _ _ h := h.of_codec rfl
  dropCount _ _ _ h := h.of_codec (State.wr_codec _ _ _)
  store _ _ _ h := h.of_codec rfl
  comp _ _ h := h.of_codec rfl
  damaged _ _ h := h.of_codec (State.wr_codec _ _ _)
  setReel t o' ho _ h := by rw [LastIs, State.setReel_reel, if_pos rfl, ho, h]

/-! ### The picture stored and noted -/

theorem storePicture_last (r : Nat) (i : AuInfo) (stamp : Nat) (dec : List Nat) (p : Picture) (s : State) :
    LastIs r (some (storePicture r i stamp dec p s).1) (storePicture r i stamp dec p s).2 := by
  unfold storePicture
  refine (LastIs.pictureKeeps r _).outputPictures _ _ ?_
  rw [LastIs, State.setReel_reel, if_pos rfl]

theorem storePicture_stamp (r : Nat) (i : AuInfo) (stamp : Nat) (dec : List Nat) (p : Picture) (s : State) :
    (storePicture r i stamp dec p s).1.stamp = stamp := rfl

/-- Noting a picture writes registers alone. -/
theorem notePicture_of_wr {P : State → Prop} (hwr : ∀ t f v, P t → P (t.wr f v)) (r v since : Nat) (fr : Frame) {s : State} (hs : P s) :
    P (notePicture r v since fr s) :=
  hwr _ _ _ (hwr _ _ _ (hwr _ _ _ (hwr _ _ _ (hwr _ _ _ (hwr _ _ _ (hwr _ _ _ (hwr _ _ _ (hwr _ _ _ (hwr _ _ _ hs)))))))))

theorem notePicture_codec (r v since : Nat) (fr : Frame) (s : State) : (notePicture r v since fr s).codec = s.codec :=
  notePicture_of_wr (P := fun t => t.codec = s.codec) (fun t f n h => (State.wr_codec t f n).trans h) r v since fr rfl

theorem notePicture_counts (r v since : Nat) (fr : Frame) (s : State) :
    (notePicture r v since fr s).rd (R.REEL_PICS_DECODED r) = min (s.rd (R.REEL_PICS_DECODED r) + 1) 65535 ∧
      (notePicture r v since fr s).rd (R.REEL_LAST_STAMP_WUS r) = fr.stamp % 2 ^ 32 ∧
      (notePicture r v since fr s).rd (R.REEL_ERR_SYNTAX r) = s.rd (R.REEL_ERR_SYNTAX r) := by
  rw [← satTo_mod]
  unfold notePicture
  refine ⟨?_, ?_, ?_⟩ <;>
    simp (disch := simp [FldOk, FldApart, R.REEL_PICSIZE_HEIGHT_M1, R.REEL_PICSIZE_WIDTH_M1, R.REEL_LAST_STAMP_WUS,
      R.REEL_CSTAMP_WUS, R.REEL_MAPS_UNTRUSTED, R.REEL_MAPS_CONCEALED, R.REEL_ENGINE_ENGINE, R.REEL_ENGINE_DEC_US,
      R.REEL_PICS_DECODED, R.REEL_STATUS_STATE, R.REEL_ERR_SYNTAX]) only [State.rd_wr, State.rd_wr_apart] <;> rfl

theorem errorsCounted_counts (r v : Nat) (us : List NalUnit) (p : Picture) (s : State) :
    (errorsCounted r v us p s).rd (R.REEL_ERR_SYNTAX r) = min (s.rd (R.REEL_ERR_SYNTAX r) + badNals us p) 65535 ∧
      (errorsCounted r v us p s).rd (R.REEL_PICS_DECODED r) = s.rd (R.REEL_PICS_DECODED r) := by
  rw [← satTo_mod]
  unfold errorsCounted
  refine ⟨?_, ?_⟩ <;>
    simp (disch := simp [FldOk, FldApart, R.REEL_ERR_SYNTAX, R.REEL_ERR_REF_MISSING, R.REEL_ERR_DRAM_UE, R.REEL_PICS_DECODED])
      only [State.rd_wr, State.rd_wr_apart, State.setEngine_rd]
  rfl

theorem errorsCounted_engine (r v : Nat) (us : List NalUnit) (p : Picture) (s : State) :
    (errorsCounted r v us p s).engine v = (s.engine v).freed := by simp [errorsCounted]

theorem errorsCounted_noJobReady {s : State} (h : noJobReady s) (r v : Nat) (us : List NalUnit) (p : Picture) :
    noJobReady (errorsCounted r v us p s) :=
  h.of_ready (fun r => by simp [errorsCounted]) fun e => by simp [errorsCounted]

theorem errorsCounted_changes (r v : Nat) (us : List NalUnit) (p : Picture) (s : State) :
    ChangesOnly pictureParts s (errorsCounted r v us p s) := by
  have hclosed := ChangesOnly.closed pictureParts s
  have hwr (t : State) (f : Fld) (n : Nat) (h : ChangesOnly pictureParts s t) : ChangesOnly pictureParts s (t.wr f n) :=
    hclosed.wr (by decide) t f n h
  exact hwr _ _ _ (hwr _ _ _ (hwr _ _ _ (hclosed.setEngine (by decide) _ _ _ (.refl _ s))))

theorem pictureNoted_changes (r v : Nat) (us : List NalUnit) (p : Picture) (stamp : Nat) (i : AuInfo) (s : State) :
    ChangesOnly pictureParts s (pictureNoted r v us p stamp i s) := by
  have hclosed := ChangesOnly.closed pictureParts s
  exact notePicture_of_wr (fun t f n => hclosed.wr (by decide) t f n) _ _ _ _
    ((ChangesOnly.pictureKeeps r s).storePicture (fun t _ _ => hclosed.setReel (by decide) t _ _) _ _ _ _ _
      (errorsCounted_changes r v us p s))

/-- The picture of engine `v`, of reel `r`, is done: counted and shown with its errors, the reel's last, and the engine free. -/
structure PictureDone (r v : Nat) (us : List NalUnit) (p : Picture) (stamp : Nat) (s t : State) : Prop where
  decoded : t.rd (R.REEL_PICS_DECODED r) = min (s.rd (R.REEL_PICS_DECODED r) + 1) 65535
  shown : t.rd (R.REEL_LAST_STAMP_WUS r) = stamp % 2 ^ 32
  errors : t.rd (R.REEL_ERR_SYNTAX r) = min (s.rd (R.REEL_ERR_SYNTAX r) + badNals us p) 65535
  last : (t.reel r).last.map Frame.stamp = some stamp
  engine : t.engine v = (s.engine v).freed
  idle : noJobReady t

theorem PictureDone.same {r v : Nat} {us : List NalUnit} {p : Picture} {stamp : Nat} {s t u : State}
    (h : PictureDone r v us p stamp s t) (k : SameWork r t u) (hlast : LastIs r (t.reel r).last u) :
    PictureDone r v us p stamp s u where
  decoded := (k.counts _ (by simp)).trans h.decoded
  shown := (k.counts _ (by simp)).trans h.shown
  errors := (k.counts _ (by simp)).trans h.errors
  last := by rw [show (u.reel r).last = (t.reel r).last from hlast]; exact h.last
  engine := (k.engine v).trans h.engine
  idle := k.noJobReady h.idle

theorem pictureNoted_done {s : State} (hidle : noJobReady s) (r v : Nat) (us : List NalUnit) (p : Picture) (stamp : Nat)
    (i : AuInfo) : PictureDone r v us p stamp s (pictureNoted r v us p stamp i s) := by
  obtain ⟨herrs, hpics⟩ := errorsCounted_counts r v us p s
  have hengine := errorsCounted_engine r v us p s
  have hcounted := errorsCounted_noJobReady hidle r v us p
  unfold pictureNoted
  generalize errorsCounted r v us p s = c at herrs hpics hengine hcounted
  extract_lets x
  have hsame : SameWork r c x.2 := (SameWork.pictureKeeps r c).storePicture (fun _ _ ho h => h.setReel ho) _ _ _ _ _ (.refl r c)
  have hlast : LastIs r (some x.1) x.2 := storePicture_last r i stamp _ p c
  have hstamp : x.1.stamp = stamp := storePicture_stamp r i stamp _ p c
  clear_value x
  obtain ⟨hnpics, hnstamp, hnerrs⟩ := notePicture_counts r v (s.engine v).sinceNs x.1 x.2
  have hcodec := notePicture_codec r v (s.engine v).sinceNs x.1 x.2
  have hnlast := hlast.of_codec hcodec
  constructor
  · rw [hnpics, hsame.counts _ (by simp), hpics]
  · rw [hnstamp, hstamp]
  · rw [hnerrs, hsame.counts _ (by simp), herrs]
  · rw [hnlast, Option.map_some, hstamp]
  · rw [State.engine_of_codec hcodec, hsame.engine, hengine]
  · exact (hsame.noJobReady hcounted).of_codec hcodec

theorem decodePictureDone_counts (s : State) (v : Nat) (p : Picture) (a : AccessUnit) (i : AuInfo) (hv : v < 24)
    (hbusy : (s.engine v).busy = true) (hau : (s.engine v).au = some a) (hinfo : a.info = some i) {r : Nat}
    (hr : (s.engine v).reel = r) {us : List NalUnit} (hus : a.nals (s.rd (R.REEL_CFG_CODEC r)) = us)
    (hdec : decodedBlocks us p ≠ []) (hidle : noJobReady s) : ∃ t, exec (.decodePictureDone v p) s = .next t ∧
      PictureDone r v us p a.stamp s t ∧ ChangesOnly pictureParts s t := by
  have hnoted := pictureNoted_done hidle r v us p a.stamp i
  have hparts := pictureNoted_changes r v us p a.stamp i s
  have heff := decodePictureDone_of_decoded hbusy hau hinfo hr hus hdec
  generalize pictureNoted r v us p a.stamp i s = n at hnoted hparts heff
  have hwork := (SameWork.pictureKeeps r n).pictureFollowed
  have hlast := (LastIs.pictureKeeps r (n.reel r).last).pictureFollowed
  have hfollowed := (ChangesOnly.pictureKeeps r s).pictureFollowed
  refine ⟨_, exec_of_wf (by simpa [WellFormed, Instr.wf] using hv) rfl, ?_⟩
  rw [heff, dispatchEngines_of_noJobReady ((hwork _ _ _ _ _ (.refl r n)).noJobReady hnoted.idle)]
  exact ⟨hnoted.same ((hwork _ _ _ _ _ (.refl r n)).queue (.flushEvents _))
      ((hlast _ _ _ _ _ rfl).of_codec (QueueOnly.flushEvents _).codec),
    (hfollowed _ _ _ _ _ hparts).queue (.flushEvents _) (by simp)⟩

/-- Settles O35, command by command. -/
theorem decodeEngines : Obligations.DecodeEngines := by
  unfold Obligations.DecodeEngines
  refine ⟨fun s v p a i hv hbusy hau hinfo _ hdec hidle => ?_, fun s v hv hbusy hau _ hlate hidle =>
    decEngineReset_drops s v hv hbusy hau hlate hidle, firTimer_sends, rtcpRrTimer_begins⟩
  obtain ⟨t, hexec, ⟨hdecoded, hshown, herrors, hlast, hengine, -⟩, hparts⟩ :=
    decodePictureDone_counts s v p a i hv hbusy hau hinfo rfl rfl hdec hidle
  exact ⟨t, hexec, hdecoded, hshown, herrors, hlast, hengine, hparts⟩

end Sys2Proof.Machine
